-- ==== Sys2Proof/Word.lean ====
section
/-! DEFINITION. The plain data types of the model: bytes, byte strings and sparse tables. -/

namespace Sys2Proof

/-- One byte. -/
abbrev Byte := BitVec 8

/-- A byte string, first byte at the lowest address (R8). -/
abbrev Bytes := List Byte

/-- A sparse table keyed by number, in one canonical form: keys strictly rising, no entry equal to the
value an unlisted key reads as (`Tab.wf` in Machine/Ops.lean). -/
abbrev Tab (α : Type) := List (Nat × α)

end Sys2Proof
end

