-- ==== Sys2Proof/Syntax.lean ====
section
/-! DEFINITION. The commands of the block: one constructor of `Instr` per row of spec/opcode_table.json, in the
table's order, with the data that reaches the device from outside as operands (a register offset, a value, the bytes a
host memory read returns, a received frame's body, a camera's pixels). Instances are numbered as in Table 0.5. -/

namespace Sys2Proof

abbrev Bar := Fin 8
abbrev Head := Fin 128
abbrev Axis := Fin 24
abbrev LoopNo := Fin 32
abbrev CamNo := Fin 4
abbrev LaneNo := Fin 174
abbrev WebNo := Fin 2
abbrev CmpNo := Fin 16
abbrev RingNo := Fin 64

/-- Where an object access comes from: the session (0 for none) and the transport (R324: 0 and 1 the Ethernet
ports, 2 the mailbox rings, 3 the BAR2 window). -/
structure Ctx where
  sess : Nat
  transport : Nat
  deriving DecidableEq, Repr

/-- What a register write names: a BAR0 or BAR2 offset, or an object. -/
inductive WriteTarget
  | bar0 (off size value : Nat)
  | bar2 (off : Nat) (data : Bytes)
  | object (ctx : Ctx) (idx sub ty : Nat) (data : Bytes)
  deriving DecidableEq, Repr

/-- One item of a TOA request (Table 14.5). -/
structure Item where
  idx : Nat
  sub : Nat
  ty : Nat
  data : Bytes
  deriving DecidableEq, Repr

/-- One Sync exchange of a PTP slot, in 2^-16 ns (R291). -/
structure PtpMeas where
  offset : Int
  pathDelay : Int
  port : Nat
  utcOffset : Int
  deriving DecidableEq, Repr

/-- The fields of an Announce message that R290 compares, most significant first, and its sender. -/
structure Announce where
  priority1 : Nat
  clockClass : Nat
  accuracy : Nat
  variance : Nat
  priority2 : Nat
  gmId : Nat
  stepsRemoved : Nat
  port : Nat
  utcOffset : Int
  deriving DecidableEq, Repr

/-- What discovery finds (R230, R231): the links the camera declares, whether every link reaches CXP-12, and whether the
master link is on CAM_LINK_FIRST. -/
structure Discovery where
  links : Nat
  speedOk : Bool
  masterOk : Bool
  deriving DecidableEq, Repr

/-- What a twin-link frame carries (R423, Table 21.3). The spec names the items and gives them no byte layout, so they
are carried as data. -/
inductive TwinItem
  | heartbeat (epoch : Nat)
  | ack (seq : Nat)
  | fault (cls : Nat)
  | handOver
  | state (st : Nat) (deviceId : Nat)
  | descriptor (q cons : Nat) (d : Bytes)
  | chunk (b : Nat) (isBase : Bool) (id idx : Nat) (last : Bool) (data : Bytes)
  | posted (q ptr : Nat)
  | objWrite (key : Nat) (data : Bytes)
  | commitSet (number cls : Nat) (items : List (Nat × Bytes))
  | tookEffect (number jobId : Nat)
  | marker (b lseq job line : Nat)
  | predictor (track : Bool) (p v a : Rat) (tLast : Nat) (hwm : Int)
  | axis (x : Nat) (p v a : Rat)
  | loopState (l mode : Nat) (xh iota u : List Nat)
  | cmpEntry (k entry : Nat)
  | verdict (job status : Nat) (reg regAcross : List Int)
  | band (job n : Nat)
  | pair (key state probe pages : Nat)
  | nozStatus (h n st job loss : Nat)
  | dead (h n old job loss : Nat)
  | camFrame (c job frame epoch : Nat)
  | summary (job b blanked : Nat) (errs : List (Nat × Nat × Nat × Nat))
  | snapObj (key : Nat) (v : Int)
  | snapByte (addr : Nat) (v : Byte)
  | snapCal (data : Bytes)
  | snapRegs (psnNext : Nat) (lseq : List Nat)
  | snapBase (id lines mask cls retCls tag st : Nat) (chunks : List Nat)
  | snapJob (slot id psn cls lines gap mask baseId tag st marks : Nat) (mark onWeb : Bool) (chunks : List Nat)
  | snapBar (job b departed passed fired st : Nat) (start : Option Int)
  | snapshotEnd (jobs : List Nat)
  | timeErr (ps : Int)
  deriving DecidableEq, Repr

/-- The commands (rows of spec/opcode_table.json). -/
inductive Instr
  | registerWrite (t : WriteTarget)
  | counterClear (t : WriteTarget)
  | hqDoorbell (q : RingNo) (d : BitVec 32)
  | ringEnable (q : RingNo) (cfg : BitVec 32)
  | ringDisable (q : RingNo) (cfg : BitVec 32)
  | descriptorFetch (q : RingNo) (data : Option Bytes)
  | pageJobConsume (cls : Fin 8)
  | psnWait
  | baseRegisterConsume (cls : Fin 8)
  | baseRetireConsume (cls : Fin 8)
  | chunkConsume (b : Bar) (data : Option Bytes)
  | chunkLanded (b : Bar) (isBase : Bool) (id : Nat)
  | chunkOrphan (b : Bar) (isBase : Bool) (id : Nat)
  | jobAccept (jobId : Nat)
  | baseRegistered (baseId : Nat)
  | baseFreed (baseId : Nat)
  | jobStaged (b : Bar) (jobId : Nat)
  | lineBoundary (b : Bar)
  | jobRetire (jobId : Nat)
  | recordPost (q : RingNo)
  | ringIrqTimer (q : RingNo)
  | hqAbort (jobId : BitVec 32)
  | jobAbort (ctx : Ctx) (jobId : BitVec 32)
  | psnNext (ctx : Ctx) (v : BitVec 32)
  | pcieLinkDown
  | bar0BadAccess (isRead : Bool) (off size : Nat)
  | bar4Read (off len : Nat)
  | bar4Write (off len : Nat)
  | fireDecodeLine (b : Bar)
  | checkDecodeLine
  | checkLate
  | encEdge (w : WebNo) (a b : Bool)
  | encIllegal (w : WebNo) (a b : Bool)
  | encIndex (w : WebNo)
  | encStandstill (w : WebNo)
  | encEnable (ctx : Ctx) (w : WebNo) (v : BitVec 8)
  | webSel (ctx : Ctx) (v : BitVec 8)
  | webSpanEnd
  | tofMark (t : Fin 8) (rising : Bool)
  | tofMissing (t : Fin 8)
  | cmpArm (ctx : Ctx) (k : CmpNo) (v : BitVec 8)
  | cmpTarget (k : CmpNo)
  | cmpPulseEnd (k : CmpNo)
  | axeEdge (x : Axis) (a b : Bool)
  | axeIndex (x : Axis)
  | axeSsiSample (x : Axis) (busy : Bool) (bits : List Bool)
  | ffyResume (ctx : Ctx) (v : BitVec 8)
  | lineDepart (b : Bar)
  | wearFlush (h : Head) (n : Fin 8192)
  | wear (ctx : Ctx) (h : Head) (data : Bytes)
  | wearRestore (ctx : Ctx) (h : Head) (data : Bytes)
  | laneSlip (ctx : Ctx) (n : LaneNo) (v : BitVec 8)
  | blockLock (h : Head)
  | blockLockLoss (h : Head)
  | trainFrameSend (h : Head)
  | trainFrameReceive (h : Head) (body : Bytes)
  | trainFail (h : Head)
  | telemetryReceive (h : Head) (body : Bytes)
  | telemetryTimeout (h : Head)
  | enumReceive (h : Head) (body : Bytes)
  | controlResend (h : Head)
  | echoReceive (h : Head) (body : Bytes) (rttPs : Int)
  | timeFrameSend (h : Head)
  | authSend (h : Head)
  | hlEnable (ctx : Ctx) (h : Head) (v : BitVec 8)
  | headAuthReceive (h : Head) (port : Fin 2) (body : Bytes)
  | headPortLapse (h : Head) (port : Fin 2)
  | headTimeReceive (h : Head) (port : Fin 2) (body : Bytes) (errPs : Int)
  | headLineDataReceive (h : Head) (port : Fin 2) (body : Bytes)
  | headFireTimeReceive (h : Head) (port : Fin 2) (body : Bytes)
  | headTableReceive (h : Head) (port : Fin 2) (body : Bytes)
  | headLineCommit (h : Head) (lseq : Nat)
  | headRowFire (h : Head) (lseq : Nat) (row : Fin 2)
  | headHotEnter (h : Head) (temp : Int)
  | headEnumSend (h : Head) (port : Fin 2)
  | headTelemetrySend (h : Head) (port : Fin 2)
  | assign (h : Head) (port : Fin 2) (cseq arg0 arg1 : Nat)
  | hotLimit (h : Head) (port : Fin 2) (cseq arg0 arg1 : Nat)
  | hotClear (h : Head) (port : Fin 2) (cseq arg0 arg1 : Nat)
  | bankSwitch (h : Head) (port : Fin 2) (cseq arg0 arg1 : Nat)
  | service (h : Head) (port : Fin 2) (cseq arg0 arg1 : Nat)
  | release (h : Head) (port : Fin 2) (cseq arg0 arg1 : Nat)
  | timeAcquire (h : Head) (port : Fin 2) (cseq arg0 arg1 : Nat)
  | slots (h : Head) (port : Fin 2) (cseq arg0 arg1 : Nat)
  | laneRetrain (ctx : Ctx) (n : LaneNo) (v : BitVec 8)
  | laneRetrainIdle (n : LaneNo)
  | laneEyeStart (ctx : Ctx) (n : LaneNo) (v : BitVec 8)
  | eyeScanEnd (n : LaneNo) (complete : Bool) (disagreements : List Nat)
  | laneMode (ctx : Ctx) (n : LaneNo) (v : BitVec 8)
  | laneLoop (ctx : Ctx) (n : LaneNo) (v : BitVec 8)
  | laneInject (ctx : Ctx) (n : LaneNo) (v : BitVec 8)
  | prbsLockLoss (n : LaneNo) (bits errors : Nat)
  | camEnable (ctx : Ctx) (c : CamNo) (v : BitVec 8)
  | camDiscoveryDone (c : CamNo) (d : Discovery)
  | camAcquire (ctx : Ctx) (c : CamNo) (v : BitVec 8)
  | camTriggerSend (c : CamNo)
  | camLineReceive (c : CamNo) (link : Fin 4) (pixels : Bytes) (crcOk : Bool)
  | camFrameClose (c : CamNo) (marker : Bool)
  | camTimeout (c : CamNo)
  | camLinkLockLoss (c : CamNo) (link : Fin 16)
  | camRegRead (ctx : Ctx) (c : CamNo)
  | camRegWrite (ctx : Ctx) (c : CamNo)
  | camSettingsWrite (ctx : Ctx) (c : CamNo)
  | camRegAck (c : CamNo) (tag : Nat) (ok : Bool) (data : Bytes)
  | camRegRetry (c : CamNo)
  | camEvent (c : CamNo) (event : Nat) (data : Bytes)
  | bandComplete
  | verdictPost
  | nimStreamBlock (stream : Fin 4)
  | nimEvidFree (ctx : Ctx) (v : BitVec 32)
  | calUnitDue (cls inst : Nat)
  | calRun (ctx : Ctx) (v : BitVec 32)
  | calRunComplete (cls inst : Nat) (result : List Int)
  | calRetry (cls inst : Nat)
  | calAccept (ctx : Ctx) (v : BitVec 32)
  | calReject (ctx : Ctx) (v : BitVec 32)
  | calProposalExpire (seq : Nat)
  | calRestore (ctx : Ctx) (data : Bytes)
  | timeAnchor
  | ptpAnnounce (d : Fin 2) (m : Announce)
  | ptpMeasurement (d : Fin 2) (m : PtpMeas)
  | ptpLoss (d : Fin 2)
  | timeStep (ctx : Ctx) (data : Bytes)
  | timeStepDeferred
  | timePref (ctx : Ctx) (v : BitVec 8)
  | ppsInEdge
  | ppsInLoss
  | ppsOutStart (k : Fin 2)
  | ppsOutEnd (k : Fin 2)
  | toaFrameReceive (transport : Fin 4) (frame : Bytes)
  | openSession (transport : Fin 4) (seq : BitVec 32) (nonce : Bytes)
  | close (ctx : Ctx)
  | authBegin (ctx : Ctx) (slot : Nat) (nonce : Bytes)
  | authFinish (ctx : Ctx) (proof : Bytes)
  | ping (ctx : Ctx)
  | read (ctx : Ctx) (items : List Item)
  | write (ctx : Ctx) (items : List Item)
  | readShadow (ctx : Ctx) (items : List Item)
  | blockRead (ctx : Ctx) (items : List Item)
  | blockWrite (ctx : Ctx) (items : List Item)
  | commit (ctx : Ctx)
  | discard (ctx : Ctx)
  | mailboxDescriptor (q : Fin 2) (request : Option Bytes)
  | toaMbDoorbell (len : BitVec 32)
  | sessionIdleClose (sess : Nat)
  | supervisorLapse
  | commitTakeEffect (number : Nat)
  | commitCancel (ctx : Ctx) (number : BitVec 32)
  | enPortConfig (ctx : Ctx) (p : Fin 2) (sub : Fin 256) (ty : Nat) (data : Bytes)
  | axSample (x : Axis)
  | axTarget (ctx : Ctx) (x : Axis) (v : BitVec 64)
  | axStop (ctx : Ctx) (x : Axis) (v : BitVec 8)
  | axEnable (ctx : Ctx) (x : Axis) (v : BitVec 8)
  | axEnDelayExpire (x : Axis)
  | axLimitActive (x : Axis) (positive : Bool)
  | axFollowingError (x : Axis)
  | axHome (ctx : Ctx) (x : Axis) (v : BitVec 8)
  | axIdleCurrent (x : Axis)
  | axCamEngage (ctx : Ctx) (x : Axis) (v : BitVec 8)
  | camTable (ctx : Ctx) (k : Fin 8) (data : Bytes)
  | axMode (ctx : Ctx) (x : Axis) (v : BitVec 8)
  | axContact (x : Axis)
  | loopEval (l : LoopNo)
  | lpEnable (ctx : Ctx) (l : LoopNo) (v : BitVec 8)
  | lpMode (ctx : Ctx) (l : LoopNo) (v : BitVec 8)
  | loopFe (l : LoopNo)
  | lpTrArm (ctx : Ctx) (l : LoopNo) (v : BitVec 8)
  | lpTrForce (ctx : Ctx) (l : LoopNo) (v : BitVec 8)
  | adcConversion (ch : Fin 16) (raw : BitVec 16)
  | adcEnable (ctx : Ctx) (rate : Bool) (v : BitVec 32)
  | pwmPeriod (i : Fin 32)
  | pwmDuty (ctx : Ctx) (valve : Bool) (i : Fin 32) (v : BitVec 32)
  | gpioDir (ctx : Ctx) (v : BitVec 32)
  | gpioInput (pin : Fin 32) (level : Bool)
  | dramRead (port : Fin 8) (addr age : Nat) (errors : List (Nat × Nat))
  | dramWrite (port : Fin 8) (addr : Nat) (data : Bytes) (age : Nat) (errors : List (Nat × Nat))
  | dramRefresh (s : Fin 8) (rank : Fin 2) (canIssue : Bool)
  | dramMr4Read (s : Fin 8) (rank : Fin 2) (temp : Int)
  | dramSweepStart (s : Fin 8) (ctrl : BitVec 64)
  | dramSweepComplete (results : List (Nat × Nat))
  | dramDrift (s : Fin 8) (rank : Fin 2) (taps : Int)
  | dramScrub (errors : List (Nat × Nat))
  | dramRate (ctx : Ctx) (v : BitVec 16)
  | dramRegionResize (ctx : Ctx) (idx sub : Nat) (v : BitVec 16)
  | dramRowClose (bank : Nat)
  | dramPowerDown (s : Fin 8) (rank : Fin 2)
  | dramRestoreWaitEnd
  | compressBlocks (q : Fin 4) (source : Option Bytes)
  | compressStream (q : Fin 4) (source : Option Bytes)
  | decompress (q : Fin 4) (source : Option Bytes)
  | stratusJobComplete (q : Fin 4)
  | strAbort (ctx : Ctx) (tag : BitVec 32)
  | faultLatch (code inst : Nat) (detail : Nat)
  | fltClear (ctx : Ctx) (v : BitVec 32)
  | fltFecClear (ctx : Ctx) (v : BitVec 8)
  | alertPulseEnd
  | diagInject (ctx : Ctx) (v : BitVec 32)
  | chainLow
  | safeReadbackMismatch (out : Nat)
  | webLoss (w : WebNo)
  | pairSilent (pair : Fin 2)
  | presWinExceeded (ch : Fin 16) (v : BitVec 16)
  | supplyOutOfWindow (supply : Fin 10) (mv : Int)
  | twinElection (linkTrained : Bool)
  | twinElectTimeout
  | twinPresFall
  | twinEnable (ctx : Ctx) (v : BitVec 8)
  | twinHandOver (ctx : Ctx)
  | twinForceActive (ctx : Ctx)
  | twinFrameReceive (seq : Nat) (crcOk : Bool) (item : TwinItem)
  | twinRetransmit
  | twinHeartbeatSend
  | twinSilence
  | twinPlannedStop
  | twinSnapshotComplete
  | twinStandbyReady
  | twinLaneFail (lane : Fin 12)
  | journalFragmentPost (ring : Fin 4)
  | secSvnCommit (ctx : Ctx) (v : BitVec 8)
  | secLifecycle (ctx : Ctx) (v : BitVec 8)
  | secKeyProvision (ctx : Ctx) (data : Bytes)
  | secMakerKey (ctx : Ctx) (data : Bytes)
  | secDebugKey (ctx : Ctx) (data : Bytes)
  | secKeyRevoke (ctx : Ctx) (v : BitVec 8)
  | secDebugChallenge (ctx : Ctx)
  | secDebugResponse (ctx : Ctx) (data : Bytes)
  | secDebugState (ctx : Ctx) (v : BitVec 8)
  | pwrTarget (ctx : Ctx) (v : BitVec 8)
  | pwrTransitionStart
  | domainStopTimeout (d : Fin 12)
  | avsStep
  | pmbAlert
  | cicadaWake (adc : List Nat) (gpio : BitVec 32)
  | spitLine
  | spitTimeout
  | cicWakePin
  | reset (source : Fin 16)
  | pairReset (pair : Fin 2)
  | rootPllLock
  | pllLockRetry (refclk : Bool)
  | pllLockLoss
  | rstRequest (ctx : Ctx)
  | rstRequestForce (ctx : Ctx)
  | bootComplete
  | pcieLinkUp
  | enLinkChange (p : Fin 2) (up : Bool)
  | ethernetFrameReceive (p : Fin 2) (frame : Bytes) (ok : Bool)
  | laneSignalDetect (h : Head)
  | prbsCheckerLock (n : LaneNo)
  | chainHigh
  | twinPartnerLost
  | dramInitComplete (ok : Bool) (gib : Nat)
  | camHeartbeatReceive (c : CamNo)
  deriving DecidableEq, Repr

end Sys2Proof
end

