-- ==== Sys2Proof/WellFormed.lean ====
section
/-! DEFINITION. Well-formed commands: operands that fit the fields the spec gives them. A command that is not
well-formed stands for nothing that can reach the device. -/

namespace Sys2Proof

def Ctx.wf (c : Ctx) : Bool := decide (c.sess < 2 ^ 32) && decide (c.transport < 4)

/-- An access of the sizes R34 speaks of, with a value of that size. -/
def WriteTarget.wf : WriteTarget → Bool
  | .bar0 _ size value => (size == 1 || size == 2 || size == 4 || size == 8) && decide (value < 2 ^ (8 * size))
  | .bar2 _ data => decide (data.length ≤ 4096)
  | .object c idx sub ty _ => c.wf && decide (idx < 2 ^ 16) && decide (sub < 256) && decide (ty < 256)

/-- An item of Table 14.5: IDX 16 bits, SUB 8, TYPE 8. -/
def Item.wf (i : Item) : Bool := decide (i.idx < 2 ^ 16) && decide (i.sub < 256) && decide (i.ty < 256)

def Announce.wf (m : Announce) : Bool :=
  decide (m.priority1 < 256) && decide (m.clockClass < 256) && decide (m.accuracy < 256) &&
  decide (m.variance < 2 ^ 16) && decide (m.priority2 < 256) && decide (m.gmId < 2 ^ 64) &&
  decide (m.stepsRemoved < 2 ^ 16) && decide (m.port < 2)

/-- A CONTROL frame's CSEQ, ARG0 and ARG1 (Table 8.5). -/
def ctlWf (cseq arg0 arg1 : Nat) : Bool := decide (cseq < 2 ^ 16) && decide (arg0 < 2 ^ 32) && decide (arg1 < 2 ^ 64)

/-- Whether a command is well-formed. -/
def Instr.wf : Instr → Bool
  | .registerWrite t => t.wf
  | .counterClear t => t.wf
  | .descriptorFetch _ d => match d with | some b => b.length == 64 | none => true
  | .bar0BadAccess _ _ size => decide (0 < size)
  | .ptpAnnounce _ m => m.wf
  | .ptpMeasurement _ m => decide (m.port < 2)
  | .ptpLoss _ => true
  | .assign _ _ q a b => ctlWf q a b
  | .hotLimit _ _ q a b => ctlWf q a b
  | .hotClear _ _ q a b => ctlWf q a b
  | .bankSwitch _ _ q a b => ctlWf q a b
  | .service _ _ q a b => ctlWf q a b
  | .release _ _ q a b => ctlWf q a b
  | .timeAcquire _ _ q a b => ctlWf q a b
  | .slots _ _ q a b => ctlWf q a b
  | .openSession _ _ nonce => nonce.length == 16
  | .read c items => c.wf && items.all Item.wf
  | .write c items => c.wf && items.all Item.wf
  | .readShadow c items => c.wf && items.all Item.wf
  | .blockRead c items => c.wf && items.all Item.wf
  | .blockWrite c items => c.wf && items.all Item.wf
  | .enPortConfig c _ _ ty _ => c.wf && decide (ty < 256)
  | .faultLatch code inst _ => decide (code < 2 ^ 16) && decide (inst < 2 ^ 16)
  | .cicadaWake adc _ => adc.length == 16
  | .dramWrite _ addr data _ _ => decide (0 < data.length) && decide (addr % 256 + data.length ≤ 256)
  | .toaFrameReceive _ f => decide (f.length ≤ 65536)
  | _ => true

end Sys2Proof
end

