-- ==== Sys2Proof/Decode.lean ====
section
/-! DEFINITION. Commands as words. Every row of spec/opcode_table.json stands without bits: a command reaches the
block as a register write, a received frame or an event, not as an instruction word, so no word spells one. -/

namespace Sys2Proof

/-- The command a word spells by the table's bits: none, since no row has bits. -/
def decodeTableWord (_nbits _w : Nat) : Option Instr := none

end Sys2Proof
end

