-- ==== Sys2Proof/Config.lean ====
section
/-! DEFINITION. What one device fixes and the spec leaves open: fuse and boot-image contents, secrets drawn by the
device, choices that published algorithms leave to it, and the free values. Every one is an opaque
constant without a body, so no proof can see a number in it. -/

namespace Sys2Proof.Config

/-! Fuses and boot image (R328, R330, R477, R479). -/
opaque deviceId : Int
opaque fwVersion : Int
opaque fwCounterFuse : Int
opaque enMac : Nat → Int
/-- Whether the boot image holds a network block for a port (R330). -/
opaque enBlock : Nat → Bool
opaque enEnable : Nat → Int
opaque enMode : Nat → Int
opaque ip4Addr : Nat → Int
opaque ip4Prefix : Nat → Int
opaque ip4Gateway : Nat → Int
opaque ip6Prefix : Nat → Int
opaque ip6Byte : Nat → Nat → Nat → Byte
opaque lifecycleFuse : Int
opaque imageSvn : Int
opaque bootSlot : Int
opaque keyStateFuse : Int
opaque certLen : Nat
opaque certByte : Nat → Byte
opaque imageDigestByte : Nat → Byte
/-- Byte i of supervisor key slot k as fused before this run (R314, R477). -/
opaque superKeyByte : Nat → Nat → Byte
/-- The maker-key and debug-key digests as fused before this run; none where not yet set (R451). -/
opaque makerKeySet : Bool
opaque debugKeySet : Bool
opaque debugKeyDigestByte : Nat → Byte
/-- The twin role strap of the card (R421). -/
opaque twinRole : Nat

/-- The boot ROM's version, as the BOOT record carries it (Table 22.1). -/
opaque romVersion : Nat
/-- Whether the boot image holds the DRAM block of Table 24.5, and the DRAM_RATE in it. -/
opaque dramBlock : Bool
opaque dramRate : Int

/-- Whether each DRAM subchannel carries two ranks (R372, R373). -/
opaque dramTwoRanks : Bool
/-- Whether the memory devices are x16, and the bank and row of a device address (R372, R387): the spec gives no map. -/
opaque dramX16 : Bool
opaque dramBank : Nat → Nat
opaque dramRow : Nat → Nat

/-- Fault codes of the ADVISORY fault of a BAR4 write (R35) and of the SERVICE fault of a refused DRAM (R372): the spec
names no event and so no code for them. -/
opaque bar4WriteCode : Nat
opaque dramRefusedCode : Nat

/-! Free values: a fresh value each time, drawn by applying the constant to a counter of the state. -/
/-- A fresh byte of a nonce (R314, R452, JNL_BOOT_NONCE). -/
opaque freeByte : Nat → Nat → Byte
/-- A fresh number where the spec states no value. -/
opaque freeNat : Nat → Nat
opaque freeInt : Nat → Int

/-! What published algorithms leave to the device. -/
/-- ECDSA P-384 signature (96 bytes) of a digest by the device key, which the spec does not give, at the n-th signing (R443). -/
opaque ecdsaSign : Nat → Bytes → Bytes

/-- The blocks of a Zstandard frame (RFC 8878) the encoder writes for some input: level, window log2 (0 for a
single-segment frame), and the input; and for one input appended to an open frame: level, window log2, what the frame
holds already, the input, and whether the block ends there or the frame does (R391, R395). -/
opaque zstdBlocks : Nat → Nat → Bytes → Bytes
opaque zstdAppend : Nat → Nat → Bytes → Bytes → Bool → Bool → Bytes

/-- Duration of a trigger packet on the CoaXPress uplink in ns, which the cited standard fixes (R233). -/
opaque trigPacketNs : Nat

/-! A head module's own data (Table 8.12): byte i of head h's ENUM body outside the fields R208 fixes, and its line slots
above the 72 of R192. -/
opaque headEnumByte : Nat → Nat → Byte
opaque headExtraSlots : Nat → Nat

end Sys2Proof.Config
end

