-- ==== Sys2Proof/Machine/Objects.lean ====
section
/-! DEFINITION. The object tables of the spec (the Index / Sub / Name / Type / Access / Default / Range
rows of chapters 02 to 24), one `ObjRow` per row, grouped by the layouts of R325 to R327 and Tables 15.7 to 15.11:
a group is a base index, the distance to the next instance's index and how many instances there are (Table 0.5).
A row's `dflt` gives its Default for instance `i`; `rng` its Range where that is a fixed range (`any` where a rule
of the chapter, not the Range column, bounds the value). -/

namespace Sys2Proof.Obj

/-- Access rights of Table 14.2. -/
inductive Acc
  | ro | rw | wo | rwb | rws | rwbs
  deriving DecidableEq, Repr

/-- Fixed ranges of the Range columns. Real bounds are for F32 objects, integers for all others. -/
inductive Rng
  | any
  | int (lo hi : Int)
  | zeroOr (lo hi : Int)
  | orFF (hi : Int)
  | mult (m lo hi : Int)
  | list (spans : List (Int × Int))
  | real (lo hi : Rat)
  | posReal
  | pin
  deriving DecidableEq, Repr

/-- One row of an object table. `ovf` is where R27 keeps the OVF bit of a saturating counter that has one of its
own: the distance from the row's index to the status object's index, its subindex and the bit. -/
structure ObjRow where
  sub  : Nat
  ty   : Nat
  acc  : Acc
  dflt : Nat → Int
  rng  : Rng := .any
  ctr  : Bool := false
  cls  : Nat := 0
  len  : Nat := 0
  esz  : Nat := 0
  ovf  : Option (Nat × Nat × Nat) := none

/-- A group of objects that repeats for each instance. -/
structure ObjGroup where
  base   : Nat
  stride : Nat
  count  : Nat
  rows   : List ObjRow

/-- LANE_GROUP of lane n (R327's numbering): 0 HL, 1 PE, 2 CX, 3 TW, 4 EN. -/
def laneGroup (n : Nat) : Int :=
  if n < 128 then 0 else if n < 144 then 1 else if n < 160 then 2 else if n < 172 then 3 else 4

/-- LANE_RATE at reset, kb/s: the function rate of the lane's group (Table 9.1). -/
def laneRate0 (n : Nat) : Int :=
  if n < 128 then 10312500 else if n < 144 then 2500000 else if n < 160 then 12500000 else if n < 172 then 32000000 else 10312500

/-- LANE_TX_TAPS at reset: the preset of the lane's group (Table 9.2). -/
def laneTaps0 (n : Nat) : Int := if (128 ≤ n ∧ n < 144) ∨ (160 ≤ n ∧ n < 172) then 0x3000 else 0x2000

/-! Keys. An object is named by `index * 256 + subindex` (R10). -/

def VENDOR : Nat := 0x100001
def PART : Nat := 0x100002
def ORDER_CODE : Nat := 0x100003
def SILICON_REV : Nat := 0x100004
def DEVICE_ID : Nat := 0x100005
def BARS : Nat := 0x100006
def HEADS_PER_BAR : Nat := 0x100007
def HEAD_LANES : Nat := 0x100008
def CAMERA_PORTS : Nat := 0x100009
def FW_VERSION : Nat := 0x10000a
def FW_COUNTER : Nat := 0x10000b
def MAP_VERSION : Nat := 0x10000c
def DRAM_GIB : Nat := 0x10000d
def DEVICE_NAME : Nat := 0x10000e
def CAMERAS : Nat := 0x10000f
def TOA_UDP_PORT : Nat := 0x110001
def SESSION_LEASE_S : Nat := 0x110002
def SESSION_IDLE_S : Nat := 0x110003
def TOA_MAX_FRAME : Nat := 0x110004
def SESSION_COUNT : Nat := 0x110005
def SUPERVISOR_SESSION : Nat := 0x110006
def TOA_CRC_ERR_CNT : Nat := 0x110007
def TOA_MAC_ERR_CNT : Nat := 0x110008
def TOA_STALE_CNT : Nat := 0x110009
def TOA_DUP_CNT : Nat := 0x11000a
def TOA_STATUS : Nat := 0x11000b
def EN_MAC (i : Nat) : Nat := 0x111001 + 0x100 * i
def EN_ENABLE (i : Nat) : Nat := 0x111002 + 0x100 * i
def EN_MODE (i : Nat) : Nat := 0x111003 + 0x100 * i
def IP4_ADDR (i : Nat) : Nat := 0x111004 + 0x100 * i
def IP4_PREFIX (i : Nat) : Nat := 0x111005 + 0x100 * i
def IP4_GATEWAY (i : Nat) : Nat := 0x111006 + 0x100 * i
def IP6_ADDR (i : Nat) : Nat := 0x111007 + 0x100 * i
def IP6_PREFIX (i : Nat) : Nat := 0x111008 + 0x100 * i
def IP6_GATEWAY (i : Nat) : Nat := 0x111009 + 0x100 * i
def EN_LINK (i : Nat) : Nat := 0x11100a + 0x100 * i
def EN_RX_FRAMES (i : Nat) : Nat := 0x11100b + 0x100 * i
def EN_RX_ERR (i : Nat) : Nat := 0x11100c + 0x100 * i
def EN_STATUS (i : Nat) : Nat := 0x11100d + 0x100 * i
def JNL_STORE_MIB : Nat := 0x180001
def JNL_HIGH_MARK : Nat := 0x180002
def JNL_RING_MASK : Nat := 0x180003
def JNL_BOOT_NONCE : Nat := 0x180004
def JNL_SEQ_NEXT : Nat := 0x180005
def JNL_FILL : Nat := 0x180006
def JNL_LOST_CNT : Nat := 0x180007
def JNL_STATUS : Nat := 0x180008
def SEC_LIFECYCLE : Nat := 0x190001
def SEC_DEVICE_CERT : Nat := 0x190002
def SEC_IMAGE_DIGEST : Nat := 0x190003
def SEC_IMAGE_SVN : Nat := 0x190004
def SEC_BOOT_SLOT : Nat := 0x190005
def SEC_SVN_COMMIT : Nat := 0x190006
def SEC_KEY_PROVISION : Nat := 0x190007
def SEC_KEY_STATE : Nat := 0x190008
def SEC_KEY_REVOKE : Nat := 0x190009
def SEC_MAKER_KEY : Nat := 0x19000a
def SEC_DEBUG_KEY : Nat := 0x19000b
def SEC_DEBUG_CHALLENGE : Nat := 0x19000c
def SEC_DEBUG_RESPONSE : Nat := 0x19000d
def SEC_DEBUG_STATE : Nat := 0x19000e
def ENGINE_STATE : Nat := 0x200001
def BARS_IDLE : Nat := 0x200002
def BARS_STAGED : Nat := 0x200003
def JOBS_IN_FLIGHT : Nat := 0x200004
def JOB_ABORT : Nat := 0x200008
def PSN_NEXT : Nat := 0x200009
def COMMIT_PENDING : Nat := 0x20000a
def COMMIT_TABLE : Nat := 0x20000b
def COMMIT_HISTORY : Nat := 0x20000c
def COMMIT_CANCEL : Nat := 0x20000d
def COMMIT_LAST : Nat := 0x20000e
def OVF_LIST : Nat := 0x20000f
def FFY_LINE_PITCH : Nat := 0x204001
def FFY_LPI_MODE : Nat := 0x204002
def FFY_ALPHA : Nat := 0x204003
def FFY_BETA : Nat := 0x204004
def FFY_GAMMA : Nat := 0x204005
def FFY_ACCEL_MAX : Nat := 0x204006
def FFY_LINE_LEAD : Nat := 0x204007
def FFY_LINK_GUARD : Nat := 0x204008
def FFY_RESEND_NS : Nat := 0x204009
def FFY_RESEND_MAX : Nat := 0x20400a
def FFY_ROTATE : Nat := 0x20400b
def FFY_SLOT_NS : Nat := 0x20400c
def FFY_HYST : Nat := 0x20400d
def FFY_RESUME_MODE : Nat := 0x20400e
def FFY_RESUME : Nat := 0x20400f
def FFY_STATUS : Nat := 0x204010
def FFY_HWM : Nat := 0x204011
def FFY_EST_POS : Nat := 0x204012
def FFY_EST_SPEED : Nat := 0x204013
def FFY_EST_ACCEL : Nat := 0x204014
def FFY_RESEND_CNT : Nat := 0x204015
def FFY_RESEND_CAP_CNT : Nat := 0x204016
def FFY_DIRCHG_CNT : Nat := 0x204017
def FFY_CLAMP_CNT : Nat := 0x204018
def FFY_OVERSPEED_CNT : Nat := 0x204019
def HL_TIME_PERIOD : Nat := 0x205001
def HL_DELAY_AVG : Nat := 0x205002
def HL_LEASE_PMAX : Nat := 0x205003
def HL_TELE_TIMEOUT : Nat := 0x205004
def HL_TRAIN_TIMEOUT : Nat := 0x205005
def CAL_TEMP_DELTA : Nat := 0x206001
def CAL_RETRY_S : Nat := 0x206002
def CAL_PHASE_AGREE : Nat := 0x206003
def CAL_REG_REF : Nat := 0x206004
def CAL_REG_AGREE : Nat := 0x206005
def CAL_REG_DEAD : Nat := 0x206006
def CAL_REG_STEP_MAX : Nat := 0x206007
def CAL_HEAD_PAGES : Nat := 0x206008
def CAL_APPROVE : Nat := 0x206009
def CAL_PROPOSAL_S : Nat := 0x20600a
def CAL_PROPOSALS : Nat := 0x20600b
def CAL_ACCEPT : Nat := 0x20600c
def CAL_REJECT : Nat := 0x20600d
def CAL_RUN : Nat := 0x20600e
def CAL_IMAGE : Nat := 0x20600f
def CAL_RESTORE : Nat := 0x206010
def CAL_RESTORE_RESULT : Nat := 0x206011
def TIME_NOW : Nat := 0x210001
def TIME_STAMP_NOW : Nat := 0x210002
def TIME_STATE : Nat := 0x210003
def TIME_SOURCE : Nat := 0x210004
def TIME_PREF : Nat := 0x210005
def TIME_RATE : Nat := 0x210006
def TIME_RATE_MAX : Nat := 0x210007
def TIME_SLEW_MAX : Nat := 0x210008
def TIME_RATE_SLEW : Nat := 0x210009
def TIME_KP : Nat := 0x21000a
def TIME_KI : Nat := 0x21000b
def TIME_STEP_MIN : Nat := 0x21000c
def TIME_STEP : Nat := 0x21000d
def TIME_HOLD_S : Nat := 0x21000e
def TIME_DOMAIN_DIFF : Nat := 0x21000f
def TIME_UTC_OFFSET : Nat := 0x210010
def TIME_LAST_ANCHOR : Nat := 0x210011
def PTP_ENABLE (i : Nat) : Nat := 0x211001 + 0x100 * i
def PTP_DOMAIN (i : Nat) : Nat := 0x211002 + 0x100 * i
def PTP_PORTS (i : Nat) : Nat := 0x211003 + 0x100 * i
def PTP_TRANSPORT (i : Nat) : Nat := 0x211004 + 0x100 * i
def PTP_DELAY_MECH (i : Nat) : Nat := 0x211005 + 0x100 * i
def PTP_STATE (i : Nat) : Nat := 0x211006 + 0x100 * i
def PTP_OFFSET (i : Nat) : Nat := 0x211007 + 0x100 * i
def PTP_PATH_DELAY (i : Nat) : Nat := 0x211008 + 0x100 * i
def PTP_GM_ID (i : Nat) : Nat := 0x211009 + 0x100 * i
def PTP_RX_PORT (i : Nat) : Nat := 0x21100a + 0x100 * i
def PTP_LOSS_MS (i : Nat) : Nat := 0x21100b + 0x100 * i
def PTP_LOCK_NS (i : Nat) : Nat := 0x21100c + 0x100 * i
def PTP_ASYM (i : Nat) : Nat := 0x21100d + 0x100 * i
def PTP_OUTLIER_CNT (i : Nat) : Nat := 0x21100e + 0x100 * i
def PTP_LOSS_CNT (i : Nat) : Nat := 0x21100f + 0x100 * i
def PTP_STATUS (i : Nat) : Nat := 0x211010 + 0x100 * i
def PPS_IN_ENABLE : Nat := 0x212001
def PPS_IN_SOURCE : Nat := 0x212002
def PPS_IN_DELAY : Nat := 0x212003
def PPS_IN_EDGE : Nat := 0x212004
def PPS_IN_ERR : Nat := 0x212005
def PPS_OUT_MODE (i : Nat) : Nat := 0x213001 + 0x100 * i
def PPS_OUT_OFFSET (i : Nat) : Nat := 0x213002 + 0x100 * i
def PPS_OUT_WIDTH (i : Nat) : Nat := 0x213003 + 0x100 * i
def PPS_OUT_POL (i : Nat) : Nat := 0x213004 + 0x100 * i
def PWR_STATE : Nat := 0x220001
def PWR_TARGET : Nat := 0x220002
def PWR_REFUSAL : Nat := 0x220003
def PWR_DOMAINS : Nat := 0x220004
def PWR_VCORE : Nat := 0x220005
def PWR_AVS_ADDR : Nat := 0x220006
def PWR_TRANS_CNT : Nat := 0x220007
def PWR_REFUSE_CNT : Nat := 0x220008
def PWR_STATUS : Nat := 0x220009
def CIC_PERIOD_S : Nat := 0x221001
def CIC_SPIT_EVERY : Nat := 0x221002
def CIC_BAR_MASK : Nat := 0x221003
def CIC_SPIT_LINES : Nat := 0x221004
def CIC_SPIT_DOT : Nat := 0x221005
def CIC_SPIT_PERIOD_US : Nat := 0x221006
def CIC_CAP_GPIO : Nat := 0x221007
def CIC_ADC_WIN : Nat := 0x221008
def CIC_TEMP_WIN : Nat := 0x221009
def CIC_WAKE_PIN : Nat := 0x22100a
def CIC_FAIL_WAKE : Nat := 0x22100b
def CIC_WAKE_CAUSE : Nat := 0x22100c
def CIC_LAST : Nat := 0x22100d
def CIC_WAKES : Nat := 0x22100e
def CIC_SPIT_CNT : Nat := 0x22100f
def CIC_SKIP_CNT : Nat := 0x221010
def CIC_STATUS : Nat := 0x221011
def CIC_NEXT_DOMAIN : Nat := 0x221012
def CLK_STATUS : Nat := 0x230001
def CLK_LOCK_LOSS_CNT : Nat := 0x230002
def RST_SOURCE : Nat := 0x230003
def RST_COUNT : Nat := 0x230004
def RST_REQUEST : Nat := 0x230005
def BOOT_TIME : Nat := 0x230006
def BOOT_RESTORE_MS : Nat := 0x230007
def CLK_CNT_STATUS : Nat := 0x230008
def HALO_HEAD_ABS : Nat := 0x240001
def HALO_WEB_LOSS_MS : Nat := 0x240002
def HALO_PRES_WIN : Nat := 0x240003
def HALO_TJ_MAX : Nat := 0x240004
def HALO_WD_MS : Nat := 0x240005
def HALO_ALERT_US : Nat := 0x240006
def SAFE_OUT_STATE : Nat := 0x240007
def SF_ACTIVE : Nat := 0x240008
def BAR_ENABLE (i : Nat) : Nat := 0x300001 + 0x10000 * i
def BAR_STATE (i : Nat) : Nat := 0x300002 + 0x10000 * i
def BAR_JOB (i : Nat) : Nat := 0x300003 + 0x10000 * i
def BAR_HEADS (i : Nat) : Nat := 0x300004 + 0x10000 * i
def BAR_LINES (i : Nat) : Nat := 0x300005 + 0x10000 * i
def BAR_LABEL (i : Nat) : Nat := 0x300006 + 0x10000 * i
def BAR_STATUS (i : Nat) : Nat := 0x300007 + 0x10000 * i
def SCB_CHUNK_ERR (i : Nat) : Nat := 0x304001 + 0x10000 * i
def SCB_LATE_LINES (i : Nat) : Nat := 0x304002 + 0x10000 * i
def SCB_CHECK_LATE (i : Nat) : Nat := 0x304003 + 0x10000 * i
def SCB_DIVERGE (i : Nat) : Nat := 0x304004 + 0x10000 * i
def SCB_BASE_RESTART (i : Nat) : Nat := 0x304005 + 0x10000 * i
def SCB_LEAD (i : Nat) : Nat := 0x304006 + 0x10000 * i
def SCB_LEAD_MIN (i : Nat) : Nat := 0x304007 + 0x10000 * i
def SCB_CHECK_LAG (i : Nat) : Nat := 0x304008 + 0x10000 * i
def FFY_BAR_OFFSET (i : Nat) : Nat := 0x306001 + 0x10000 * i
def FFY_FLIGHT_NS (i : Nat) : Nat := 0x306002 + 0x10000 * i
def FFY_TOF_SEL (i : Nat) : Nat := 0x306003 + 0x10000 * i
def FFY_TOF_OFFSET (i : Nat) : Nat := 0x306004 + 0x10000 * i
def FFY_MARK_WINDOW (i : Nat) : Nat := 0x306005 + 0x10000 * i
def FFY_START_POS (i : Nat) : Nat := 0x306006 + 0x10000 * i
def FFY_MARK_SKIP_CNT (i : Nat) : Nat := 0x306007 + 0x10000 * i
def FFY_MARK_FALLBACK_CNT (i : Nat) : Nat := 0x306008 + 0x10000 * i
def FFY_LATE_START_CNT (i : Nat) : Nat := 0x306009 + 0x10000 * i
def FFY_BAR_STATUS (i : Nat) : Nat := 0x30600a + 0x10000 * i
def LCW_STITCH_MASK (i : Nat) : Nat := 0x308001 + 0x10000 * i
def LCW_SUB_TABLE (i : Nat) : Nat := 0x308002 + 0x10000 * i
def LCW_PARTNER_MAX (i : Nat) : Nat := 0x308003 + 0x10000 * i
def LCW_METHOD (i : Nat) : Nat := 0x308004 + 0x10000 * i
def LCW_SUB_LINES (i : Nat) : Nat := 0x308005 + 0x10000 * i
def LCW_LOST_DOTS (i : Nat) : Nat := 0x308006 + 0x10000 * i
def LCW_PROBE_MAX (i : Nat) : Nat := 0x308007 + 0x10000 * i
def LCW_BOTH_LOSS (i : Nat) : Nat := 0x308008 + 0x10000 * i
def LCW_SUSPECT_PAGES (i : Nat) : Nat := 0x308009 + 0x10000 * i
def LCW_STATUS (i : Nat) : Nat := 0x30800a + 0x10000 * i
def NIM_REG_ALONG (i : Nat) : Nat := 0x30a001 + 0x10000 * i
def NIM_REG_ACROSS (i : Nat) : Nat := 0x30a002 + 0x10000 * i
def NIM_REG_TILES (i : Nat) : Nat := 0x30a003 + 0x10000 * i
def NIM_REG_JOB (i : Nat) : Nat := 0x30a004 + 0x10000 * i
def NIM_SUSPECT_CNT (i : Nat) : Nat := 0x30a005 + 0x10000 * i
def NIM_UNRESOLVED_CNT (i : Nat) : Nat := 0x30a006 + 0x10000 * i
def NIM_BAR_STATUS (i : Nat) : Nat := 0x30a007 + 0x10000 * i
def CAL_RESID_ALONG (i : Nat) : Nat := 0x30c001 + 0x10000 * i
def CAL_RESID_ACROSS (i : Nat) : Nat := 0x30c002 + 0x10000 * i
def CAL_DENS_RESID (i : Nat) : Nat := 0x30c003 + 0x10000 * i
def CAL_SETTLED_JOB (i : Nat) : Nat := 0x30c004 + 0x10000 * i
def CAL_CORR_CNT (i : Nat) : Nat := 0x30c005 + 0x10000 * i
def CAL_DISAGREE_B (i : Nat) : Nat := 0x30c006 + 0x10000 * i
def CAL_STATUS (i : Nat) : Nat := 0x30c007 + 0x10000 * i
def HL_STATE (i : Nat) : Nat := 0x400001 + 0x2000 * i
def HL_ENABLE (i : Nat) : Nat := 0x400002 + 0x2000 * i
def HL_IDENTITY (i : Nat) : Nat := 0x400003 + 0x2000 * i
def HL_REFUSE_CAUSE (i : Nat) : Nat := 0x400004 + 0x2000 * i
def HL_TEMP (i : Nat) : Nat := 0x400005 + 0x2000 * i
def HL_HEAD_STATE (i : Nat) : Nat := 0x400006 + 0x2000 * i
def FFY_ROW_OFFSET_A (i : Nat) : Nat := 0x400801 + 0x2000 * i
def FFY_ROW_OFFSET_B (i : Nat) : Nat := 0x400802 + 0x2000 * i
def FFY_HOT_LIMIT (i : Nat) : Nat := 0x400803 + 0x2000 * i
def FFY_HOT_HYST (i : Nat) : Nat := 0x400804 + 0x2000 * i
def FFY_HOT_STATE (i : Nat) : Nat := 0x400805 + 0x2000 * i
def FFY_HOT_CNT (i : Nat) : Nat := 0x400806 + 0x2000 * i
def LCW_SUSPECT_COUNT (i : Nat) : Nat := 0x401001 + 0x2000 * i
def LCW_DEAD_COUNT (i : Nat) : Nat := 0x401002 + 0x2000 * i
def LCW_RETIRED_COUNT (i : Nat) : Nat := 0x401003 + 0x2000 * i
def LCW_WEAR_MAX (i : Nat) : Nat := 0x401004 + 0x2000 * i
def LCW_WAVE_STAGED (i : Nat) : Nat := 0x401005 + 0x2000 * i
def HL_DELAY (i : Nat) : Nat := 0x401801 + 0x2000 * i
def HL_ASYM (i : Nat) : Nat := 0x401802 + 0x2000 * i
def HL_RTT (i : Nat) : Nat := 0x401803 + 0x2000 * i
def HL_TIME_ERR (i : Nat) : Nat := 0x401804 + 0x2000 * i
def HL_FRAME_ERR (i : Nat) : Nat := 0x401805 + 0x2000 * i
def HL_BLOCK_ERR (i : Nat) : Nat := 0x401806 + 0x2000 * i
def HL_HDR_ERR (i : Nat) : Nat := 0x401807 + 0x2000 * i
def HL_LATE (i : Nat) : Nat := 0x401808 + 0x2000 * i
def HL_BUSY (i : Nat) : Nat := 0x401809 + 0x2000 * i
def HL_HEAD_DISCARD (i : Nat) : Nat := 0x40180a + 0x2000 * i
def HL_DELAY_REJECT (i : Nat) : Nat := 0x40180b + 0x2000 * i
def HL_LINK_STATUS (i : Nat) : Nat := 0x40180c + 0x2000 * i
def CAL_T_REF_H (i : Nat) : Nat := 0x401c01 + 0x2000 * i
def CAL_RESID (i : Nat) : Nat := 0x401c02 + 0x2000 * i
def CAL_STATE_H (i : Nat) : Nat := 0x401c03 + 0x2000 * i
def CAL_DISAGREE_H (i : Nat) : Nat := 0x401c04 + 0x2000 * i
def AX_TARGET (i : Nat) : Nat := 0x500001 + 0x4000 * i
def AX_VMAX (i : Nat) : Nat := 0x500002 + 0x4000 * i
def AX_ACC (i : Nat) : Nat := 0x500003 + 0x4000 * i
def AX_DEC (i : Nat) : Nat := 0x500004 + 0x4000 * i
def AX_JERK (i : Nat) : Nat := 0x500005 + 0x4000 * i
def AX_STOP (i : Nat) : Nat := 0x500006 + 0x4000 * i
def AX_CMD_POS (i : Nat) : Nat := 0x500007 + 0x4000 * i
def AX_CMD_VEL (i : Nat) : Nat := 0x500008 + 0x4000 * i
def AX_CMD_ACC (i : Nat) : Nat := 0x500009 + 0x4000 * i
def AX_MOVE_SEQ (i : Nat) : Nat := 0x50000a + 0x4000 * i
def AX_MOVE_STATE (i : Nat) : Nat := 0x50000b + 0x4000 * i
def AX_SOFT_MIN (i : Nat) : Nat := 0x50000c + 0x4000 * i
def AX_SOFT_MAX (i : Nat) : Nat := 0x50000d + 0x4000 * i
def AX_HOME (i : Nat) : Nat := 0x50000e + 0x4000 * i
def AX_HOME_VEL (i : Nat) : Nat := 0x50000f + 0x4000 * i
def AX_HOME_SRC (i : Nat) : Nat := 0x500010 + 0x4000 * i
def AX_HOME_POS (i : Nat) : Nat := 0x500011 + 0x4000 * i
def AX_OUT_MODE (i : Nat) : Nat := 0x500801 + 0x4000 * i
def AX_STEP_W (i : Nat) : Nat := 0x500802 + 0x4000 * i
def AX_DIR_SETUP (i : Nat) : Nat := 0x500803 + 0x4000 * i
def AX_STEP_POL (i : Nat) : Nat := 0x500804 + 0x4000 * i
def AX_LOOP (i : Nat) : Nat := 0x500805 + 0x4000 * i
def AX_ENC (i : Nat) : Nat := 0x500806 + 0x4000 * i
def AX_ENC_RATIO (i : Nat) : Nat := 0x500807 + 0x4000 * i
def AX_ENABLE (i : Nat) : Nat := 0x501001 + 0x4000 * i
def AX_EN_DELAY (i : Nat) : Nat := 0x501002 + 0x4000 * i
def AX_LIM_NEG_PIN (i : Nat) : Nat := 0x501003 + 0x4000 * i
def AX_LIM_POS_PIN (i : Nat) : Nat := 0x501004 + 0x4000 * i
def AX_LIM_POL (i : Nat) : Nat := 0x501005 + 0x4000 * i
def AX_FE_LIMIT (i : Nat) : Nat := 0x501006 + 0x4000 * i
def AX_FE_MS (i : Nat) : Nat := 0x501007 + 0x4000 * i
def AX_HOME_PIN (i : Nat) : Nat := 0x501008 + 0x4000 * i
def AX_MODE (i : Nat) : Nat := 0x501801 + 0x4000 * i
def AX_OUT_LIMIT (i : Nat) : Nat := 0x501802 + 0x4000 * i
def AX_FORCE_LIMIT (i : Nat) : Nat := 0x501803 + 0x4000 * i
def AX_HO_BAND (i : Nat) : Nat := 0x501804 + 0x4000 * i
def AX_HO_SLEW (i : Nat) : Nat := 0x501805 + 0x4000 * i
def AX_CONTACT_VEL (i : Nat) : Nat := 0x501806 + 0x4000 * i
def AX_CONTACT_MS (i : Nat) : Nat := 0x501807 + 0x4000 * i
def AX_OUTPUT (i : Nat) : Nat := 0x501808 + 0x4000 * i
def AX_CUR_PWM (i : Nat) : Nat := 0x502001 + 0x4000 * i
def AX_RUN_CUR (i : Nat) : Nat := 0x502002 + 0x4000 * i
def AX_IDLE_CUR (i : Nat) : Nat := 0x502003 + 0x4000 * i
def AX_IDLE_MS (i : Nat) : Nat := 0x502004 + 0x4000 * i
def AX_CUR_WAKE_US (i : Nat) : Nat := 0x502005 + 0x4000 * i
def AX_CAM_TABLE (i : Nat) : Nat := 0x502801 + 0x4000 * i
def AX_CAM_MASTER (i : Nat) : Nat := 0x502802 + 0x4000 * i
def AX_CAM_M0 (i : Nat) : Nat := 0x502803 + 0x4000 * i
def AX_CAM_SPAN (i : Nat) : Nat := 0x502804 + 0x4000 * i
def AX_CAM_ENGAGE (i : Nat) : Nat := 0x502805 + 0x4000 * i
def AX_CAM_STATE (i : Nat) : Nat := 0x502806 + 0x4000 * i
def AX_CAM_LAG_CNT (i : Nat) : Nat := 0x502807 + 0x4000 * i
def AX_STATUS (i : Nat) : Nat := 0x503001 + 0x4000 * i
def AX_MOVES (i : Nat) : Nat := 0x503002 + 0x4000 * i
def AX_OVERSHOOT_CNT (i : Nat) : Nat := 0x503003 + 0x4000 * i
def AX_FB_POS (i : Nat) : Nat := 0x503004 + 0x4000 * i
def AX_FE_PEAK (i : Nat) : Nat := 0x503005 + 0x4000 * i
def PWM_PERIOD_NS (i : Nat) : Nat := 0x560001 + 0x100 * i
def PWM_POL (i : Nat) : Nat := 0x560002 + 0x100 * i
def PWM_DUTY (i : Nat) : Nat := 0x560003 + 0x100 * i
def PWM_OWNER (i : Nat) : Nat := 0x560004 + 0x100 * i
def VALVE_MODE (i : Nat) : Nat := 0x562001 + 0x100 * i
def VALVE_PERIOD_NS (i : Nat) : Nat := 0x562002 + 0x100 * i
def VALVE_DUTY (i : Nat) : Nat := 0x562003 + 0x100 * i
def VALVE_OWNER (i : Nat) : Nat := 0x562004 + 0x100 * i
def VALVE_LEVEL (i : Nat) : Nat := 0x562005 + 0x100 * i
def GPIO_DIR : Nat := 0x564001
def GPIO_OUT : Nat := 0x564002
def GPIO_IN : Nat := 0x564003
def GPIO_FILTER_US : Nat := 0x564004
def GPIO_USE : Nat := 0x564005
def ADC_ENABLE : Nat := 0x565001
def ADC_RATE : Nat := 0x565002
def ADC_VALUE : Nat := 0x565003
def LP_ENABLE (i : Nat) : Nat := 0x580001 + 0x4000 * i
def LP_DIMS (i : Nat) : Nat := 0x580002 + 0x4000 * i
def LP_DIV (i : Nat) : Nat := 0x580003 + 0x4000 * i
def LP_PHASE (i : Nat) : Nat := 0x580004 + 0x4000 * i
def LP_MODE (i : Nat) : Nat := 0x580005 + 0x4000 * i
def LP_STATE (i : Nat) : Nat := 0x580006 + 0x4000 * i
def LP_AXIS (i : Nat) : Nat := 0x580007 + 0x4000 * i
def LP_OBSERVER (i : Nat) : Nat := 0x580801 + 0x4000 * i
def LP_LAW_0 (i : Nat) : Nat := 0x580802 + 0x4000 * i
def LP_LAW_1 (i : Nat) : Nat := 0x580803 + 0x4000 * i
def LP_IN_SRC (i : Nat) : Nat := 0x581001 + 0x4000 * i
def LP_IN_GAIN (i : Nat) : Nat := 0x581002 + 0x4000 * i
def LP_IN_OFFS (i : Nat) : Nat := 0x581003 + 0x4000 * i
def LP_REF_SRC (i : Nat) : Nat := 0x581004 + 0x4000 * i
def LP_REF (i : Nat) : Nat := 0x581005 + 0x4000 * i
def LP_OUT_DST (i : Nat) : Nat := 0x581006 + 0x4000 * i
def LP_OUT_SCALE (i : Nat) : Nat := 0x581007 + 0x4000 * i
def LP_OUT_OFFS (i : Nat) : Nat := 0x581008 + 0x4000 * i
def LP_ULIM (i : Nat) : Nat := 0x581801 + 0x4000 * i
def LP_URATE (i : Nat) : Nat := 0x581802 + 0x4000 * i
def LP_AW_MODE (i : Nat) : Nat := 0x581803 + 0x4000 * i
def LP_FE_IN (i : Nat) : Nat := 0x582001 + 0x4000 * i
def LP_FE_REF (i : Nat) : Nat := 0x582002 + 0x4000 * i
def LP_FE_LIMIT (i : Nat) : Nat := 0x582003 + 0x4000 * i
def LP_FE_MS (i : Nat) : Nat := 0x582004 + 0x4000 * i
def LP_FE_ACTION (i : Nat) : Nat := 0x582005 + 0x4000 * i
def LP_FE_MODES (i : Nat) : Nat := 0x582006 + 0x4000 * i
def LP_FE_PEAK (i : Nat) : Nat := 0x582007 + 0x4000 * i
def LP_INVALID_MAX (i : Nat) : Nat := 0x582008 + 0x4000 * i
def LP_SAFE_OUT (i : Nat) : Nat := 0x582009 + 0x4000 * i
def LP_HO_BAND (i : Nat) : Nat := 0x582801 + 0x4000 * i
def LP_HO_SLEW (i : Nat) : Nat := 0x582802 + 0x4000 * i
def LP_HO_DIFF (i : Nat) : Nat := 0x582803 + 0x4000 * i
def LP_TR_NODES (i : Nat) : Nat := 0x583001 + 0x4000 * i
def LP_TR_CH (i : Nat) : Nat := 0x583002 + 0x4000 * i
def LP_TR_DIV (i : Nat) : Nat := 0x583003 + 0x4000 * i
def LP_TR_TRIG (i : Nat) : Nat := 0x583004 + 0x4000 * i
def LP_TR_LEVEL (i : Nat) : Nat := 0x583005 + 0x4000 * i
def LP_TR_EDGE (i : Nat) : Nat := 0x583006 + 0x4000 * i
def LP_TR_PRE (i : Nat) : Nat := 0x583007 + 0x4000 * i
def LP_TR_ARM (i : Nat) : Nat := 0x583008 + 0x4000 * i
def LP_TR_STATE (i : Nat) : Nat := 0x583009 + 0x4000 * i
def LP_TR_FORCE (i : Nat) : Nat := 0x58300a + 0x4000 * i
def LP_STATUS (i : Nat) : Nat := 0x583801 + 0x4000 * i
def LP_SAT_CNT (i : Nat) : Nat := 0x583802 + 0x4000 * i
def LP_FE_CNT (i : Nat) : Nat := 0x583803 + 0x4000 * i
def LP_TRIP_CNT (i : Nat) : Nat := 0x583804 + 0x4000 * i
def LP_INVALID_CNT (i : Nat) : Nat := 0x583805 + 0x4000 * i
def ENC_ENABLE (i : Nat) : Nat := 0x600001 + 0x8000 * i
def ENC_PATH (i : Nat) : Nat := 0x600002 + 0x8000 * i
def ENC_FILTER (i : Nat) : Nat := 0x600003 + 0x8000 * i
def ENC_REV_COUNTS (i : Nat) : Nat := 0x600004 + 0x8000 * i
def ENC_INDEX_POS (i : Nat) : Nat := 0x600005 + 0x8000 * i
def ENC_INDEX_TOL (i : Nat) : Nat := 0x600006 + 0x8000 * i
def ENC_INDEX_MODE (i : Nat) : Nat := 0x600007 + 0x8000 * i
def ENC_POS (i : Nat) : Nat := 0x600008 + 0x8000 * i
def ENC_REV_POS (i : Nat) : Nat := 0x600009 + 0x8000 * i
def ENC_SPEED (i : Nat) : Nat := 0x60000a + 0x8000 * i
def ENC_STATUS (i : Nat) : Nat := 0x60000b + 0x8000 * i
def ENC_LAST_EDGE (i : Nat) : Nat := 0x60000c + 0x8000 * i
def ENC_INDEX_DEV (i : Nat) : Nat := 0x60000d + 0x8000 * i
def ENC_INDEX_STAMP (i : Nat) : Nat := 0x60000e + 0x8000 * i
def ENC_SPEED_EDGES (i : Nat) : Nat := 0x60000f + 0x8000 * i
def ENC_STANDSTILL_MS (i : Nat) : Nat := 0x600010 + 0x8000 * i
def ENC_ILLEGAL_CNT (i : Nat) : Nat := 0x600011 + 0x8000 * i
def ENC_DOUBLE_CNT (i : Nat) : Nat := 0x600012 + 0x8000 * i
def ENC_INDEX_MISS_CNT (i : Nat) : Nat := 0x600013 + 0x8000 * i
def ENC_IRQ_VEC (i : Nat) : Nat := 0x600014 + 0x8000 * i
def ENC_IRQ_MASK (i : Nat) : Nat := 0x600015 + 0x8000 * i
def WEB_SEL : Nat := 0x602001
def WEB_POS : Nat := 0x602002
def WEB_CMP_SPAN : Nat := 0x602003
def WEB_CMP_WINDOW : Nat := 0x602004
def WEB_DISAGREE : Nat := 0x602005
def WEB_DISAGREE_CNT : Nat := 0x602006
def TOF_EDGE (i : Nat) : Nat := 0x604001 + 0x100 * i
def TOF_FILTER (i : Nat) : Nat := 0x604002 + 0x100 * i
def TOF_POS (i : Nat) : Nat := 0x604003 + 0x100 * i
def TOF_STAMP (i : Nat) : Nat := 0x604004 + 0x100 * i
def TOF_PITCH (i : Nat) : Nat := 0x604005 + 0x100 * i
def TOF_TOL (i : Nat) : Nat := 0x604006 + 0x100 * i
def TOF_MIN_GAP (i : Nat) : Nat := 0x604007 + 0x100 * i
def TOF_REJECT_CNT (i : Nat) : Nat := 0x604008 + 0x100 * i
def TOF_MISSING_CNT (i : Nat) : Nat := 0x604009 + 0x100 * i
def TOF_STATUS (i : Nat) : Nat := 0x60400a + 0x100 * i
def AXE_MODE (i : Nat) : Nat := 0x610001 + 0x1000 * i
def AXE_FILTER (i : Nat) : Nat := 0x610002 + 0x1000 * i
def AXE_POS (i : Nat) : Nat := 0x610003 + 0x1000 * i
def AXE_STATUS (i : Nat) : Nat := 0x610004 + 0x1000 * i
def AXE_SPEED (i : Nat) : Nat := 0x610005 + 0x1000 * i
def AXE_INDEX_LATCH (i : Nat) : Nat := 0x610006 + 0x1000 * i
def AXE_SSI_CLK (i : Nat) : Nat := 0x610007 + 0x1000 * i
def AXE_SSI_FRAME (i : Nat) : Nat := 0x610008 + 0x1000 * i
def AXE_SSI_DELAY (i : Nat) : Nat := 0x610009 + 0x1000 * i
def AXE_SSI_RATE (i : Nat) : Nat := 0x61000a + 0x1000 * i
def AXE_SSI_RECOVERY (i : Nat) : Nat := 0x61000b + 0x1000 * i
def AXE_SSI_JUMP (i : Nat) : Nat := 0x61000c + 0x1000 * i
def AXE_SSI_ERRMAX (i : Nat) : Nat := 0x61000d + 0x1000 * i
def AXE_ERR_CNT (i : Nat) : Nat := 0x61000e + 0x1000 * i
def CMP_SOURCE (i : Nat) : Nat := 0x630001 + 0x800 * i
def CMP_ARM (i : Nat) : Nat := 0x630002 + 0x800 * i
def CMP_START (i : Nat) : Nat := 0x630003 + 0x800 * i
def CMP_TOF (i : Nat) : Nat := 0x630004 + 0x800 * i
def CMP_WIDTH (i : Nat) : Nat := 0x630005 + 0x800 * i
def CMP_MODE (i : Nat) : Nat := 0x630006 + 0x800 * i
def CMP_LIST (i : Nat) : Nat := 0x630007 + 0x800 * i
def CMP_MISSED_CNT (i : Nat) : Nat := 0x630008 + 0x800 * i
def CMP_OVERLAP_CNT (i : Nat) : Nat := 0x630009 + 0x800 * i
def CMP_STATUS (i : Nat) : Nat := 0x63000a + 0x800 * i
def CAM_ENABLE (i : Nat) : Nat := 0x640001 + 0x4000 * i
def CAM_LINK_FIRST (i : Nat) : Nat := 0x640002 + 0x4000 * i
def CAM_LINKS (i : Nat) : Nat := 0x640003 + 0x4000 * i
def CAM_STATE (i : Nat) : Nat := 0x640004 + 0x4000 * i
def CAM_ACQUIRE (i : Nat) : Nat := 0x640005 + 0x4000 * i
def CAM_PIXEL_FORMAT (i : Nat) : Nat := 0x640006 + 0x4000 * i
def CAM_WIDTH (i : Nat) : Nat := 0x640007 + 0x4000 * i
def CAM_PX_FIRST (i : Nat) : Nat := 0x640008 + 0x4000 * i
def CAM_PX_LAST (i : Nat) : Nat := 0x640009 + 0x4000 * i
def CAM_X0 (i : Nat) : Nat := 0x64000a + 0x4000 * i
def CAM_OFFSET (i : Nat) : Nat := 0x64000b + 0x4000 * i
def CAM_LINE_PITCHES (i : Nat) : Nat := 0x64000c + 0x4000 * i
def CAM_TRIG_SRC (i : Nat) : Nat := 0x64000d + 0x4000 * i
def CAM_TRIG_LAT (i : Nat) : Nat := 0x64000e + 0x4000 * i
def CAM_SET_LATENCY (i : Nat) : Nat := 0x64000f + 0x4000 * i
def CAM_SET_EPOCH (i : Nat) : Nat := 0x640010 + 0x4000 * i
def CAM_FRAME_NO (i : Nat) : Nat := 0x640011 + 0x4000 * i
def CAM_TIMEOUT (i : Nat) : Nat := 0x640012 + 0x4000 * i
def CAM_CLOSE_US (i : Nat) : Nat := 0x640013 + 0x4000 * i
def CAM_REG_ADDR (i : Nat) : Nat := 0x640014 + 0x4000 * i
def CAM_REG_LEN (i : Nat) : Nat := 0x640015 + 0x4000 * i
def CAM_REG_DATA (i : Nat) : Nat := 0x640016 + 0x4000 * i
def CAM_REG_OP (i : Nat) : Nat := 0x640017 + 0x4000 * i
def CAM_REG_STATUS (i : Nat) : Nat := 0x640018 + 0x4000 * i
def CAM_FRAMES (i : Nat) : Nat := 0x640101 + 0x4000 * i
def CAM_SHORT_CNT (i : Nat) : Nat := 0x640102 + 0x4000 * i
def CAM_LONG_CNT (i : Nat) : Nat := 0x640103 + 0x4000 * i
def CAM_EXTRA_LINES (i : Nat) : Nat := 0x640104 + 0x4000 * i
def CAM_NODATA_LINES (i : Nat) : Nat := 0x640105 + 0x4000 * i
def CAM_CRC_ERR_0 (i : Nat) : Nat := 0x640106 + 0x4000 * i
def CAM_CRC_ERR_1 (i : Nat) : Nat := 0x640107 + 0x4000 * i
def CAM_CRC_ERR_2 (i : Nat) : Nat := 0x640108 + 0x4000 * i
def CAM_CRC_ERR_3 (i : Nat) : Nat := 0x640109 + 0x4000 * i
def CAM_CNT_STATUS (i : Nat) : Nat := 0x64010a + 0x4000 * i
def NIM_DARK (i : Nat) : Nat := 0x640201 + 0x4000 * i
def NIM_FLAT (i : Nat) : Nat := 0x640202 + 0x4000 * i
def NIM_GEOM (i : Nat) : Nat := 0x640203 + 0x4000 * i
def NIM_ENABLE : Nat := 0x650001
def NIM_PIX_THRESH : Nat := 0x650002
def NIM_CELL_COUNT : Nat := 0x650003
def NIM_COL_SUSPECT : Nat := 0x650004
def NIM_COL_DEFECT : Nat := 0x650005
def NIM_ATTR_MIN : Nat := 0x650006
def NIM_ATTR_MARGIN : Nat := 0x650007
def NIM_JUDGE_MIN : Nat := 0x650008
def NIM_REG_MIN : Nat := 0x650009
def NIM_REG_MIN_TILES : Nat := 0x65000a
def NIM_REG_LIMIT : Nat := 0x65000b
def NIM_OBS_MIN : Nat := 0x65000c
def NIM_DEFECT_MAX : Nat := 0x65000d
def NIM_STREAM_EN : Nat := 0x65000e
def NIM_S0_MAX : Nat := 0x65000f
def NIM_S1_SCALE : Nat := 0x650010
def NIM_S2_LEVEL : Nat := 0x650011
def NIM_S3_RECT : Nat := 0x650012
def NIM_EVID_SIZE : Nat := 0x650013
def NIM_EVID_PROD : Nat := 0x650014
def NIM_EVID_FREE : Nat := 0x650015
def NIM_EVID_RESERVE : Nat := 0x650016
def NIM_PRIMARIES : Nat := 0x650101
def NIM_COVERAGE : Nat := 0x650102
def NIM_KERNEL : Nat := 0x650103
def NIM_PASS_CNT : Nat := 0x650201
def NIM_DEFECT_CNT : Nat := 0x650202
def NIM_INDET_CNT : Nat := 0x650203
def NIM_UNVERIFIED_CNT : Nat := 0x650204
def NIM_EVID_LOST_CNT : Nat := 0x650205
def NIM_CNT_STATUS : Nat := 0x650206
def DRAM_STATE : Nat := 0x680001
def DRAM_RATE : Nat := 0x680002
def DRAM_USABLE_MIB : Nat := 0x680003
def DRAM_POOL_GIB : Nat := 0x680004
def DRAM_REGIONS : Nat := 0x680005
def DRAM_REF_POSTPONE : Nat := 0x680006
def DRAM_REF2X_C : Nat := 0x680007
def DRAM_REF2X_HYST : Nat := 0x680008
def DRAM_SCRUB_H : Nat := 0x680009
def DRAM_SUSPECT_CE : Nat := 0x68000a
def DRAM_ROW_IDLE_NS : Nat := 0x68000b
def DRAM_PD_NS : Nat := 0x68000c
def DRAM_DRIFT_MS : Nat := 0x68000d
def DRAM_DRIFT_TAPS : Nat := 0x68000e
def DRAM_CAL_AGREE : Nat := 0x68000f
def DRAM_EYE_MIN : Nat := 0x680010
def DRAM_PORT_TARGET : Nat := 0x680011
def DRAM_LATE_CNT : Nat := 0x680012
def DRAM_SWEEP_CTRL : Nat := 0x680013
def DRAM_SWEEP_RESULT : Nat := 0x680014
def DRAM_CE_CNT (i : Nat) : Nat := 0x681001 + 0x100 * i
def DRAM_UE_CNT (i : Nat) : Nat := 0x681002 + 0x100 * i
def DRAM_DEV_CE (i : Nat) : Nat := 0x681003 + 0x100 * i
def DRAM_TEMP (i : Nat) : Nat := 0x681004 + 0x100 * i
def DRAM_REF_OWED (i : Nat) : Nat := 0x681005 + 0x100 * i
def DRAM_STATUS (i : Nat) : Nat := 0x681006 + 0x100 * i
def CAL_DELAY_SET (i : Nat) : Nat := 0x682001 + 0x100 * i
def CAL_T_REF_D (i : Nat) : Nat := 0x682002 + 0x100 * i
def CAL_EYE_UI_D (i : Nat) : Nat := 0x682003 + 0x100 * i
def CAL_STATE_D (i : Nat) : Nat := 0x682004 + 0x100 * i
def CAL_DISAGREE_D (i : Nat) : Nat := 0x682005 + 0x100 * i
def LANE_GROUP (i : Nat) : Nat := 0x6c0001 + 0x400 * i
def LANE_RATE (i : Nat) : Nat := 0x6c0002 + 0x400 * i
def LANE_STATUS (i : Nat) : Nat := 0x6c0003 + 0x400 * i
def LANE_MODE (i : Nat) : Nat := 0x6c0004 + 0x400 * i
def LANE_LOOP (i : Nat) : Nat := 0x6c0005 + 0x400 * i
def LANE_SLIP (i : Nat) : Nat := 0x6c0006 + 0x400 * i
def LANE_RETRAIN (i : Nat) : Nat := 0x6c0007 + 0x400 * i
def LANE_TX_TAPS (i : Nat) : Nat := 0x6c0008 + 0x400 * i
def LANE_RX_EQ (i : Nat) : Nat := 0x6c0009 + 0x400 * i
def LANE_LOCK_LOSS_CNT (i : Nat) : Nat := 0x6c000a + 0x400 * i
def LANE_EYE_START (i : Nat) : Nat := 0x6c0101 + 0x400 * i
def LANE_EYE_STATE (i : Nat) : Nat := 0x6c0102 + 0x400 * i
def LANE_EYE_W (i : Nat) : Nat := 0x6c0103 + 0x400 * i
def LANE_EYE_H (i : Nat) : Nat := 0x6c0104 + 0x400 * i
def LANE_EYE_DWELL (i : Nat) : Nat := 0x6c0105 + 0x400 * i
def LANE_EYE_THRESH (i : Nat) : Nat := 0x6c0106 + 0x400 * i
def LANE_EYE_MAP (i : Nat) : Nat := 0x6c0107 + 0x400 * i
def LANE_EYE_MIN_W (i : Nat) : Nat := 0x6c0108 + 0x400 * i
def LANE_EYE_MIN_H (i : Nat) : Nat := 0x6c0109 + 0x400 * i
def LANE_EYE_STAMP (i : Nat) : Nat := 0x6c010a + 0x400 * i
def LANE_PAT_GEN (i : Nat) : Nat := 0x6c0201 + 0x400 * i
def LANE_PAT_CHK (i : Nat) : Nat := 0x6c0202 + 0x400 * i
def LANE_USER_PAT (i : Nat) : Nat := 0x6c0203 + 0x400 * i
def LANE_USER_LEN (i : Nat) : Nat := 0x6c0204 + 0x400 * i
def LANE_INJECT (i : Nat) : Nat := 0x6c0205 + 0x400 * i
def LANE_INJ_BURST (i : Nat) : Nat := 0x6c0206 + 0x400 * i
def LANE_PRBS_BITS (i : Nat) : Nat := 0x6c0207 + 0x400 * i
def LANE_PRBS_ERR (i : Nat) : Nat := 0x6c0208 + 0x400 * i
def LANE_PRBS_RELOCK (i : Nat) : Nat := 0x6c0209 + 0x400 * i
def LANE_PAT_STATUS (i : Nat) : Nat := 0x6c020a + 0x400 * i
def CAL_PHASE (i : Nat) : Nat := 0x6c0301 + 0x400 * i
def CAL_T_REF_N (i : Nat) : Nat := 0x6c0302 + 0x400 * i
def CAL_EYE_UI_N (i : Nat) : Nat := 0x6c0303 + 0x400 * i
def CAL_STATE_N (i : Nat) : Nat := 0x6c0304 + 0x400 * i
def CAL_DISAGREE_N (i : Nat) : Nat := 0x6c0305 + 0x400 * i
def STR_ABORT : Nat := 0x700001
def STR_STREAMS_OPEN : Nat := 0x700002
def STR_NIM_BACKLOG : Nat := 0x700003
def STR_JOBS_CNT : Nat := 0x700004
def STR_NOT_SMALLER_CNT : Nat := 0x700005
def STR_ERROR_CNT : Nat := 0x700006
def STR_IN_BYTES : Nat := 0x700007
def STR_OUT_BYTES : Nat := 0x700008
def STR_STATUS : Nat := 0x700009
def FLT_TABLE : Nat := 0x780001
def FLT_CLEAR : Nat := 0x780002
def FLT_FEC_SAFETY : Nat := 0x780003
def FLT_FEC_SERVICE : Nat := 0x780004
def FLT_FEC_ADVISORY : Nat := 0x780005
def FLT_FEC_CLEAR : Nat := 0x780006
def FLT_OFF_CNT : Nat := 0x780007
def FLT_LOST_CNT : Nat := 0x780008
def FLT_ALERT_CNT : Nat := 0x780009
def FLT_STATUS : Nat := 0x78000a
def TWIN_STATE : Nat := 0x7c0001
def TWIN_EPOCH : Nat := 0x7c0002
def TWIN_ENABLE : Nat := 0x7c0003
def TWIN_CMD : Nat := 0x7c0004
def TWIN_PARTNER_ID : Nat := 0x7c0005
def TWIN_LANES : Nat := 0x7c0006
def TWIN_TIME_ERR : Nat := 0x7c0007
def TWIN_LAG : Nat := 0x7c0008
def TWIN_ELECT_MS : Nat := 0x7c0009
def TWIN_SYNC_JOBS : Nat := 0x7c000a
def TWIN_TAKEOVER_CNT : Nat := 0x7c000b
def TWIN_RETX_CNT : Nat := 0x7c000c
def TWIN_STATUS : Nat := 0x7c000d
def NOZZLE_PARAM (i : Nat) : Nat := 0x800001 + 0x100 * i
def WEAR (i : Nat) : Nat := 0x800002 + 0x100 * i
def WEAR_RESTORE (i : Nat) : Nat := 0x800003 + 0x100 * i
def DEFECT_MAP (i : Nat) : Nat := 0x800004 + 0x100 * i
def WAVE_TABLE (i : Nat) : Nat := 0x810001 + 0x100 * i
def WAVE_ACTIVE_ID (i : Nat) : Nat := 0x810002 + 0x100 * i
def WAVE_LOAD_STATE (i : Nat) : Nat := 0x810003 + 0x100 * i
def WAVE_SLIP_CNT (i : Nat) : Nat := 0x810004 + 0x100 * i
def CAM_TABLE (i : Nat) : Nat := 0x820001 + 0x100 * i
def BASE_COUNT : Nat := 0x830001
def BASE_TABLE : Nat := 0x830002
def TRACE_DATA (i : Nat) : Nat := 0x840001 + 0x100 * i
def TRACE_TRIG_STAMP (i : Nat) : Nat := 0x840002 + 0x100 * i
def DIAG_INJECT : Nat := 0xf00001
def DIAG_INJECTED : Nat := 0xf00002

/-! The rows, group by group. -/

def rows1000 : List ObjRow := [
  { sub := 0x1, ty := 12, acc := .ro, dflt := fun _ => 7 },  -- VENDOR
  { sub := 0x2, ty := 12, acc := .ro, dflt := fun _ => 6 },  -- PART
  { sub := 0x3, ty := 12, acc := .ro, dflt := fun _ => 17 },  -- ORDER_CODE
  { sub := 0x4, ty := 2, acc := .ro, dflt := fun _ => 161 },  -- SILICON_REV
  { sub := 0x5, ty := 5, acc := .ro, dflt := fun _ => Config.deviceId },  -- DEVICE_ID
  { sub := 0x6, ty := 2, acc := .ro, dflt := fun _ => 8 },  -- BARS
  { sub := 0x7, ty := 2, acc := .ro, dflt := fun _ => 16 },  -- HEADS_PER_BAR
  { sub := 0x8, ty := 2, acc := .ro, dflt := fun _ => 128 },  -- HEAD_LANES
  { sub := 0x9, ty := 2, acc := .ro, dflt := fun _ => 16 },  -- CAMERA_PORTS
  { sub := 0xa, ty := 4, acc := .ro, dflt := fun _ => Config.fwVersion },  -- FW_VERSION
  { sub := 0xb, ty := 2, acc := .ro, dflt := fun _ => Config.fwCounterFuse },  -- FW_COUNTER
  { sub := 0xc, ty := 3, acc := .ro, dflt := fun _ => 1 },  -- MAP_VERSION
  { sub := 0xd, ty := 3, acc := .ro, dflt := fun _ => 0 },  -- DRAM_GIB
  { sub := 0xe, ty := 12, acc := .rw, dflt := fun _ => 0 },  -- DEVICE_NAME
  { sub := 0xf, ty := 2, acc := .ro, dflt := fun _ => 4 }]  -- CAMERAS

def rows1100 : List ObjRow := [
  { sub := 0x1, ty := 3, acc := .rws, dflt := fun _ => 29471, rng := .int 1024 65535 },  -- TOA_UDP_PORT
  { sub := 0x2, ty := 3, acc := .rws, dflt := fun _ => 5, rng := .int 1 60 },  -- SESSION_LEASE_S
  { sub := 0x3, ty := 3, acc := .rw, dflt := fun _ => 60, rng := .int 5 3600 },  -- SESSION_IDLE_S
  { sub := 0x4, ty := 3, acc := .rw, dflt := fun _ => 1452, rng := .int 548 8952 },  -- TOA_MAX_FRAME
  { sub := 0x5, ty := 2, acc := .ro, dflt := fun _ => 0 },  -- SESSION_COUNT
  { sub := 0x6, ty := 4, acc := .ro, dflt := fun _ => 0 },  -- SUPERVISOR_SESSION
  { sub := 0x7, ty := 4, acc := .rw, dflt := fun _ => 0, ctr := true, ovf := some (0, 11, 0) },  -- TOA_CRC_ERR_CNT
  { sub := 0x8, ty := 4, acc := .rw, dflt := fun _ => 0, ctr := true, ovf := some (0, 11, 1) },  -- TOA_MAC_ERR_CNT
  { sub := 0x9, ty := 4, acc := .rw, dflt := fun _ => 0, ctr := true, ovf := some (0, 11, 2) },  -- TOA_STALE_CNT
  { sub := 0xa, ty := 4, acc := .rw, dflt := fun _ => 0, ctr := true, ovf := some (0, 11, 3) },  -- TOA_DUP_CNT
  { sub := 0xb, ty := 2, acc := .ro, dflt := fun _ => 0 }]  -- TOA_STATUS

def rows1110 : List ObjRow := [
  { sub := 0x1, ty := 5, acc := .ro, dflt := fun i => Config.enMac i },  -- EN_MAC
  { sub := 0x2, ty := 1, acc := .rws, dflt := fun i => if Config.enBlock i then Config.enEnable i else 1, rng := .int 0 1 },  -- EN_ENABLE
  { sub := 0x3, ty := 2, acc := .rws, dflt := fun i => if Config.enBlock i then Config.enMode i else 1, rng := .int 0 1 },  -- EN_MODE
  { sub := 0x4, ty := 4, acc := .rws, dflt := fun i => if Config.enBlock i then Config.ip4Addr i else 0 },  -- IP4_ADDR
  { sub := 0x5, ty := 2, acc := .rws, dflt := fun i => if Config.enBlock i then Config.ip4Prefix i else 0, rng := .int 1 32 },  -- IP4_PREFIX
  { sub := 0x6, ty := 4, acc := .rws, dflt := fun i => if Config.enBlock i then Config.ip4Gateway i else 0 },  -- IP4_GATEWAY
  { sub := 0x7, ty := 13, acc := .rws, dflt := fun _ => 0, len := 16, esz := 1 },  -- IP6_ADDR
  { sub := 0x8, ty := 2, acc := .rws, dflt := fun i => if Config.enBlock i then Config.ip6Prefix i else 64, rng := .int 1 128 },  -- IP6_PREFIX
  { sub := 0x9, ty := 13, acc := .rws, dflt := fun _ => 0, len := 16, esz := 1 },  -- IP6_GATEWAY
  { sub := 0xa, ty := 2, acc := .ro, dflt := fun _ => 0 },  -- EN_LINK
  { sub := 0xb, ty := 5, acc := .rw, dflt := fun _ => 0, ctr := true, ovf := some (0, 13, 0) },  -- EN_RX_FRAMES
  { sub := 0xc, ty := 4, acc := .rw, dflt := fun _ => 0, ctr := true, ovf := some (0, 13, 1) },  -- EN_RX_ERR
  { sub := 0xd, ty := 2, acc := .ro, dflt := fun _ => 0 }]  -- EN_STATUS

def rows1800 : List ObjRow := [
  { sub := 0x1, ty := 3, acc := .rw, dflt := fun _ => 256, rng := .int 16 4096 },  -- JNL_STORE_MIB
  { sub := 0x2, ty := 2, acc := .rw, dflt := fun _ => 75, rng := .int 50 95 },  -- JNL_HIGH_MARK
  { sub := 0x3, ty := 2, acc := .rw, dflt := fun _ => 1, rng := .int 1 15 },  -- JNL_RING_MASK
  { sub := 0x4, ty := 13, acc := .ro, dflt := fun _ => 0, len := 16, esz := 1 },  -- JNL_BOOT_NONCE
  { sub := 0x5, ty := 5, acc := .ro, dflt := fun _ => 0 },  -- JNL_SEQ_NEXT
  { sub := 0x6, ty := 4, acc := .ro, dflt := fun _ => 0 },  -- JNL_FILL
  { sub := 0x7, ty := 4, acc := .rw, dflt := fun _ => 0, ctr := true, ovf := some (0, 8, 0) },  -- JNL_LOST_CNT
  { sub := 0x8, ty := 2, acc := .ro, dflt := fun _ => 0 }]  -- JNL_STATUS

def rows1900 : List ObjRow := [
  { sub := 0x1, ty := 2, acc := .rws, dflt := fun _ => Config.lifecycleFuse },  -- SEC_LIFECYCLE
  { sub := 0x2, ty := 13, acc := .ro, dflt := fun _ => Config.certLen, esz := 1 },  -- SEC_DEVICE_CERT
  { sub := 0x3, ty := 13, acc := .ro, dflt := fun _ => 0, len := 48, esz := 1 },  -- SEC_IMAGE_DIGEST
  { sub := 0x4, ty := 2, acc := .ro, dflt := fun _ => Config.imageSvn },  -- SEC_IMAGE_SVN
  { sub := 0x5, ty := 2, acc := .ro, dflt := fun _ => Config.bootSlot },  -- SEC_BOOT_SLOT
  { sub := 0x6, ty := 2, acc := .rws, dflt := fun _ => 0, rng := .int 1 1 },  -- SEC_SVN_COMMIT
  { sub := 0x7, ty := 13, acc := .wo, dflt := fun _ => 0, len := 33, esz := 1 },  -- SEC_KEY_PROVISION
  { sub := 0x8, ty := 2, acc := .ro, dflt := fun _ => Config.keyStateFuse },  -- SEC_KEY_STATE
  { sub := 0x9, ty := 2, acc := .rws, dflt := fun _ => 255, rng := .int 0 3 },  -- SEC_KEY_REVOKE
  { sub := 0xa, ty := 13, acc := .wo, dflt := fun _ => 0, len := 48, esz := 1 },  -- SEC_MAKER_KEY
  { sub := 0xb, ty := 13, acc := .wo, dflt := fun _ => 0, len := 48, esz := 1 },  -- SEC_DEBUG_KEY
  { sub := 0xc, ty := 13, acc := .ro, dflt := fun _ => 0, len := 64, esz := 1 },  -- SEC_DEBUG_CHALLENGE
  { sub := 0xd, ty := 13, acc := .wo, dflt := fun _ => 0, len := 197, esz := 1 },  -- SEC_DEBUG_RESPONSE
  { sub := 0xe, ty := 2, acc := .rws, dflt := fun _ => 0, rng := .int 0 0 }]  -- SEC_DEBUG_STATE

def rows2000 : List ObjRow := [
  { sub := 0x1, ty := 3, acc := .ro, dflt := fun _ => 0 },  -- ENGINE_STATE
  { sub := 0x2, ty := 2, acc := .ro, dflt := fun _ => 255 },  -- BARS_IDLE
  { sub := 0x3, ty := 2, acc := .ro, dflt := fun _ => 0 },  -- BARS_STAGED
  { sub := 0x4, ty := 2, acc := .ro, dflt := fun _ => 0 },  -- JOBS_IN_FLIGHT
  { sub := 0x8, ty := 4, acc := .wo, dflt := fun _ => 0 },  -- JOB_ABORT
  { sub := 0x9, ty := 4, acc := .rw, dflt := fun _ => 1 },  -- PSN_NEXT
  { sub := 0xa, ty := 2, acc := .ro, dflt := fun _ => 0 },  -- COMMIT_PENDING
  { sub := 0xb, ty := 13, acc := .ro, dflt := fun _ => 0, len := 256, esz := 32 },  -- COMMIT_TABLE
  { sub := 0xc, ty := 13, acc := .ro, dflt := fun _ => 0, len := 512, esz := 32 },  -- COMMIT_HISTORY
  { sub := 0xd, ty := 4, acc := .wo, dflt := fun _ => 0 },  -- COMMIT_CANCEL
  { sub := 0xe, ty := 4, acc := .ro, dflt := fun _ => 0 },  -- COMMIT_LAST
  { sub := 0xf, ty := 13, acc := .ro, dflt := fun _ => 0, len := 512, esz := 8 }]  -- OVF_LIST

def rows2040 : List ObjRow := [
  { sub := 0x1, ty := 11, acc := .rwb, dflt := fun _ => 0x152AAAAAAB, rng := .int (2 ^ 32) (1000 * 2 ^ 32), cls := 2 },  -- FFY_LINE_PITCH
  { sub := 0x2, ty := 2, acc := .rwb, dflt := fun _ => 0, rng := .int 0 1, cls := 2 },  -- FFY_LPI_MODE
  { sub := 0x3, ty := 10, acc := .rwb, dflt := fun _ => 1040187392, cls := 2 },  -- FFY_ALPHA
  { sub := 0x4, ty := 10, acc := .rwb, dflt := fun _ => 1006632960, cls := 2 },  -- FFY_BETA
  { sub := 0x5, ty := 10, acc := .rwb, dflt := fun _ => 964689920, cls := 2 },  -- FFY_GAMMA
  { sub := 0x6, ty := 10, acc := .rw, dflt := fun _ => 1259902592, rng := .real 1000 10000000000 },  -- FFY_ACCEL_MAX
  { sub := 0x7, ty := 2, acc := .rwb, dflt := fun _ => 8, rng := .int 8 32, cls := 2 },  -- FFY_LINE_LEAD
  { sub := 0x8, ty := 3, acc := .rwb, dflt := fun _ => 2000, rng := .int 500 10000, cls := 2 },  -- FFY_LINK_GUARD
  { sub := 0x9, ty := 3, acc := .rw, dflt := fun _ => 20, rng := .int 1 1000 },  -- FFY_RESEND_NS
  { sub := 0xa, ty := 2, acc := .rw, dflt := fun _ => 4, rng := .int 1 15 },  -- FFY_RESEND_MAX
  { sub := 0xb, ty := 1, acc := .rwb, dflt := fun _ => 1, rng := .int 0 1, cls := 2 },  -- FFY_ROTATE
  { sub := 0xc, ty := 2, acc := .rwb, dflt := fun _ => 16, rng := .int 1 17, cls := 2 },  -- FFY_SLOT_NS
  { sub := 0xd, ty := 2, acc := .rw, dflt := fun _ => 2, rng := .int 0 15 },  -- FFY_HYST
  { sub := 0xe, ty := 2, acc := .rw, dflt := fun _ => 0, rng := .int 0 1 },  -- FFY_RESUME_MODE
  { sub := 0xf, ty := 2, acc := .wo, dflt := fun _ => 0, rng := .int 1 1 },  -- FFY_RESUME
  { sub := 0x10, ty := 2, acc := .ro, dflt := fun _ => 0 },  -- FFY_STATUS
  { sub := 0x11, ty := 5, acc := .ro, dflt := fun _ => 0 },  -- FFY_HWM
  { sub := 0x12, ty := 11, acc := .ro, dflt := fun _ => 0 },  -- FFY_EST_POS
  { sub := 0x13, ty := 10, acc := .ro, dflt := fun _ => 0 },  -- FFY_EST_SPEED
  { sub := 0x14, ty := 10, acc := .ro, dflt := fun _ => 0 },  -- FFY_EST_ACCEL
  { sub := 0x15, ty := 4, acc := .rw, dflt := fun _ => 0, ctr := true },  -- FFY_RESEND_CNT
  { sub := 0x16, ty := 4, acc := .rw, dflt := fun _ => 0, ctr := true },  -- FFY_RESEND_CAP_CNT
  { sub := 0x17, ty := 4, acc := .rw, dflt := fun _ => 0, ctr := true },  -- FFY_DIRCHG_CNT
  { sub := 0x18, ty := 4, acc := .rw, dflt := fun _ => 0, ctr := true },  -- FFY_CLAMP_CNT
  { sub := 0x19, ty := 4, acc := .rw, dflt := fun _ => 0, ctr := true }]  -- FFY_OVERSPEED_CNT

def rows2050 : List ObjRow := [
  { sub := 0x1, ty := 3, acc := .rw, dflt := fun _ => 50, rng := .int 10 1000 },  -- HL_TIME_PERIOD
  { sub := 0x2, ty := 2, acc := .rw, dflt := fun _ => 64, rng := .int 1 255 },  -- HL_DELAY_AVG
  { sub := 0x3, ty := 4, acc := .rw, dflt := fun _ => 25000, rng := .int 4167 1000000 },  -- HL_LEASE_PMAX
  { sub := 0x4, ty := 3, acc := .rw, dflt := fun _ => 100, rng := .int 20 10000 },  -- HL_TELE_TIMEOUT
  { sub := 0x5, ty := 3, acc := .rw, dflt := fun _ => 500, rng := .int 10 5000 }]  -- HL_TRAIN_TIMEOUT

def rows2060 : List ObjRow := [
  { sub := 0x1, ty := 3, acc := .rw, dflt := fun _ => 30, rng := .int 5 500 },  -- CAL_TEMP_DELTA
  { sub := 0x2, ty := 3, acc := .rw, dflt := fun _ => 60, rng := .int 1 3600 },  -- CAL_RETRY_S
  { sub := 0x3, ty := 2, acc := .rw, dflt := fun _ => 2, rng := .int 0 8 },  -- CAL_PHASE_AGREE
  { sub := 0x4, ty := 2, acc := .rw, dflt := fun _ => 4, rng := .int 0 7 },  -- CAL_REG_REF
  { sub := 0x5, ty := 3, acc := .rw, dflt := fun _ => 200, rng := .int 10 2000 },  -- CAL_REG_AGREE
  { sub := 0x6, ty := 3, acc := .rw, dflt := fun _ => 100, rng := .int 0 1000 },  -- CAL_REG_DEAD
  { sub := 0x7, ty := 3, acc := .rw, dflt := fun _ => 500, rng := .int 10 1000 },  -- CAL_REG_STEP_MAX
  { sub := 0x8, ty := 2, acc := .rw, dflt := fun _ => 4, rng := .int 1 64 },  -- CAL_HEAD_PAGES
  { sub := 0x9, ty := 2, acc := .rw, dflt := fun _ => 0, rng := .int 0 7 },  -- CAL_APPROVE
  { sub := 0xa, ty := 3, acc := .rw, dflt := fun _ => 10, rng := .int 1 3600 },  -- CAL_PROPOSAL_S
  { sub := 0xb, ty := 13, acc := .ro, dflt := fun _ => 0, len := 1024, esz := 16 },  -- CAL_PROPOSALS
  { sub := 0xc, ty := 4, acc := .wo, dflt := fun _ => 0 },  -- CAL_ACCEPT
  { sub := 0xd, ty := 4, acc := .wo, dflt := fun _ => 0 },  -- CAL_REJECT
  { sub := 0xe, ty := 4, acc := .wo, dflt := fun _ => 0 },  -- CAL_RUN
  { sub := 0xf, ty := 13, acc := .ro, dflt := fun _ => 0, esz := 1 },  -- CAL_IMAGE
  { sub := 0x10, ty := 13, acc := .wo, dflt := fun _ => 0, esz := 1 },  -- CAL_RESTORE
  { sub := 0x11, ty := 4, acc := .ro, dflt := fun _ => 0 }]  -- CAL_RESTORE_RESULT

def rows2100 : List ObjRow := [
  { sub := 0x1, ty := 13, acc := .ro, dflt := fun _ => 0, len := 16, esz := 1 },  -- TIME_NOW
  { sub := 0x2, ty := 4, acc := .ro, dflt := fun _ => 0 },  -- TIME_STAMP_NOW
  { sub := 0x3, ty := 2, acc := .ro, dflt := fun _ => 0 },  -- TIME_STATE
  { sub := 0x4, ty := 2, acc := .ro, dflt := fun _ => 255 },  -- TIME_SOURCE
  { sub := 0x5, ty := 2, acc := .rw, dflt := fun _ => 0, rng := .int 0 1 },  -- TIME_PREF
  { sub := 0x6, ty := 8, acc := .ro, dflt := fun _ => 0 },  -- TIME_RATE
  { sub := 0x7, ty := 4, acc := .rw, dflt := fun _ => 200000, rng := .int 1000 500000 },  -- TIME_RATE_MAX
  { sub := 0x8, ty := 4, acc := .rw, dflt := fun _ => 10000, rng := .int 100 100000 },  -- TIME_SLEW_MAX
  { sub := 0x9, ty := 4, acc := .rw, dflt := fun _ => 1000, rng := .int 10 100000 },  -- TIME_RATE_SLEW
  { sub := 0xa, ty := 10, acc := .rw, dflt := fun _ => 1060320051, rng := .real (1 / 1000) 10 },  -- TIME_KP
  { sub := 0xb, ty := 10, acc := .rw, dflt := fun _ => 1028443341, rng := .real 0 10 },  -- TIME_KI
  { sub := 0xc, ty := 4, acc := .rw, dflt := fun _ => 1000, rng := .int 100 1000000000 },  -- TIME_STEP_MIN
  { sub := 0xd, ty := 13, acc := .wo, dflt := fun _ => 0, len := 16, esz := 1 },  -- TIME_STEP
  { sub := 0xe, ty := 4, acc := .ro, dflt := fun _ => 0, ctr := true },  -- TIME_HOLD_S
  { sub := 0xf, ty := 9, acc := .ro, dflt := fun _ => 0 },  -- TIME_DOMAIN_DIFF
  { sub := 0x10, ty := 7, acc := .ro, dflt := fun _ => 0 },  -- TIME_UTC_OFFSET
  { sub := 0x11, ty := 13, acc := .ro, dflt := fun _ => 0, len := 20, esz := 1 }]  -- TIME_LAST_ANCHOR

def rows2110 : List ObjRow := [
  { sub := 0x1, ty := 1, acc := .rw, dflt := fun _ => 0, rng := .int 0 1 },  -- PTP_ENABLE
  { sub := 0x2, ty := 2, acc := .rw, dflt := fun i => i, rng := .int 0 239 },  -- PTP_DOMAIN
  { sub := 0x3, ty := 2, acc := .rw, dflt := fun _ => 3, rng := .int 0 3 },  -- PTP_PORTS
  { sub := 0x4, ty := 2, acc := .rw, dflt := fun _ => 0, rng := .int 0 2 },  -- PTP_TRANSPORT
  { sub := 0x5, ty := 2, acc := .rw, dflt := fun _ => 0, rng := .int 0 1 },  -- PTP_DELAY_MECH
  { sub := 0x6, ty := 2, acc := .ro, dflt := fun _ => 0 },  -- PTP_STATE
  { sub := 0x7, ty := 9, acc := .ro, dflt := fun _ => 0 },  -- PTP_OFFSET
  { sub := 0x8, ty := 9, acc := .ro, dflt := fun _ => 0 },  -- PTP_PATH_DELAY
  { sub := 0x9, ty := 5, acc := .ro, dflt := fun _ => 0 },  -- PTP_GM_ID
  { sub := 0xa, ty := 2, acc := .ro, dflt := fun _ => 255 },  -- PTP_RX_PORT
  { sub := 0xb, ty := 3, acc := .rw, dflt := fun _ => 3000, rng := .int 100 60000 },  -- PTP_LOSS_MS
  { sub := 0xc, ty := 4, acc := .rw, dflt := fun _ => 100, rng := .int 5 100000 },  -- PTP_LOCK_NS
  { sub := 0xd, ty := 8, acc := .rw, dflt := fun _ => 0, rng := .int (-1000000) 1000000 },  -- PTP_ASYM
  { sub := 0xe, ty := 4, acc := .rw, dflt := fun _ => 0, ctr := true, ovf := some (0, 16, 0) },  -- PTP_OUTLIER_CNT
  { sub := 0xf, ty := 4, acc := .rw, dflt := fun _ => 0, ctr := true, ovf := some (0, 16, 1) },  -- PTP_LOSS_CNT
  { sub := 0x10, ty := 2, acc := .ro, dflt := fun _ => 0 }]  -- PTP_STATUS

def rows2120 : List ObjRow := [
  { sub := 0x1, ty := 1, acc := .rw, dflt := fun _ => 0, rng := .int 0 1 },  -- PPS_IN_ENABLE
  { sub := 0x2, ty := 1, acc := .rw, dflt := fun _ => 0, rng := .int 0 1 },  -- PPS_IN_SOURCE
  { sub := 0x3, ty := 8, acc := .rw, dflt := fun _ => 0, rng := .int (-1000000) 1000000 },  -- PPS_IN_DELAY
  { sub := 0x4, ty := 13, acc := .ro, dflt := fun _ => 0, len := 16, esz := 1 },  -- PPS_IN_EDGE
  { sub := 0x5, ty := 8, acc := .ro, dflt := fun _ => 0 }]  -- PPS_IN_ERR

def rows2130 : List ObjRow := [
  { sub := 0x1, ty := 2, acc := .rw, dflt := fun _ => 0, rng := .int 0 2 },  -- PPS_OUT_MODE
  { sub := 0x2, ty := 8, acc := .rw, dflt := fun _ => 0, rng := .int (-499999999) 499999999 },  -- PPS_OUT_OFFSET
  { sub := 0x3, ty := 4, acc := .rw, dflt := fun _ => 10000000, rng := .int 100 900000000 },  -- PPS_OUT_WIDTH
  { sub := 0x4, ty := 2, acc := .rw, dflt := fun _ => 0, rng := .int 0 1 }]  -- PPS_OUT_POL

def rows2200 : List ObjRow := [
  { sub := 0x1, ty := 2, acc := .ro, dflt := fun _ => 0 },  -- PWR_STATE
  { sub := 0x2, ty := 2, acc := .rws, dflt := fun _ => 0, rng := .list [(0, 4), (0x84, 0x84)] },  -- PWR_TARGET
  { sub := 0x3, ty := 3, acc := .ro, dflt := fun _ => 0 },  -- PWR_REFUSAL
  { sub := 0x4, ty := 4, acc := .ro, dflt := fun _ => 2796202 },  -- PWR_DOMAINS
  { sub := 0x5, ty := 3, acc := .ro, dflt := fun _ => 750 },  -- PWR_VCORE
  { sub := 0x6, ty := 2, acc := .rws, dflt := fun _ => 64, rng := .int 8 0x77 },  -- PWR_AVS_ADDR
  { sub := 0x7, ty := 4, acc := .rw, dflt := fun _ => 0, ctr := true, ovf := some (0, 9, 0) },  -- PWR_TRANS_CNT
  { sub := 0x8, ty := 4, acc := .rw, dflt := fun _ => 0, ctr := true, ovf := some (0, 9, 1) },  -- PWR_REFUSE_CNT
  { sub := 0x9, ty := 2, acc := .ro, dflt := fun _ => 0 }]  -- PWR_STATUS

def rows2210 : List ObjRow := [
  { sub := 0x1, ty := 4, acc := .rw, dflt := fun _ => 60, rng := .int 1 86400 },  -- CIC_PERIOD_S
  { sub := 0x2, ty := 3, acc := .rw, dflt := fun _ => 15 },  -- CIC_SPIT_EVERY
  { sub := 0x3, ty := 2, acc := .rw, dflt := fun _ => 255 },  -- CIC_BAR_MASK
  { sub := 0x4, ty := 3, acc := .rw, dflt := fun _ => 200, rng := .int 1 10000 },  -- CIC_SPIT_LINES
  { sub := 0x5, ty := 2, acc := .rw, dflt := fun _ => 3, rng := .int 1 3 },  -- CIC_SPIT_DOT
  { sub := 0x6, ty := 3, acc := .rw, dflt := fun _ => 50, rng := .int 10 10000 },  -- CIC_SPIT_PERIOD_US
  { sub := 0x7, ty := 13, acc := .rw, dflt := fun _ => 0, len := 8, esz := 1 },  -- CIC_CAP_GPIO
  { sub := 0x8, ty := 13, acc := .rw, dflt := fun _ => 0, len := 128, esz := 8 },  -- CIC_ADC_WIN
  { sub := 0x9, ty := 4, acc := .rw, dflt := fun _ => 52428900 },  -- CIC_TEMP_WIN
  { sub := 0xa, ty := 2, acc := .rw, dflt := fun _ => 128, rng := .pin },  -- CIC_WAKE_PIN
  { sub := 0xb, ty := 1, acc := .rw, dflt := fun _ => 0, rng := .int 0 1 },  -- CIC_FAIL_WAKE
  { sub := 0xc, ty := 2, acc := .ro, dflt := fun _ => 0 },  -- CIC_WAKE_CAUSE
  { sub := 0xd, ty := 13, acc := .ro, dflt := fun _ => 0, len := 288, esz := 2 },  -- CIC_LAST
  { sub := 0xe, ty := 4, acc := .rw, dflt := fun _ => 0, ctr := true, ovf := some (0, 17, 0) },  -- CIC_WAKES
  { sub := 0xf, ty := 13, acc := .rw, dflt := fun _ => 0, ctr := true, len := 32, esz := 4, ovf := some (0, 17, 1) },  -- CIC_SPIT_CNT
  { sub := 0x10, ty := 13, acc := .rw, dflt := fun _ => 0, ctr := true, len := 32, esz := 4 },  -- CIC_SKIP_CNT
  { sub := 0x11, ty := 3, acc := .ro, dflt := fun _ => 0 },  -- CIC_STATUS
  { sub := 0x12, ty := 2, acc := .rw, dflt := fun _ => 4, rng := .int 4 7 }]  -- CIC_NEXT_DOMAIN

def rows2300 : List ObjRow := [
  { sub := 0x1, ty := 3, acc := .ro, dflt := fun _ => 0 },  -- CLK_STATUS
  { sub := 0x2, ty := 4, acc := .rw, dflt := fun _ => 0, ctr := true, ovf := some (0, 8, 0) },  -- CLK_LOCK_LOSS_CNT
  { sub := 0x3, ty := 2, acc := .ro, dflt := fun _ => 0 },  -- RST_SOURCE
  { sub := 0x4, ty := 4, acc := .ro, dflt := fun _ => 0, ctr := true, ovf := some (0, 8, 1) },  -- RST_COUNT
  { sub := 0x5, ty := 2, acc := .rws, dflt := fun _ => 0, rng := .int 1 2 },  -- RST_REQUEST
  { sub := 0x6, ty := 4, acc := .ro, dflt := fun _ => 0 },  -- BOOT_TIME
  { sub := 0x7, ty := 3, acc := .rw, dflt := fun _ => 2000, rng := .int 0 60000 },  -- BOOT_RESTORE_MS
  { sub := 0x8, ty := 2, acc := .ro, dflt := fun _ => 0 }]  -- CLK_CNT_STATUS

def rows2400 : List ObjRow := [
  { sub := 0x1, ty := 7, acc := .rws, dflt := fun _ => 700, rng := .int 0 1250 },  -- HALO_HEAD_ABS
  { sub := 0x2, ty := 3, acc := .rws, dflt := fun _ => 20, rng := .int 1 1000 },  -- HALO_WEB_LOSS_MS
  { sub := 0x3, ty := 13, acc := .rws, dflt := fun _ => 0, len := 128, esz := 8 },  -- HALO_PRES_WIN
  { sub := 0x4, ty := 7, acc := .rws, dflt := fun _ => 1150, rng := .int 1000 1250 },  -- HALO_TJ_MAX
  { sub := 0x5, ty := 3, acc := .rws, dflt := fun _ => 10, rng := .int 1 100 },  -- HALO_WD_MS
  { sub := 0x6, ty := 2, acc := .rw, dflt := fun _ => 2, rng := .int 1 100 },  -- HALO_ALERT_US
  { sub := 0x7, ty := 5, acc := .ro, dflt := fun _ => 0x1FFFF0000 },  -- SAFE_OUT_STATE
  { sub := 0x8, ty := 2, acc := .ro, dflt := fun _ => 63 }]  -- SF_ACTIVE

def rows3000 : List ObjRow := [
  { sub := 0x1, ty := 1, acc := .rwb, dflt := fun _ => 1, rng := .int 0 1, cls := 2 },  -- BAR_ENABLE
  { sub := 0x2, ty := 2, acc := .ro, dflt := fun _ => 1 },  -- BAR_STATE
  { sub := 0x3, ty := 4, acc := .ro, dflt := fun _ => 0 },  -- BAR_JOB
  { sub := 0x4, ty := 3, acc := .ro, dflt := fun _ => 0 },  -- BAR_HEADS
  { sub := 0x5, ty := 5, acc := .rw, dflt := fun _ => 0, ctr := true, ovf := some (0, 7, 0) },  -- BAR_LINES
  { sub := 0x6, ty := 12, acc := .rw, dflt := fun _ => 0 },  -- BAR_LABEL
  { sub := 0x7, ty := 2, acc := .ro, dflt := fun _ => 0 }]  -- BAR_STATUS

def rows3040 : List ObjRow := [
  { sub := 0x1, ty := 4, acc := .rw, dflt := fun _ => 0, ctr := true },  -- SCB_CHUNK_ERR
  { sub := 0x2, ty := 4, acc := .rw, dflt := fun _ => 0, ctr := true },  -- SCB_LATE_LINES
  { sub := 0x3, ty := 4, acc := .rw, dflt := fun _ => 0, ctr := true },  -- SCB_CHECK_LATE
  { sub := 0x4, ty := 4, acc := .rw, dflt := fun _ => 0, ctr := true },  -- SCB_DIVERGE
  { sub := 0x5, ty := 4, acc := .rw, dflt := fun _ => 0, ctr := true },  -- SCB_BASE_RESTART
  { sub := 0x6, ty := 2, acc := .ro, dflt := fun _ => 0 },  -- SCB_LEAD
  { sub := 0x7, ty := 2, acc := .rw, dflt := fun _ => 64 },  -- SCB_LEAD_MIN
  { sub := 0x8, ty := 4, acc := .ro, dflt := fun _ => 0 }]  -- SCB_CHECK_LAG

def rows3060 : List ObjRow := [
  { sub := 0x1, ty := 11, acc := .rwb, dflt := fun _ => 0, rng := .int 0 (2 ^ 63 - 1), cls := 1 },  -- FFY_BAR_OFFSET
  { sub := 0x2, ty := 4, acc := .rwb, dflt := fun _ => 0, rng := .int 0 1000000, cls := 1 },  -- FFY_FLIGHT_NS
  { sub := 0x3, ty := 2, acc := .rwb, dflt := fun _ => 255, rng := .orFF 7, cls := 1 },  -- FFY_TOF_SEL
  { sub := 0x4, ty := 11, acc := .rwb, dflt := fun _ => 0, rng := .int (-2 ^ 63) (2 ^ 63 - 1), cls := 1 },  -- FFY_TOF_OFFSET
  { sub := 0x5, ty := 4, acc := .rwb, dflt := fun _ => 1000, rng := .int 0 1000000, cls := 1 },  -- FFY_MARK_WINDOW
  { sub := 0x6, ty := 11, acc := .ro, dflt := fun _ => 0 },  -- FFY_START_POS
  { sub := 0x7, ty := 4, acc := .rw, dflt := fun _ => 0, ctr := true, ovf := some (0, 10, 3) },  -- FFY_MARK_SKIP_CNT
  { sub := 0x8, ty := 4, acc := .rw, dflt := fun _ => 0, ctr := true, ovf := some (0, 10, 4) },  -- FFY_MARK_FALLBACK_CNT
  { sub := 0x9, ty := 4, acc := .rw, dflt := fun _ => 0, ctr := true, ovf := some (0, 10, 5) },  -- FFY_LATE_START_CNT
  { sub := 0xa, ty := 2, acc := .ro, dflt := fun _ => 4 }]  -- FFY_BAR_STATUS

def rows3080 : List ObjRow := [
  { sub := 0x1, ty := 13, acc := .rwb, dflt := fun _ => 0, cls := 1, len := 1920, esz := 1 },  -- LCW_STITCH_MASK
  { sub := 0x2, ty := 13, acc := .rwb, dflt := fun _ => 0, cls := 1, len := 128, esz := 1 },  -- LCW_SUB_TABLE
  { sub := 0x3, ty := 4, acc := .rwb, dflt := fun _ => 120000, rng := .int 0 120000, cls := 1 },  -- LCW_PARTNER_MAX
  { sub := 0x4, ty := 2, acc := .ro, dflt := fun _ => 0 },  -- LCW_METHOD
  { sub := 0x5, ty := 4, acc := .rw, dflt := fun _ => 0, ctr := true, ovf := some (0, 10, 0) },  -- LCW_SUB_LINES
  { sub := 0x6, ty := 4, acc := .rw, dflt := fun _ => 0, ctr := true, ovf := some (0, 10, 1) },  -- LCW_LOST_DOTS
  { sub := 0x7, ty := 2, acc := .rw, dflt := fun _ => 64, rng := .int 0 255 },  -- LCW_PROBE_MAX
  { sub := 0x8, ty := 2, acc := .rw, dflt := fun _ => 75, rng := .int 51 100 },  -- LCW_BOTH_LOSS
  { sub := 0x9, ty := 2, acc := .rw, dflt := fun _ => 16, rng := .int 1 255 },  -- LCW_SUSPECT_PAGES
  { sub := 0xa, ty := 2, acc := .ro, dflt := fun _ => 0 }]  -- LCW_STATUS

def rows30A0 : List ObjRow := [
  { sub := 0x1, ty := 8, acc := .ro, dflt := fun _ => 0 },  -- NIM_REG_ALONG
  { sub := 0x2, ty := 8, acc := .ro, dflt := fun _ => 0 },  -- NIM_REG_ACROSS
  { sub := 0x3, ty := 3, acc := .ro, dflt := fun _ => 0 },  -- NIM_REG_TILES
  { sub := 0x4, ty := 4, acc := .ro, dflt := fun _ => 0 },  -- NIM_REG_JOB
  { sub := 0x5, ty := 4, acc := .rw, dflt := fun _ => 0, ctr := true, ovf := some (0, 7, 0) },  -- NIM_SUSPECT_CNT
  { sub := 0x6, ty := 4, acc := .rw, dflt := fun _ => 0, ctr := true, ovf := some (0, 7, 1) },  -- NIM_UNRESOLVED_CNT
  { sub := 0x7, ty := 2, acc := .ro, dflt := fun _ => 0 }]  -- NIM_BAR_STATUS

def rows30C0 : List ObjRow := [
  { sub := 0x1, ty := 8, acc := .ro, dflt := fun _ => 0 },  -- CAL_RESID_ALONG
  { sub := 0x2, ty := 8, acc := .ro, dflt := fun _ => 0 },  -- CAL_RESID_ACROSS
  { sub := 0x3, ty := 3, acc := .ro, dflt := fun _ => 0 },  -- CAL_DENS_RESID
  { sub := 0x4, ty := 4, acc := .ro, dflt := fun _ => 0 },  -- CAL_SETTLED_JOB
  { sub := 0x5, ty := 4, acc := .rw, dflt := fun _ => 0, ctr := true, ovf := some (0, 7, 2) },  -- CAL_CORR_CNT
  { sub := 0x6, ty := 4, acc := .rw, dflt := fun _ => 0, ctr := true, ovf := some (0, 7, 3) },  -- CAL_DISAGREE_B
  { sub := 0x7, ty := 2, acc := .ro, dflt := fun _ => 0 }]  -- CAL_STATUS

def rows4000 : List ObjRow := [
  { sub := 0x1, ty := 2, acc := .ro, dflt := fun _ => 0 },  -- HL_STATE
  { sub := 0x2, ty := 1, acc := .rw, dflt := fun _ => 1, rng := .int 0 1 },  -- HL_ENABLE
  { sub := 0x3, ty := 13, acc := .ro, dflt := fun _ => 0, len := 44, esz := 1 },  -- HL_IDENTITY
  { sub := 0x4, ty := 2, acc := .ro, dflt := fun _ => 0 },  -- HL_REFUSE_CAUSE
  { sub := 0x5, ty := 7, acc := .ro, dflt := fun _ => 0 },  -- HL_TEMP
  { sub := 0x6, ty := 3, acc := .ro, dflt := fun _ => 0 }]  -- HL_HEAD_STATE

def rows4008 : List ObjRow := [
  { sub := 0x1, ty := 11, acc := .rwb, dflt := fun _ => 0, cls := 1 },  -- FFY_ROW_OFFSET_A
  { sub := 0x2, ty := 11, acc := .rwb, dflt := fun _ => 0, cls := 1 },  -- FFY_ROW_OFFSET_B
  { sub := 0x3, ty := 7, acc := .rw, dflt := fun _ => 600, rng := .int (-400) 1250 },  -- FFY_HOT_LIMIT
  { sub := 0x4, ty := 2, acc := .rw, dflt := fun _ => 30, rng := .int 5 200 },  -- FFY_HOT_HYST
  { sub := 0x5, ty := 2, acc := .ro, dflt := fun _ => 0 },  -- FFY_HOT_STATE
  { sub := 0x6, ty := 4, acc := .rw, dflt := fun _ => 0, ctr := true }]  -- FFY_HOT_CNT

def rows4010 : List ObjRow := [
  { sub := 0x1, ty := 3, acc := .ro, dflt := fun _ => 0 },  -- LCW_SUSPECT_COUNT
  { sub := 0x2, ty := 3, acc := .ro, dflt := fun _ => 0 },  -- LCW_DEAD_COUNT
  { sub := 0x3, ty := 3, acc := .ro, dflt := fun _ => 0 },  -- LCW_RETIRED_COUNT
  { sub := 0x4, ty := 5, acc := .ro, dflt := fun _ => 0 },  -- LCW_WEAR_MAX
  { sub := 0x5, ty := 4, acc := .ro, dflt := fun _ => 0 }]  -- LCW_WAVE_STAGED

def rows4018 : List ObjRow := [
  { sub := 0x1, ty := 4, acc := .ro, dflt := fun _ => 0 },  -- HL_DELAY
  { sub := 0x2, ty := 7, acc := .rw, dflt := fun _ => 0, rng := .int (-2000) 2000 },  -- HL_ASYM
  { sub := 0x3, ty := 4, acc := .ro, dflt := fun _ => 0 },  -- HL_RTT
  { sub := 0x4, ty := 8, acc := .ro, dflt := fun _ => 0 },  -- HL_TIME_ERR
  { sub := 0x5, ty := 4, acc := .rw, dflt := fun _ => 0, ctr := true, ovf := some (0, 12, 8) },  -- HL_FRAME_ERR
  { sub := 0x6, ty := 4, acc := .rw, dflt := fun _ => 0, ctr := true, ovf := some (0, 12, 9) },  -- HL_BLOCK_ERR
  { sub := 0x7, ty := 4, acc := .rw, dflt := fun _ => 0, ctr := true, ovf := some (0, 12, 10) },  -- HL_HDR_ERR
  { sub := 0x8, ty := 4, acc := .rw, dflt := fun _ => 0, ctr := true, ovf := some (0, 12, 11) },  -- HL_LATE
  { sub := 0x9, ty := 4, acc := .rw, dflt := fun _ => 0, ctr := true, ovf := some (0, 12, 12) },  -- HL_BUSY
  { sub := 0xa, ty := 4, acc := .rw, dflt := fun _ => 0, ctr := true, ovf := some (0, 12, 13) },  -- HL_HEAD_DISCARD
  { sub := 0xb, ty := 4, acc := .rw, dflt := fun _ => 0, ctr := true, ovf := some (0, 12, 14) },  -- HL_DELAY_REJECT
  { sub := 0xc, ty := 3, acc := .ro, dflt := fun _ => 0 }]  -- HL_LINK_STATUS

def rows401C : List ObjRow := [
  { sub := 0x1, ty := 7, acc := .ro, dflt := fun _ => 0 },  -- CAL_T_REF_H
  { sub := 0x2, ty := 8, acc := .ro, dflt := fun _ => 0 },  -- CAL_RESID
  { sub := 0x3, ty := 2, acc := .ro, dflt := fun _ => 1 },  -- CAL_STATE_H
  { sub := 0x4, ty := 4, acc := .rw, dflt := fun _ => 0, ctr := true, ovf := some (0, 3, 7) }]  -- CAL_DISAGREE_H

def rows5000 : List ObjRow := [
  { sub := 0x1, ty := 11, acc := .rw, dflt := fun _ => 0, rng := .int (-2 ^ 63) (2 ^ 63 - 1) },  -- AX_TARGET
  { sub := 0x2, ty := 10, acc := .rw, dflt := fun _ => 1176256512, rng := .real 1 4000000 },  -- AX_VMAX
  { sub := 0x3, ty := 10, acc := .rw, dflt := fun _ => 1203982336, rng := .real 1 1000000000 },  -- AX_ACC
  { sub := 0x4, ty := 10, acc := .rw, dflt := fun _ => 1203982336, rng := .real 1 1000000000 },  -- AX_DEC
  { sub := 0x5, ty := 10, acc := .rw, dflt := fun _ => 1259902592, rng := .real 1 1000000000000 },  -- AX_JERK
  { sub := 0x6, ty := 2, acc := .wo, dflt := fun _ => 0, rng := .int 1 1 },  -- AX_STOP
  { sub := 0x7, ty := 11, acc := .ro, dflt := fun _ => 0 },  -- AX_CMD_POS
  { sub := 0x8, ty := 10, acc := .ro, dflt := fun _ => 0 },  -- AX_CMD_VEL
  { sub := 0x9, ty := 10, acc := .ro, dflt := fun _ => 0 },  -- AX_CMD_ACC
  { sub := 0xa, ty := 3, acc := .ro, dflt := fun _ => 0 },  -- AX_MOVE_SEQ
  { sub := 0xb, ty := 2, acc := .ro, dflt := fun _ => 0 },  -- AX_MOVE_STATE
  { sub := 0xc, ty := 11, acc := .rw, dflt := fun _ => -2 ^ 63 },  -- AX_SOFT_MIN
  { sub := 0xd, ty := 11, acc := .rw, dflt := fun _ => 2 ^ 63 - 1 },  -- AX_SOFT_MAX
  { sub := 0xe, ty := 2, acc := .wo, dflt := fun _ => 0, rng := .int 1 1 },  -- AX_HOME
  { sub := 0xf, ty := 10, acc := .rw, dflt := fun _ => 3296329728 },  -- AX_HOME_VEL
  { sub := 0x10, ty := 2, acc := .rw, dflt := fun _ => 0, rng := .int 0 1 },  -- AX_HOME_SRC
  { sub := 0x11, ty := 11, acc := .rw, dflt := fun _ => 0, rng := .int (-2 ^ 63) (2 ^ 63 - 1) }]  -- AX_HOME_POS

def rows5008 : List ObjRow := [
  { sub := 0x1, ty := 2, acc := .rw, dflt := fun _ => 0, rng := .int 0 2 },  -- AX_OUT_MODE
  { sub := 0x2, ty := 3, acc := .rw, dflt := fun _ => 100, rng := .int 20 10000 },  -- AX_STEP_W
  { sub := 0x3, ty := 3, acc := .rw, dflt := fun _ => 200, rng := .int 0 10000 },  -- AX_DIR_SETUP
  { sub := 0x4, ty := 2, acc := .rw, dflt := fun _ => 0, rng := .int 0 3 },  -- AX_STEP_POL
  { sub := 0x5, ty := 2, acc := .rw, dflt := fun _ => 255, rng := .orFF 31 },  -- AX_LOOP
  { sub := 0x6, ty := 2, acc := .rw, dflt := fun _ => 255, rng := .orFF 23 },  -- AX_ENC
  { sub := 0x7, ty := 11, acc := .rw, dflt := fun _ => 2 ^ 32, rng := .int (-2 ^ 47) (2 ^ 47) }]  -- AX_ENC_RATIO

def rows5010 : List ObjRow := [
  { sub := 0x1, ty := 1, acc := .rw, dflt := fun _ => 0, rng := .int 0 1 },  -- AX_ENABLE
  { sub := 0x2, ty := 3, acc := .rw, dflt := fun _ => 10, rng := .int 0 1000 },  -- AX_EN_DELAY
  { sub := 0x3, ty := 2, acc := .rw, dflt := fun _ => 255, rng := .orFF 31 },  -- AX_LIM_NEG_PIN
  { sub := 0x4, ty := 2, acc := .rw, dflt := fun _ => 255, rng := .orFF 31 },  -- AX_LIM_POS_PIN
  { sub := 0x5, ty := 2, acc := .rw, dflt := fun _ => 0, rng := .int 0 7 },  -- AX_LIM_POL
  { sub := 0x6, ty := 4, acc := .rw, dflt := fun _ => 1000, rng := .int 1 2147483648 },  -- AX_FE_LIMIT
  { sub := 0x7, ty := 3, acc := .rw, dflt := fun _ => 10, rng := .int 1 1000 },  -- AX_FE_MS
  { sub := 0x8, ty := 2, acc := .rw, dflt := fun _ => 255, rng := .orFF 31 }]  -- AX_HOME_PIN

def rows5018 : List ObjRow := [
  { sub := 0x1, ty := 2, acc := .rw, dflt := fun _ => 0, rng := .int 0 1 },  -- AX_MODE
  { sub := 0x2, ty := 10, acc := .rw, dflt := fun _ => 1065353216, rng := .real 0 1 },  -- AX_OUT_LIMIT
  { sub := 0x3, ty := 10, acc := .rw, dflt := fun _ => 1045220557, rng := .real 0 1 },  -- AX_FORCE_LIMIT
  { sub := 0x4, ty := 10, acc := .rw, dflt := fun _ => 1017370378, rng := .real 0 1 },  -- AX_HO_BAND
  { sub := 0x5, ty := 10, acc := .rw, dflt := fun _ => 1092616192, rng := .real (1 / 100) 10000 },  -- AX_HO_SLEW
  { sub := 0x6, ty := 10, acc := .rw, dflt := fun _ => 1120403456, rng := .real 0 1000000 },  -- AX_CONTACT_VEL
  { sub := 0x7, ty := 3, acc := .rw, dflt := fun _ => 20, rng := .int 1 10000 },  -- AX_CONTACT_MS
  { sub := 0x8, ty := 10, acc := .ro, dflt := fun _ => 0 }]  -- AX_OUTPUT

def rows5020 : List ObjRow := [
  { sub := 0x1, ty := 2, acc := .rw, dflt := fun _ => 255, rng := .orFF 31 },  -- AX_CUR_PWM
  { sub := 0x2, ty := 2, acc := .rw, dflt := fun _ => 100, rng := .int 0 100 },  -- AX_RUN_CUR
  { sub := 0x3, ty := 2, acc := .rw, dflt := fun _ => 50, rng := .int 0 100 },  -- AX_IDLE_CUR
  { sub := 0x4, ty := 3, acc := .rw, dflt := fun _ => 500, rng := .int 1 60000 },  -- AX_IDLE_MS
  { sub := 0x5, ty := 3, acc := .rw, dflt := fun _ => 500, rng := .int 0 50000 }]  -- AX_CUR_WAKE_US

def rows5028 : List ObjRow := [
  { sub := 0x1, ty := 2, acc := .rw, dflt := fun _ => 0, rng := .int 0 7 },  -- AX_CAM_TABLE
  { sub := 0x2, ty := 2, acc := .rw, dflt := fun _ => 0, rng := .list [(0, 23), (0x20, 0x37)] },  -- AX_CAM_MASTER
  { sub := 0x3, ty := 11, acc := .rw, dflt := fun _ => 0, rng := .int (-2 ^ 63) (2 ^ 63 - 1) },  -- AX_CAM_M0
  { sub := 0x4, ty := 11, acc := .rw, dflt := fun _ => 1024 * 2 ^ 32, rng := .int 1 (2 ^ 63 - 1) },  -- AX_CAM_SPAN
  { sub := 0x5, ty := 2, acc := .rw, dflt := fun _ => 0, rng := .int 0 1 },  -- AX_CAM_ENGAGE
  { sub := 0x6, ty := 2, acc := .ro, dflt := fun _ => 0 },  -- AX_CAM_STATE
  { sub := 0x7, ty := 4, acc := .rw, dflt := fun _ => 0, ctr := true, ovf := some (8, 1, 9) }]  -- AX_CAM_LAG_CNT

def rows5030 : List ObjRow := [
  { sub := 0x1, ty := 4, acc := .ro, dflt := fun _ => 1 },  -- AX_STATUS
  { sub := 0x2, ty := 4, acc := .rw, dflt := fun _ => 0, ctr := true, ovf := some (0, 1, 10) },  -- AX_MOVES
  { sub := 0x3, ty := 4, acc := .rw, dflt := fun _ => 0, ctr := true, ovf := some (0, 1, 11) },  -- AX_OVERSHOOT_CNT
  { sub := 0x4, ty := 11, acc := .ro, dflt := fun _ => 0 },  -- AX_FB_POS
  { sub := 0x5, ty := 4, acc := .rw, dflt := fun _ => 0 }]  -- AX_FE_PEAK

def rows5600 : List ObjRow := [
  { sub := 0x1, ty := 4, acc := .rw, dflt := fun _ => 50000, rng := .int 400 10000000 },  -- PWM_PERIOD_NS
  { sub := 0x2, ty := 2, acc := .rw, dflt := fun _ => 0, rng := .int 0 1 },  -- PWM_POL
  { sub := 0x3, ty := 10, acc := .rw, dflt := fun _ => 0, rng := .real 0 1 },  -- PWM_DUTY
  { sub := 0x4, ty := 2, acc := .ro, dflt := fun _ => 0 }]  -- PWM_OWNER

def rows5620 : List ObjRow := [
  { sub := 0x1, ty := 2, acc := .rw, dflt := fun _ => 0, rng := .int 0 1 },  -- VALVE_MODE
  { sub := 0x2, ty := 4, acc := .rw, dflt := fun _ => 1000000, rng := .int 100000 100000000 },  -- VALVE_PERIOD_NS
  { sub := 0x3, ty := 10, acc := .rw, dflt := fun _ => 0, rng := .real 0 1 },  -- VALVE_DUTY
  { sub := 0x4, ty := 2, acc := .ro, dflt := fun _ => 0 },  -- VALVE_OWNER
  { sub := 0x5, ty := 2, acc := .ro, dflt := fun _ => 0 }]  -- VALVE_LEVEL

def rows5640 : List ObjRow := [
  { sub := 0x1, ty := 4, acc := .rw, dflt := fun _ => 0 },  -- GPIO_DIR
  { sub := 0x2, ty := 4, acc := .rw, dflt := fun _ => 0 },  -- GPIO_OUT
  { sub := 0x3, ty := 4, acc := .ro, dflt := fun _ => 0 },  -- GPIO_IN
  { sub := 0x4, ty := 2, acc := .rw, dflt := fun _ => 10, rng := .int 0 50 },  -- GPIO_FILTER_US
  { sub := 0x5, ty := 4, acc := .ro, dflt := fun _ => 0 }]  -- GPIO_USE

def rows5650 : List ObjRow := [
  { sub := 0x1, ty := 3, acc := .rw, dflt := fun _ => 0 },  -- ADC_ENABLE
  { sub := 0x2, ty := 4, acc := .rw, dflt := fun _ => 10000, rng := .int 1000 1000000 },  -- ADC_RATE
  { sub := 0x3, ty := 13, acc := .ro, dflt := fun _ => 0, len := 32, esz := 2 }]  -- ADC_VALUE

def rows5800 : List ObjRow := [
  { sub := 0x1, ty := 1, acc := .rw, dflt := fun _ => 0, rng := .int 0 1 },  -- LP_ENABLE
  { sub := 0x2, ty := 3, acc := .rw, dflt := fun _ => 4369 },  -- LP_DIMS
  { sub := 0x3, ty := 2, acc := .rw, dflt := fun _ => 1, rng := .int 1 50 },  -- LP_DIV
  { sub := 0x4, ty := 2, acc := .rw, dflt := fun _ => 0 },  -- LP_PHASE
  { sub := 0x5, ty := 2, acc := .rw, dflt := fun _ => 0, rng := .int 0 1 },  -- LP_MODE
  { sub := 0x6, ty := 2, acc := .ro, dflt := fun _ => 0 },  -- LP_STATE
  { sub := 0x7, ty := 2, acc := .ro, dflt := fun _ => 255 }]  -- LP_AXIS

def rows5808 : List ObjRow := [
  { sub := 0x1, ty := 13, acc := .rw, dflt := fun _ => 0, len := 640, esz := 4 },  -- LP_OBSERVER
  { sub := 0x2, ty := 13, acc := .rw, dflt := fun _ => 0, len := 352, esz := 4 },  -- LP_LAW_0
  { sub := 0x3, ty := 13, acc := .rw, dflt := fun _ => 0, len := 352, esz := 4 }]  -- LP_LAW_1

def rows5810 : List ObjRow := [
  { sub := 0x1, ty := 4, acc := .rw, dflt := fun _ => 4294967295 },  -- LP_IN_SRC
  { sub := 0x2, ty := 13, acc := .rw, dflt := fun _ => 0, len := 16, esz := 4 },  -- LP_IN_GAIN
  { sub := 0x3, ty := 13, acc := .rw, dflt := fun _ => 0, len := 16, esz := 4 },  -- LP_IN_OFFS
  { sub := 0x4, ty := 4, acc := .rw, dflt := fun _ => 4278124286 },  -- LP_REF_SRC
  { sub := 0x5, ty := 13, acc := .rw, dflt := fun _ => 0, len := 16, esz := 4 },  -- LP_REF
  { sub := 0x6, ty := 4, acc := .rw, dflt := fun _ => 4294967295 },  -- LP_OUT_DST
  { sub := 0x7, ty := 13, acc := .rw, dflt := fun _ => 0, len := 16, esz := 4 },  -- LP_OUT_SCALE
  { sub := 0x8, ty := 13, acc := .rw, dflt := fun _ => 0, len := 16, esz := 4 }]  -- LP_OUT_OFFS

def rows5818 : List ObjRow := [
  { sub := 0x1, ty := 13, acc := .rw, dflt := fun _ => 0, len := 64, esz := 4 },  -- LP_ULIM
  { sub := 0x2, ty := 13, acc := .rw, dflt := fun _ => 0, len := 16, esz := 4 },  -- LP_URATE
  { sub := 0x3, ty := 2, acc := .rw, dflt := fun _ => 0, rng := .int 0 1 }]  -- LP_AW_MODE

def rows5820 : List ObjRow := [
  { sub := 0x1, ty := 2, acc := .rw, dflt := fun _ => 0, rng := .int 0 3 },  -- LP_FE_IN
  { sub := 0x2, ty := 2, acc := .rw, dflt := fun _ => 0, rng := .int 0 3 },  -- LP_FE_REF
  { sub := 0x3, ty := 10, acc := .rw, dflt := fun _ => 2139081118, rng := .posReal },  -- LP_FE_LIMIT
  { sub := 0x4, ty := 3, acc := .rw, dflt := fun _ => 100, rng := .int 1 10000 },  -- LP_FE_MS
  { sub := 0x5, ty := 2, acc := .rw, dflt := fun _ => 0, rng := .int 0 2 },  -- LP_FE_ACTION
  { sub := 0x6, ty := 2, acc := .rw, dflt := fun _ => 3, rng := .int 0 3 },  -- LP_FE_MODES
  { sub := 0x7, ty := 10, acc := .rw, dflt := fun _ => 0 },  -- LP_FE_PEAK
  { sub := 0x8, ty := 3, acc := .rw, dflt := fun _ => 10, rng := .int 1 65535 },  -- LP_INVALID_MAX
  { sub := 0x9, ty := 13, acc := .rw, dflt := fun _ => 0, len := 16, esz := 4 }]  -- LP_SAFE_OUT

def rows5828 : List ObjRow := [
  { sub := 0x1, ty := 10, acc := .rw, dflt := fun _ => 1017370378, rng := .real 0 2 },  -- LP_HO_BAND
  { sub := 0x2, ty := 10, acc := .rw, dflt := fun _ => 1092616192, rng := .real (1 / 100) 10000 },  -- LP_HO_SLEW
  { sub := 0x3, ty := 10, acc := .ro, dflt := fun _ => 0 }]  -- LP_HO_DIFF

def rows5830 : List ObjRow := [
  { sub := 0x1, ty := 5, acc := .rw, dflt := fun _ => 0 },  -- LP_TR_NODES
  { sub := 0x2, ty := 2, acc := .rw, dflt := fun _ => 1, rng := .int 1 8 },  -- LP_TR_CH
  { sub := 0x3, ty := 3, acc := .rw, dflt := fun _ => 1, rng := .int 1 256 },  -- LP_TR_DIV
  { sub := 0x4, ty := 2, acc := .rw, dflt := fun _ => 0, rng := .int 0 63 },  -- LP_TR_TRIG
  { sub := 0x5, ty := 10, acc := .rw, dflt := fun _ => 0 },  -- LP_TR_LEVEL
  { sub := 0x6, ty := 2, acc := .rw, dflt := fun _ => 1, rng := .int 1 7 },  -- LP_TR_EDGE
  { sub := 0x7, ty := 3, acc := .rw, dflt := fun _ => 1024, rng := .int 0 4095 },  -- LP_TR_PRE
  { sub := 0x8, ty := 2, acc := .rw, dflt := fun _ => 0, rng := .int 0 1 },  -- LP_TR_ARM
  { sub := 0x9, ty := 2, acc := .ro, dflt := fun _ => 0 },  -- LP_TR_STATE
  { sub := 0xa, ty := 2, acc := .wo, dflt := fun _ => 0, rng := .int 1 1 }]  -- LP_TR_FORCE

def rows5838 : List ObjRow := [
  { sub := 0x1, ty := 3, acc := .ro, dflt := fun _ => 0 },  -- LP_STATUS
  { sub := 0x2, ty := 4, acc := .rw, dflt := fun _ => 0, ctr := true, ovf := some (0, 1, 5) },  -- LP_SAT_CNT
  { sub := 0x3, ty := 4, acc := .rw, dflt := fun _ => 0, ctr := true, ovf := some (0, 1, 6) },  -- LP_FE_CNT
  { sub := 0x4, ty := 4, acc := .rw, dflt := fun _ => 0, ctr := true, ovf := some (0, 1, 7) },  -- LP_TRIP_CNT
  { sub := 0x5, ty := 4, acc := .rw, dflt := fun _ => 0, ctr := true, ovf := some (0, 1, 8) }]  -- LP_INVALID_CNT

def rows6000 : List ObjRow := [
  { sub := 0x1, ty := 1, acc := .rw, dflt := fun _ => 0, rng := .int 0 1 },  -- ENC_ENABLE
  { sub := 0x2, ty := 2, acc := .rw, dflt := fun _ => 0, rng := .int 0 1 },  -- ENC_PATH
  { sub := 0x3, ty := 2, acc := .rw, dflt := fun _ => 16, rng := .int 1 255 },  -- ENC_FILTER
  { sub := 0x4, ty := 4, acc := .rw, dflt := fun _ => 0, rng := .zeroOr 4 2147483648 },  -- ENC_REV_COUNTS
  { sub := 0x5, ty := 4, acc := .rw, dflt := fun _ => 0 },  -- ENC_INDEX_POS
  { sub := 0x6, ty := 2, acc := .rw, dflt := fun _ => 1, rng := .int 0 255 },  -- ENC_INDEX_TOL
  { sub := 0x7, ty := 2, acc := .rw, dflt := fun _ => 0, rng := .int 0 1 },  -- ENC_INDEX_MODE
  { sub := 0x8, ty := 5, acc := .ro, dflt := fun _ => 0 },  -- ENC_POS
  { sub := 0x9, ty := 4, acc := .ro, dflt := fun _ => 0 },  -- ENC_REV_POS
  { sub := 0xa, ty := 8, acc := .ro, dflt := fun _ => 0 },  -- ENC_SPEED
  { sub := 0xb, ty := 4, acc := .rw, dflt := fun i => if i = 0 then 7 else 5 },  -- ENC_STATUS
  { sub := 0xc, ty := 4, acc := .ro, dflt := fun _ => 0 },  -- ENC_LAST_EDGE
  { sub := 0xd, ty := 8, acc := .ro, dflt := fun _ => 0 },  -- ENC_INDEX_DEV
  { sub := 0xe, ty := 4, acc := .ro, dflt := fun _ => 0 },  -- ENC_INDEX_STAMP
  { sub := 0xf, ty := 3, acc := .rw, dflt := fun _ => 16, rng := .int 2 256 },  -- ENC_SPEED_EDGES
  { sub := 0x10, ty := 3, acc := .rw, dflt := fun _ => 10, rng := .int 1 1000 },  -- ENC_STANDSTILL_MS
  { sub := 0x11, ty := 4, acc := .rw, dflt := fun _ => 0, ctr := true, ovf := some (0, 11, 27) },  -- ENC_ILLEGAL_CNT
  { sub := 0x12, ty := 4, acc := .rw, dflt := fun _ => 0, ctr := true, ovf := some (0, 11, 26) },  -- ENC_DOUBLE_CNT
  { sub := 0x13, ty := 4, acc := .rw, dflt := fun _ => 0, ctr := true, ovf := some (0, 11, 25) },  -- ENC_INDEX_MISS_CNT
  { sub := 0x14, ty := 2, acc := .rw, dflt := fun _ => 0 },  -- ENC_IRQ_VEC
  { sub := 0x15, ty := 4, acc := .rw, dflt := fun _ => 268435460 }]  -- ENC_IRQ_MASK

def rows6020 : List ObjRow := [
  { sub := 0x1, ty := 2, acc := .rw, dflt := fun _ => 0, rng := .int 0 1 },  -- WEB_SEL
  { sub := 0x2, ty := 5, acc := .ro, dflt := fun _ => 0 },  -- WEB_POS
  { sub := 0x3, ty := 4, acc := .rw, dflt := fun _ => 1000000, rng := .int 1000 2147483648 },  -- WEB_CMP_SPAN
  { sub := 0x4, ty := 4, acc := .rw, dflt := fun _ => 200, rng := .int 1 1000000 },  -- WEB_CMP_WINDOW
  { sub := 0x5, ty := 2, acc := .ro, dflt := fun _ => 0 },  -- WEB_DISAGREE
  { sub := 0x6, ty := 4, acc := .rw, dflt := fun _ => 0, ctr := true, ovf := some (0, 5, 7) }]  -- WEB_DISAGREE_CNT

def rows6040 : List ObjRow := [
  { sub := 0x1, ty := 2, acc := .rw, dflt := fun _ => 1, rng := .int 0 2 },  -- TOF_EDGE
  { sub := 0x2, ty := 2, acc := .rw, dflt := fun _ => 16, rng := .int 1 255 },  -- TOF_FILTER
  { sub := 0x3, ty := 11, acc := .ro, dflt := fun _ => 0 },  -- TOF_POS
  { sub := 0x4, ty := 4, acc := .ro, dflt := fun _ => 0 },  -- TOF_STAMP
  { sub := 0x5, ty := 4, acc := .rw, dflt := fun _ => 0, rng := .int 0 2147483648 },  -- TOF_PITCH
  { sub := 0x6, ty := 4, acc := .rw, dflt := fun _ => 0, rng := .int 0 1000000 },  -- TOF_TOL
  { sub := 0x7, ty := 4, acc := .rw, dflt := fun _ => 1000, rng := .int 1 2147483648 },  -- TOF_MIN_GAP
  { sub := 0x8, ty := 4, acc := .rw, dflt := fun _ => 0, ctr := true, ovf := some (0, 10, 0) },  -- TOF_REJECT_CNT
  { sub := 0x9, ty := 4, acc := .rw, dflt := fun _ => 0, ctr := true, ovf := some (0, 10, 1) },  -- TOF_MISSING_CNT
  { sub := 0xa, ty := 2, acc := .ro, dflt := fun _ => 0 }]  -- TOF_STATUS

def rows6100 : List ObjRow := [
  { sub := 0x1, ty := 2, acc := .rw, dflt := fun _ => 0, rng := .int 0 2 },  -- AXE_MODE
  { sub := 0x2, ty := 2, acc := .rw, dflt := fun _ => 16, rng := .int 1 255 },  -- AXE_FILTER
  { sub := 0x3, ty := 5, acc := .ro, dflt := fun _ => 0 },  -- AXE_POS
  { sub := 0x4, ty := 4, acc := .rw, dflt := fun _ => 5 },  -- AXE_STATUS
  { sub := 0x5, ty := 8, acc := .ro, dflt := fun _ => 0 },  -- AXE_SPEED
  { sub := 0x6, ty := 5, acc := .ro, dflt := fun _ => 0 },  -- AXE_INDEX_LATCH
  { sub := 0x7, ty := 3, acc := .rw, dflt := fun _ => 2000, rng := .int 100 10000 },  -- AXE_SSI_CLK
  { sub := 0x8, ty := 4, acc := .rw, dflt := fun _ => 8388633 },  -- AXE_SSI_FRAME
  { sub := 0x9, ty := 2, acc := .rw, dflt := fun _ => 0, rng := .int 0 255 },  -- AXE_SSI_DELAY
  { sub := 0xa, ty := 3, acc := .rw, dflt := fun _ => 10000, rng := .int 1000 50000 },  -- AXE_SSI_RATE
  { sub := 0xb, ty := 2, acc := .rw, dflt := fun _ => 20, rng := .int 1 100 },  -- AXE_SSI_RECOVERY
  { sub := 0xc, ty := 4, acc := .rw, dflt := fun _ => 0, rng := .int 0 2147483648 },  -- AXE_SSI_JUMP
  { sub := 0xd, ty := 2, acc := .rw, dflt := fun _ => 3, rng := .int 1 255 },  -- AXE_SSI_ERRMAX
  { sub := 0xe, ty := 4, acc := .rw, dflt := fun _ => 0, ctr := true, ovf := some (0, 4, 27) }]  -- AXE_ERR_CNT

def rows6300 : List ObjRow := [
  { sub := 0x1, ty := 2, acc := .rw, dflt := fun _ => 0, rng := .zeroOr 0x10 0x27 },  -- CMP_SOURCE
  { sub := 0x2, ty := 2, acc := .rw, dflt := fun _ => 0, rng := .int 0 2 },  -- CMP_ARM
  { sub := 0x3, ty := 5, acc := .rw, dflt := fun _ => 0 },  -- CMP_START
  { sub := 0x4, ty := 2, acc := .rw, dflt := fun _ => 0, rng := .int 0 7 },  -- CMP_TOF
  { sub := 0x5, ty := 4, acc := .rw, dflt := fun _ => 1000, rng := .int 4 1000000000 },  -- CMP_WIDTH
  { sub := 0x6, ty := 2, acc := .rw, dflt := fun _ => 0, rng := .int 0 3 },  -- CMP_MODE
  { sub := 0x7, ty := 13, acc := .rwb, dflt := fun _ => 8, cls := 4, esz := 8 },  -- CMP_LIST
  { sub := 0x8, ty := 4, acc := .rw, dflt := fun _ => 0, ctr := true, ovf := some (0, 10, 14) },  -- CMP_MISSED_CNT
  { sub := 0x9, ty := 4, acc := .rw, dflt := fun _ => 0, ctr := true, ovf := some (0, 10, 15) },  -- CMP_OVERLAP_CNT
  { sub := 0xa, ty := 3, acc := .ro, dflt := fun _ => 0 }]  -- CMP_STATUS

def rows6400 : List ObjRow := [
  { sub := 0x1, ty := 1, acc := .rw, dflt := fun _ => 0, rng := .int 0 1 },  -- CAM_ENABLE
  { sub := 0x2, ty := 2, acc := .rw, dflt := fun i => 4 * i, rng := .int 0 15 },  -- CAM_LINK_FIRST
  { sub := 0x3, ty := 2, acc := .rw, dflt := fun _ => 4, rng := .int 1 4 },  -- CAM_LINKS
  { sub := 0x4, ty := 2, acc := .ro, dflt := fun _ => 0 },  -- CAM_STATE
  { sub := 0x5, ty := 2, acc := .wo, dflt := fun _ => 0, rng := .int 1 1 },  -- CAM_ACQUIRE
  { sub := 0x6, ty := 2, acc := .rw, dflt := fun _ => 1, rng := .int 0 1 },  -- CAM_PIXEL_FORMAT
  { sub := 0x7, ty := 3, acc := .rw, dflt := fun _ => 8192, rng := .int 64 16384 },  -- CAM_WIDTH
  { sub := 0x8, ty := 3, acc := .rwb, dflt := fun _ => 0, cls := 3 },  -- CAM_PX_FIRST
  { sub := 0x9, ty := 3, acc := .rwb, dflt := fun i => if i = 3 then 7711 else 8191, cls := 3 },  -- CAM_PX_LAST
  { sub := 0xa, ty := 3, acc := .rwb, dflt := fun i => 8192 * i, rng := .int 0 32287, cls := 3 },  -- CAM_X0
  { sub := 0xb, ty := 11, acc := .rwb, dflt := fun _ => 0, rng := .int 0 (2 ^ 63 - 1), cls := 3 },  -- CAM_OFFSET
  { sub := 0xc, ty := 2, acc := .rwb, dflt := fun _ => 2, rng := .int 2 4, cls := 3 },  -- CAM_LINE_PITCHES
  { sub := 0xd, ty := 2, acc := .rwb, dflt := fun _ => 255, rng := .orFF 15, cls := 3 },  -- CAM_TRIG_SRC
  { sub := 0xe, ty := 3, acc := .rw, dflt := fun _ => 2000, rng := .int 500 20000 },  -- CAM_TRIG_LAT
  { sub := 0xf, ty := 2, acc := .rw, dflt := fun _ => 2, rng := .int 0 15 },  -- CAM_SET_LATENCY
  { sub := 0x10, ty := 4, acc := .ro, dflt := fun _ => 0 },  -- CAM_SET_EPOCH
  { sub := 0x11, ty := 4, acc := .ro, dflt := fun _ => 0 },  -- CAM_FRAME_NO
  { sub := 0x12, ty := 3, acc := .rw, dflt := fun _ => 100, rng := .int 1 10000 },  -- CAM_TIMEOUT
  { sub := 0x13, ty := 3, acc := .rw, dflt := fun _ => 1000, rng := .int 10 50000 },  -- CAM_CLOSE_US
  { sub := 0x14, ty := 4, acc := .rw, dflt := fun _ => 0 },  -- CAM_REG_ADDR
  { sub := 0x15, ty := 3, acc := .rw, dflt := fun _ => 4, rng := .mult 4 4 256 },  -- CAM_REG_LEN
  { sub := 0x16, ty := 13, acc := .rw, dflt := fun _ => 0, len := 256, esz := 1 },  -- CAM_REG_DATA
  { sub := 0x17, ty := 2, acc := .wo, dflt := fun _ => 0, rng := .int 1 3 },  -- CAM_REG_OP
  { sub := 0x18, ty := 2, acc := .ro, dflt := fun _ => 0 }]  -- CAM_REG_STATUS

def rows6401 : List ObjRow := [
  { sub := 0x1, ty := 4, acc := .rw, dflt := fun _ => 0, ctr := true, ovf := some (0, 10, 0) },  -- CAM_FRAMES
  { sub := 0x2, ty := 4, acc := .rw, dflt := fun _ => 0, ctr := true, ovf := some (0, 10, 1) },  -- CAM_SHORT_CNT
  { sub := 0x3, ty := 4, acc := .rw, dflt := fun _ => 0, ctr := true, ovf := some (0, 10, 2) },  -- CAM_LONG_CNT
  { sub := 0x4, ty := 4, acc := .rw, dflt := fun _ => 0, ctr := true, ovf := some (0, 10, 3) },  -- CAM_EXTRA_LINES
  { sub := 0x5, ty := 4, acc := .rw, dflt := fun _ => 0, ctr := true, ovf := some (0, 10, 4) },  -- CAM_NODATA_LINES
  { sub := 0x6, ty := 4, acc := .rw, dflt := fun _ => 0, ctr := true, ovf := some (0, 10, 5) },  -- CAM_CRC_ERR_0
  { sub := 0x7, ty := 4, acc := .rw, dflt := fun _ => 0, ctr := true, ovf := some (0, 10, 6) },  -- CAM_CRC_ERR_1
  { sub := 0x8, ty := 4, acc := .rw, dflt := fun _ => 0, ctr := true, ovf := some (0, 10, 7) },  -- CAM_CRC_ERR_2
  { sub := 0x9, ty := 4, acc := .rw, dflt := fun _ => 0, ctr := true, ovf := some (0, 10, 8) },  -- CAM_CRC_ERR_3
  { sub := 0xa, ty := 3, acc := .ro, dflt := fun _ => 0 }]  -- CAM_CNT_STATUS

def rows6402 : List ObjRow := [
  { sub := 0x1, ty := 13, acc := .rwb, dflt := fun _ => 0, cls := 3, len := 49152, esz := 1 },  -- NIM_DARK
  { sub := 0x2, ty := 13, acc := .rwb, dflt := fun _ => 0, cls := 3, len := 98304, esz := 1 },  -- NIM_FLAT
  { sub := 0x3, ty := 13, acc := .rwb, dflt := fun _ => 0, cls := 3, len := 32768, esz := 1 }]  -- NIM_GEOM

def rows6500 : List ObjRow := [
  { sub := 0x1, ty := 1, acc := .rwb, dflt := fun _ => 1, rng := .int 0 1, cls := 3 },  -- NIM_ENABLE
  { sub := 0x2, ty := 2, acc := .rwb, dflt := fun _ => 40, rng := .int 1 255, cls := 3 },  -- NIM_PIX_THRESH
  { sub := 0x3, ty := 2, acc := .rwb, dflt := fun _ => 16, rng := .int 1 64, cls := 3 },  -- NIM_CELL_COUNT
  { sub := 0x4, ty := 2, acc := .rwb, dflt := fun _ => 20, rng := .int 5 100, cls := 3 },  -- NIM_COL_SUSPECT
  { sub := 0x5, ty := 2, acc := .rwb, dflt := fun _ => 30, rng := .int 0 100, cls := 3 },  -- NIM_COL_DEFECT
  { sub := 0x6, ty := 2, acc := .rwb, dflt := fun _ => 80, rng := .int 50 100, cls := 3 },  -- NIM_ATTR_MIN
  { sub := 0x7, ty := 2, acc := .rwb, dflt := fun _ => 20, rng := .int 1 100, cls := 3 },  -- NIM_ATTR_MARGIN
  { sub := 0x8, ty := 3, acc := .rwb, dflt := fun _ => 128, rng := .int 1 4096, cls := 3 },  -- NIM_JUDGE_MIN
  { sub := 0x9, ty := 3, acc := .rwb, dflt := fun _ => 1024, rng := .int 64 65535, cls := 3 },  -- NIM_REG_MIN
  { sub := 0xa, ty := 3, acc := .rwb, dflt := fun _ => 8, rng := .int 1 4096, cls := 3 },  -- NIM_REG_MIN_TILES
  { sub := 0xb, ty := 3, acc := .rwb, dflt := fun _ => 2500, rng := .int 100 20000, cls := 3 },  -- NIM_REG_LIMIT
  { sub := 0xc, ty := 2, acc := .rwb, dflt := fun _ => 50, rng := .int 1 100, cls := 3 },  -- NIM_OBS_MIN
  { sub := 0xd, ty := 3, acc := .rwb, dflt := fun _ => 1024, rng := .int 1 65535, cls := 3 },  -- NIM_DEFECT_MAX
  { sub := 0xe, ty := 2, acc := .rwb, dflt := fun _ => 7, rng := .int 0 15, cls := 3 },  -- NIM_STREAM_EN
  { sub := 0xf, ty := 3, acc := .rwb, dflt := fun _ => 64, rng := .int 0 4096, cls := 3 },  -- NIM_S0_MAX
  { sub := 0x10, ty := 2, acc := .rwb, dflt := fun _ => 3, rng := .int 2 4, cls := 3 },  -- NIM_S1_SCALE
  { sub := 0x11, ty := 2, acc := .rwb, dflt := fun _ => 3, rng := .int 1 9, cls := 3 },  -- NIM_S2_LEVEL
  { sub := 0x12, ty := 13, acc := .rwb, dflt := fun _ => 0, cls := 3, len := 12, esz := 1 },  -- NIM_S3_RECT
  { sub := 0x13, ty := 2, acc := .rw, dflt := fun _ => 4, rng := .int 1 64 },  -- NIM_EVID_SIZE
  { sub := 0x14, ty := 4, acc := .ro, dflt := fun _ => 0 },  -- NIM_EVID_PROD
  { sub := 0x15, ty := 4, acc := .rw, dflt := fun _ => 0 },  -- NIM_EVID_FREE
  { sub := 0x16, ty := 3, acc := .rw, dflt := fun _ => 64, rng := .int 1 4096 }]  -- NIM_EVID_RESERVE

def rows6501 : List ObjRow := [
  { sub := 0x1, ty := 13, acc := .rwb, dflt := fun _ => 0, cls := 3, len := 768, esz := 1 },  -- NIM_PRIMARIES
  { sub := 0x2, ty := 13, acc := .rwb, dflt := fun _ => 0, cls := 3, len := 32, esz := 1 },  -- NIM_COVERAGE
  { sub := 0x3, ty := 13, acc := .rwb, dflt := fun _ => 0, cls := 3, len := 400, esz := 1 }]  -- NIM_KERNEL

def rows6502 : List ObjRow := [
  { sub := 0x1, ty := 4, acc := .rw, dflt := fun _ => 0, ctr := true, ovf := some (0, 6, 0) },  -- NIM_PASS_CNT
  { sub := 0x2, ty := 4, acc := .rw, dflt := fun _ => 0, ctr := true, ovf := some (0, 6, 1) },  -- NIM_DEFECT_CNT
  { sub := 0x3, ty := 4, acc := .rw, dflt := fun _ => 0, ctr := true, ovf := some (0, 6, 2) },  -- NIM_INDET_CNT
  { sub := 0x4, ty := 4, acc := .rw, dflt := fun _ => 0, ctr := true, ovf := some (0, 6, 3) },  -- NIM_UNVERIFIED_CNT
  { sub := 0x5, ty := 4, acc := .rw, dflt := fun _ => 0, ctr := true, ovf := some (0, 6, 4) },  -- NIM_EVID_LOST_CNT
  { sub := 0x6, ty := 2, acc := .ro, dflt := fun _ => 0 }]  -- NIM_CNT_STATUS

def rows6800 : List ObjRow := [
  { sub := 0x1, ty := 2, acc := .ro, dflt := fun _ => 0 },  -- DRAM_STATE
  { sub := 0x2, ty := 3, acc := .rw, dflt := fun _ => 6400, rng := .list [(4800, 4800), (5600, 5600), (6400, 6400)] },  -- DRAM_RATE
  { sub := 0x3, ty := 4, acc := .ro, dflt := fun _ => 0 },  -- DRAM_USABLE_MIB
  { sub := 0x4, ty := 3, acc := .rw, dflt := fun _ => 16, rng := .int 1 192 },  -- DRAM_POOL_GIB
  { sub := 0x5, ty := 13, acc := .ro, dflt := fun _ => 0, len := 112, esz := 16 },  -- DRAM_REGIONS
  { sub := 0x6, ty := 2, acc := .rw, dflt := fun _ => 4, rng := .int 0 4 },  -- DRAM_REF_POSTPONE
  { sub := 0x7, ty := 7, acc := .rw, dflt := fun _ => 850, rng := .int 700 950 },  -- DRAM_REF2X_C
  { sub := 0x8, ty := 2, acc := .rw, dflt := fun _ => 20, rng := .int 5 100 },  -- DRAM_REF2X_HYST
  { sub := 0x9, ty := 2, acc := .rw, dflt := fun _ => 24, rng := .int 1 24 },  -- DRAM_SCRUB_H
  { sub := 0xa, ty := 4, acc := .rw, dflt := fun _ => 1000, rng := .int 1 2147483648 },  -- DRAM_SUSPECT_CE
  { sub := 0xb, ty := 3, acc := .rw, dflt := fun _ => 200, rng := .int 0 10000 },  -- DRAM_ROW_IDLE_NS
  { sub := 0xc, ty := 3, acc := .rw, dflt := fun _ => 1000, rng := .int 100 60000 },  -- DRAM_PD_NS
  { sub := 0xd, ty := 3, acc := .rw, dflt := fun _ => 100, rng := .int 10 10000 },  -- DRAM_DRIFT_MS
  { sub := 0xe, ty := 2, acc := .rw, dflt := fun _ => 4, rng := .int 1 32 },  -- DRAM_DRIFT_TAPS
  { sub := 0xf, ty := 2, acc := .rw, dflt := fun _ => 2, rng := .int 0 16 },  -- DRAM_CAL_AGREE
  { sub := 0x10, ty := 2, acc := .rw, dflt := fun _ => 16, rng := .int 4 48 },  -- DRAM_EYE_MIN
  { sub := 0x11, ty := 13, acc := .rw, dflt := fun _ => 0, len := 32, esz := 4 },  -- DRAM_PORT_TARGET
  { sub := 0x12, ty := 13, acc := .rw, dflt := fun _ => 0, ctr := true, len := 32, esz := 4 },  -- DRAM_LATE_CNT
  { sub := 0x13, ty := 5, acc := .ro, dflt := fun _ => 0 },  -- DRAM_SWEEP_CTRL
  { sub := 0x14, ty := 13, acc := .ro, dflt := fun _ => 0, len := 2056, esz := 8 }]  -- DRAM_SWEEP_RESULT

def rows6810 : List ObjRow := [
  { sub := 0x1, ty := 4, acc := .rw, dflt := fun _ => 0, ctr := true, ovf := some (0, 6, 0) },  -- DRAM_CE_CNT
  { sub := 0x2, ty := 4, acc := .rw, dflt := fun _ => 0, ctr := true, ovf := some (0, 6, 1) },  -- DRAM_UE_CNT
  { sub := 0x3, ty := 13, acc := .rw, dflt := fun _ => 0, ctr := true, len := 40, esz := 4, ovf := some (0, 6, 2) },  -- DRAM_DEV_CE
  { sub := 0x4, ty := 7, acc := .ro, dflt := fun _ => 0 },  -- DRAM_TEMP
  { sub := 0x5, ty := 2, acc := .ro, dflt := fun _ => 0 },  -- DRAM_REF_OWED
  { sub := 0x6, ty := 2, acc := .ro, dflt := fun _ => 0 }]  -- DRAM_STATUS

def rows6820 : List ObjRow := [
  { sub := 0x1, ty := 13, acc := .ro, dflt := fun _ => 0, len := 256, esz := 1 },  -- CAL_DELAY_SET
  { sub := 0x2, ty := 7, acc := .ro, dflt := fun _ => 0 },  -- CAL_T_REF_D
  { sub := 0x3, ty := 2, acc := .ro, dflt := fun _ => 0 },  -- CAL_EYE_UI_D
  { sub := 0x4, ty := 2, acc := .ro, dflt := fun _ => 1 },  -- CAL_STATE_D
  { sub := 0x5, ty := 4, acc := .rw, dflt := fun _ => 0, ctr := true, ovf := some (0, 4, 7) }]  -- CAL_DISAGREE_D

def rows6C00 : List ObjRow := [
  { sub := 0x1, ty := 2, acc := .ro, dflt := fun i => laneGroup i },  -- LANE_GROUP
  { sub := 0x2, ty := 4, acc := .rw, dflt := fun i => laneRate0 i },  -- LANE_RATE
  { sub := 0x3, ty := 3, acc := .ro, dflt := fun _ => 0 },  -- LANE_STATUS
  { sub := 0x4, ty := 2, acc := .rw, dflt := fun _ => 0, rng := .int 0 1 },  -- LANE_MODE
  { sub := 0x5, ty := 2, acc := .rw, dflt := fun _ => 0, rng := .int 0 2 },  -- LANE_LOOP
  { sub := 0x6, ty := 2, acc := .wo, dflt := fun _ => 0, rng := .int 1 1 },  -- LANE_SLIP
  { sub := 0x7, ty := 2, acc := .wo, dflt := fun _ => 0, rng := .int 1 1 },  -- LANE_RETRAIN
  { sub := 0x8, ty := 4, acc := .ro, dflt := fun i => laneTaps0 i },  -- LANE_TX_TAPS
  { sub := 0x9, ty := 4, acc := .ro, dflt := fun _ => 0 },  -- LANE_RX_EQ
  { sub := 0xa, ty := 4, acc := .rw, dflt := fun _ => 0, ctr := true, ovf := some (0, 3, 8) }]  -- LANE_LOCK_LOSS_CNT

def rows6C01 : List ObjRow := [
  { sub := 0x1, ty := 2, acc := .wo, dflt := fun _ => 0, rng := .int 1 2 },  -- LANE_EYE_START
  { sub := 0x2, ty := 2, acc := .ro, dflt := fun _ => 0 },  -- LANE_EYE_STATE
  { sub := 0x3, ty := 2, acc := .ro, dflt := fun _ => 0 },  -- LANE_EYE_W
  { sub := 0x4, ty := 3, acc := .ro, dflt := fun _ => 0 },  -- LANE_EYE_H
  { sub := 0x5, ty := 4, acc := .rw, dflt := fun _ => 1000000, rng := .int 1000 1000000000 },  -- LANE_EYE_DWELL
  { sub := 0x6, ty := 4, acc := .rw, dflt := fun _ => 0, rng := .int 0 1000000 },  -- LANE_EYE_THRESH
  { sub := 0x7, ty := 13, acc := .ro, dflt := fun _ => 0, len := 4096, esz := 1 },  -- LANE_EYE_MAP
  { sub := 0x8, ty := 2, acc := .rw, dflt := fun _ => 19, rng := .int 1 64 },  -- LANE_EYE_MIN_W
  { sub := 0x9, ty := 3, acc := .rw, dflt := fun _ => 30, rng := .int 1 256 },  -- LANE_EYE_MIN_H
  { sub := 0xa, ty := 4, acc := .ro, dflt := fun _ => 0 }]  -- LANE_EYE_STAMP

def rows6C02 : List ObjRow := [
  { sub := 0x1, ty := 2, acc := .rw, dflt := fun _ => 0, rng := .int 0 6 },  -- LANE_PAT_GEN
  { sub := 0x2, ty := 2, acc := .rw, dflt := fun _ => 0, rng := .int 0 6 },  -- LANE_PAT_CHK
  { sub := 0x3, ty := 13, acc := .rw, dflt := fun _ => 0, len := 16, esz := 1 },  -- LANE_USER_PAT
  { sub := 0x4, ty := 2, acc := .rw, dflt := fun _ => 128, rng := .int 8 128 },  -- LANE_USER_LEN
  { sub := 0x5, ty := 2, acc := .wo, dflt := fun _ => 0, rng := .int 1 2 },  -- LANE_INJECT
  { sub := 0x6, ty := 2, acc := .rw, dflt := fun _ => 8, rng := .int 1 64 },  -- LANE_INJ_BURST
  { sub := 0x7, ty := 5, acc := .rw, dflt := fun _ => 0, ctr := true, ovf := some (0, 10, 1) },  -- LANE_PRBS_BITS
  { sub := 0x8, ty := 5, acc := .rw, dflt := fun _ => 0, ctr := true, ovf := some (0, 10, 2) },  -- LANE_PRBS_ERR
  { sub := 0x9, ty := 4, acc := .rw, dflt := fun _ => 0, ctr := true, ovf := some (0, 10, 3) },  -- LANE_PRBS_RELOCK
  { sub := 0xa, ty := 2, acc := .ro, dflt := fun _ => 0 }]  -- LANE_PAT_STATUS

def rows6C03 : List ObjRow := [
  { sub := 0x1, ty := 6, acc := .ro, dflt := fun _ => 0 },  -- CAL_PHASE
  { sub := 0x2, ty := 7, acc := .ro, dflt := fun _ => 0 },  -- CAL_T_REF_N
  { sub := 0x3, ty := 2, acc := .ro, dflt := fun _ => 0 },  -- CAL_EYE_UI_N
  { sub := 0x4, ty := 2, acc := .ro, dflt := fun _ => 1 },  -- CAL_STATE_N
  { sub := 0x5, ty := 4, acc := .rw, dflt := fun _ => 0, ctr := true, ovf := some (0, 4, 7) }]  -- CAL_DISAGREE_N

def rows7000 : List ObjRow := [
  { sub := 0x1, ty := 4, acc := .wo, dflt := fun _ => 0 },  -- STR_ABORT
  { sub := 0x2, ty := 3, acc := .ro, dflt := fun _ => 0 },  -- STR_STREAMS_OPEN
  { sub := 0x3, ty := 4, acc := .ro, dflt := fun _ => 0 },  -- STR_NIM_BACKLOG
  { sub := 0x4, ty := 4, acc := .rw, dflt := fun _ => 0, ctr := true, ovf := some (0, 9, 0) },  -- STR_JOBS_CNT
  { sub := 0x5, ty := 4, acc := .rw, dflt := fun _ => 0, ctr := true, ovf := some (0, 9, 1) },  -- STR_NOT_SMALLER_CNT
  { sub := 0x6, ty := 4, acc := .rw, dflt := fun _ => 0, ctr := true, ovf := some (0, 9, 2) },  -- STR_ERROR_CNT
  { sub := 0x7, ty := 5, acc := .rw, dflt := fun _ => 0, ctr := true, ovf := some (0, 9, 3) },  -- STR_IN_BYTES
  { sub := 0x8, ty := 5, acc := .rw, dflt := fun _ => 0, ctr := true, ovf := some (0, 9, 4) },  -- STR_OUT_BYTES
  { sub := 0x9, ty := 2, acc := .ro, dflt := fun _ => 0 }]  -- STR_STATUS

def rows7800 : List ObjRow := [
  { sub := 0x1, ty := 13, acc := .ro, dflt := fun _ => 0, len := 2048, esz := 32 },  -- FLT_TABLE
  { sub := 0x2, ty := 4, acc := .wo, dflt := fun _ => 0 },  -- FLT_CLEAR
  { sub := 0x3, ty := 13, acc := .ro, dflt := fun _ => 0, len := 32, esz := 1 },  -- FLT_FEC_SAFETY
  { sub := 0x4, ty := 13, acc := .ro, dflt := fun _ => 0, len := 32, esz := 1 },  -- FLT_FEC_SERVICE
  { sub := 0x5, ty := 13, acc := .ro, dflt := fun _ => 0, len := 32, esz := 1 },  -- FLT_FEC_ADVISORY
  { sub := 0x6, ty := 2, acc := .wo, dflt := fun _ => 0, rng := .int 0 7 },  -- FLT_FEC_CLEAR
  { sub := 0x7, ty := 4, acc := .rw, dflt := fun _ => 0, ctr := true, ovf := some (0, 10, 2) },  -- FLT_OFF_CNT
  { sub := 0x8, ty := 4, acc := .rw, dflt := fun _ => 0, ctr := true, ovf := some (0, 10, 3) },  -- FLT_LOST_CNT
  { sub := 0x9, ty := 4, acc := .rw, dflt := fun _ => 0, ctr := true, ovf := some (0, 10, 4) },  -- FLT_ALERT_CNT
  { sub := 0xa, ty := 2, acc := .ro, dflt := fun _ => 1 }]  -- FLT_STATUS

def rows7C00 : List ObjRow := [
  { sub := 0x1, ty := 2, acc := .ro, dflt := fun _ => 0 },  -- TWIN_STATE
  { sub := 0x2, ty := 4, acc := .ro, dflt := fun _ => 1 },  -- TWIN_EPOCH
  { sub := 0x3, ty := 1, acc := .rws, dflt := fun _ => 1, rng := .int 0 1 },  -- TWIN_ENABLE
  { sub := 0x4, ty := 2, acc := .rws, dflt := fun _ => 0, rng := .int 1 2 },  -- TWIN_CMD
  { sub := 0x5, ty := 5, acc := .ro, dflt := fun _ => 0 },  -- TWIN_PARTNER_ID
  { sub := 0x6, ty := 2, acc := .ro, dflt := fun _ => 0 },  -- TWIN_LANES
  { sub := 0x7, ty := 8, acc := .ro, dflt := fun _ => 0 },  -- TWIN_TIME_ERR
  { sub := 0x8, ty := 4, acc := .ro, dflt := fun _ => 0 },  -- TWIN_LAG
  { sub := 0x9, ty := 3, acc := .rw, dflt := fun _ => 500, rng := .int 100 10000 },  -- TWIN_ELECT_MS
  { sub := 0xa, ty := 2, acc := .ro, dflt := fun _ => 0 },  -- TWIN_SYNC_JOBS
  { sub := 0xb, ty := 4, acc := .rw, dflt := fun _ => 0, ctr := true, ovf := some (0, 13, 0) },  -- TWIN_TAKEOVER_CNT
  { sub := 0xc, ty := 4, acc := .rw, dflt := fun _ => 0, ctr := true, ovf := some (0, 13, 1) },  -- TWIN_RETX_CNT
  { sub := 0xd, ty := 2, acc := .ro, dflt := fun _ => 0 }]  -- TWIN_STATUS

def rows8000 : List ObjRow := [
  { sub := 0x1, ty := 13, acc := .rwb, dflt := fun _ => 0, cls := 1, len := 32768, esz := 4 },  -- NOZZLE_PARAM
  { sub := 0x2, ty := 13, acc := .rw, dflt := fun _ => 0, ctr := true, len := 65536, esz := 8 },  -- WEAR
  { sub := 0x3, ty := 13, acc := .wo, dflt := fun _ => 0, len := 65536, esz := 8 },  -- WEAR_RESTORE
  { sub := 0x4, ty := 13, acc := .ro, dflt := fun _ => 0, len := 2048, esz := 1 }]  -- DEFECT_MAP

def rows8100 : List ObjRow := [
  { sub := 0x1, ty := 13, acc := .rwb, dflt := fun _ => 0, cls := 1, len := 140, esz := 1 },  -- WAVE_TABLE
  { sub := 0x2, ty := 4, acc := .ro, dflt := fun _ => 0 },  -- WAVE_ACTIVE_ID
  { sub := 0x3, ty := 2, acc := .ro, dflt := fun _ => 0 },  -- WAVE_LOAD_STATE
  { sub := 0x4, ty := 4, acc := .rw, dflt := fun _ => 0, ctr := true }]  -- WAVE_SLIP_CNT

def rows8200 : List ObjRow := [
  { sub := 0x1, ty := 13, acc := .rw, dflt := fun _ => 0, len := 4100, esz := 1 }]  -- CAM_TABLE

def rows8300 : List ObjRow := [
  { sub := 0x1, ty := 2, acc := .ro, dflt := fun _ => 0 },  -- BASE_COUNT
  { sub := 0x2, ty := 13, acc := .ro, dflt := fun _ => 0, len := 256, esz := 16 }]  -- BASE_TABLE

def rows8400 : List ObjRow := [
  { sub := 0x1, ty := 13, acc := .ro, dflt := fun _ => 0, esz := 4 },  -- TRACE_DATA
  { sub := 0x2, ty := 4, acc := .ro, dflt := fun _ => 0 }]  -- TRACE_TRIG_STAMP

def rowsF000 : List ObjRow := [
  { sub := 0x1, ty := 4, acc := .wo, dflt := fun _ => 0 },  -- DIAG_INJECT
  { sub := 0x2, ty := 2, acc := .ro, dflt := fun _ => 0 }]  -- DIAG_INJECTED

def groups0 : List ObjGroup := [
  ⟨0x1000, 0x1, 1, rows1000⟩,
  ⟨0x1100, 0x1, 1, rows1100⟩,
  ⟨0x1110, 0x1, 2, rows1110⟩,
  ⟨0x1800, 0x1, 1, rows1800⟩,
  ⟨0x1900, 0x1, 1, rows1900⟩,
  ⟨0x2000, 0x1, 1, rows2000⟩,
  ⟨0x2040, 0x1, 1, rows2040⟩,
  ⟨0x2050, 0x1, 1, rows2050⟩,
  ⟨0x2060, 0x1, 1, rows2060⟩,
  ⟨0x2100, 0x1, 1, rows2100⟩,
  ⟨0x2110, 0x1, 2, rows2110⟩,
  ⟨0x2120, 0x1, 1, rows2120⟩,
  ⟨0x2130, 0x1, 2, rows2130⟩,
  ⟨0x2200, 0x1, 1, rows2200⟩,
  ⟨0x2210, 0x1, 1, rows2210⟩,
  ⟨0x2300, 0x1, 1, rows2300⟩,
  ⟨0x2400, 0x1, 1, rows2400⟩,
  ⟨0x3000, 0x100, 8, rows3000⟩,
  ⟨0x3040, 0x100, 8, rows3040⟩,
  ⟨0x3060, 0x100, 8, rows3060⟩]

def groups1 : List ObjGroup := [
  ⟨0x3080, 0x100, 8, rows3080⟩,
  ⟨0x30a0, 0x100, 8, rows30A0⟩,
  ⟨0x30c0, 0x100, 8, rows30C0⟩,
  ⟨0x4000, 0x20, 128, rows4000⟩,
  ⟨0x4008, 0x20, 128, rows4008⟩,
  ⟨0x4010, 0x20, 128, rows4010⟩,
  ⟨0x4018, 0x20, 128, rows4018⟩,
  ⟨0x401c, 0x20, 128, rows401C⟩,
  ⟨0x5000, 0x40, 24, rows5000⟩,
  ⟨0x5008, 0x40, 24, rows5008⟩,
  ⟨0x5010, 0x40, 24, rows5010⟩,
  ⟨0x5018, 0x40, 24, rows5018⟩,
  ⟨0x5020, 0x40, 24, rows5020⟩,
  ⟨0x5028, 0x40, 24, rows5028⟩,
  ⟨0x5030, 0x40, 24, rows5030⟩,
  ⟨0x5600, 0x1, 32, rows5600⟩,
  ⟨0x5620, 0x1, 16, rows5620⟩,
  ⟨0x5640, 0x1, 1, rows5640⟩,
  ⟨0x5650, 0x1, 1, rows5650⟩,
  ⟨0x5800, 0x40, 32, rows5800⟩]

def groups2 : List ObjGroup := [
  ⟨0x5808, 0x40, 32, rows5808⟩,
  ⟨0x5810, 0x40, 32, rows5810⟩,
  ⟨0x5818, 0x40, 32, rows5818⟩,
  ⟨0x5820, 0x40, 32, rows5820⟩,
  ⟨0x5828, 0x40, 32, rows5828⟩,
  ⟨0x5830, 0x40, 32, rows5830⟩,
  ⟨0x5838, 0x40, 32, rows5838⟩,
  ⟨0x6000, 0x80, 2, rows6000⟩,
  ⟨0x6020, 0x1, 1, rows6020⟩,
  ⟨0x6040, 0x1, 8, rows6040⟩,
  ⟨0x6100, 0x10, 24, rows6100⟩,
  ⟨0x6300, 0x8, 16, rows6300⟩,
  ⟨0x6400, 0x40, 4, rows6400⟩,
  ⟨0x6401, 0x40, 4, rows6401⟩,
  ⟨0x6402, 0x40, 4, rows6402⟩,
  ⟨0x6500, 0x1, 1, rows6500⟩,
  ⟨0x6501, 0x1, 1, rows6501⟩,
  ⟨0x6502, 0x1, 1, rows6502⟩,
  ⟨0x6800, 0x1, 1, rows6800⟩,
  ⟨0x6810, 0x1, 8, rows6810⟩]

def groups3 : List ObjGroup := [
  ⟨0x6820, 0x1, 8, rows6820⟩,
  ⟨0x6c00, 0x4, 174, rows6C00⟩,
  ⟨0x6c01, 0x4, 174, rows6C01⟩,
  ⟨0x6c02, 0x4, 174, rows6C02⟩,
  ⟨0x6c03, 0x4, 174, rows6C03⟩,
  ⟨0x7000, 0x1, 1, rows7000⟩,
  ⟨0x7800, 0x1, 1, rows7800⟩,
  ⟨0x7c00, 0x1, 1, rows7C00⟩,
  ⟨0x8000, 0x1, 128, rows8000⟩,
  ⟨0x8100, 0x1, 8, rows8100⟩,
  ⟨0x8200, 0x1, 8, rows8200⟩,
  ⟨0x8300, 0x1, 1, rows8300⟩,
  ⟨0x8400, 0x1, 32, rows8400⟩,
  ⟨0xf000, 0x1, 1, rowsF000⟩]

/-- Every group of objects of the spec. -/
def groups : List ObjGroup := groups0 ++ groups1 ++ groups2 ++ groups3

end Sys2Proof.Obj
end

