-- ==== Sys2Proof/Machine/Operands.lean ====
section
/-! DEFINITION. Fields and codes: byte order (R8), bit fields, sign extension, IEEE 754 binary32 encodings, CRC-32C
(R504), SHA-256, SHA-384 and HMAC-SHA-256, and the Q32 and time layouts the commands' operands and records use. -/

namespace Sys2Proof

/-- Bit `i` of `v`. -/
def bitAt (v i : Nat) : Bool := v / 2 ^ i % 2 == 1

/-- Bits [lo + n - 1 : lo] of `v`. -/
def field (v lo n : Nat) : Nat := v / 2 ^ lo % 2 ^ n

/-- `v` with bit `i` set to `b`. -/
def putBit (v i : Nat) (b : Bool) : Nat :=
  if bitAt v i then (if b then v else v - 2 ^ i) else (if b then v + 2 ^ i else v)

/-- `v` with bits [lo + n - 1 : lo] set to `x`. -/
def putField (v lo n x : Nat) : Nat := v - field v lo n * 2 ^ lo + (x % 2 ^ n) * 2 ^ lo

def b2n (b : Bool) : Nat := if b then 1 else 0

/-- The value of `n`-bit two's complement bits. -/
def sext (n v : Nat) : Int :=
  if v % 2 ^ n < 2 ^ (n - 1) then ((v % 2 ^ n : Nat) : Int) else ((v % 2 ^ n : Nat) : Int) - 2 ^ n

/-- The `n`-bit two's complement bits of a value. -/
def bitsOf (n : Nat) (v : Int) : Nat := (v % (2 ^ n : Int)).toNat

/-- The `n` least significant bytes of `v`, least significant first (R8). -/
def le : Nat → Nat → Bytes
  | 0, _ => []
  | n + 1, v => BitVec.ofNat 8 v :: le n (v / 256)

/-- The number a byte string holds, least significant byte first (R8). -/
def unle : Bytes → Nat
  | [] => 0
  | b :: t => b.toNat + 256 * unle t

/-- The number a byte string holds, most significant byte first. -/
def unbe (b : Bytes) : Nat := unle b.reverse

/-- Two's complement of `n` bytes. -/
def leInt (n : Nat) (v : Int) : Bytes := le n (bitsOf (8 * n) v)

def zeros (n : Nat) : Bytes := List.replicate n 0

/-- Bytes `off` to `off + n - 1`; bytes beyond the end read as zero. -/
def slice (b : Bytes) (off n : Nat) : Bytes :=
  let t := (b.drop off).take n
  t ++ zeros (n - t.length)

/-- The field of `n` bytes at `off`. -/
def getN (b : Bytes) (off n : Nat) : Nat := unle (slice b off n)

/-- The signed field of `n` bytes at `off`. -/
def getI (b : Bytes) (off n : Nat) : Int := sext (8 * n) (getN b off n)

def byteAt (b : Bytes) (i : Nat) : Nat := (b.getD i 0).toNat

def allZero (b : Bytes) : Bool := b.all (· == 0)

/-- A byte string of length `n` with the fields `(offset, width, value)` set, other bytes zero. -/
def layout (n : Nat) (fs : List (Nat × Nat × Nat)) : Bytes :=
  fs.foldl (fun b f => b.take f.1 ++ le f.2.1 f.2.2 ++ b.drop (f.1 + f.2.1)) (zeros n)

/-- Replace the bytes at `off`. -/
def splice (b : Bytes) (off : Nat) (d : Bytes) : Bytes := b.take off ++ d ++ b.drop (off + d.length)

/-- Zero padding to a multiple of `m`. -/
def padTo (m : Nat) (b : Bytes) : Bytes := b ++ zeros ((m - b.length % m) % m)

/-! CRC-32C (R504). -/

def crcBit (c : BitVec 32) : BitVec 32 :=
  if c.getLsbD 0 then (c >>> 1) ^^^ 0x82F63B78 else c >>> 1

def crcByte (c : BitVec 32) (b : Byte) : BitVec 32 :=
  let x := c ^^^ b.zeroExtend 32
  crcBit (crcBit (crcBit (crcBit (crcBit (crcBit (crcBit (crcBit x)))))))

def crc32c (b : Bytes) : Nat := ((b.foldl crcByte 0xFFFFFFFF) ^^^ 0xFFFFFFFF).toNat

/-! SHA-256 (FIPS 180-4), for HMAC-SHA-256 (R305, R314). -/

def k256 : List Nat :=
  [0x428a2f98, 0x71374491, 0xb5c0fbcf, 0xe9b5dba5, 0x3956c25b, 0x59f111f1, 0x923f82a4, 0xab1c5ed5,
   0xd807aa98, 0x12835b01, 0x243185be, 0x550c7dc3, 0x72be5d74, 0x80deb1fe, 0x9bdc06a7, 0xc19bf174,
   0xe49b69c1, 0xefbe4786, 0x0fc19dc6, 0x240ca1cc, 0x2de92c6f, 0x4a7484aa, 0x5cb0a9dc, 0x76f988da,
   0x983e5152, 0xa831c66d, 0xb00327c8, 0xbf597fc7, 0xc6e00bf3, 0xd5a79147, 0x06ca6351, 0x14292967,
   0x27b70a85, 0x2e1b2138, 0x4d2c6dfc, 0x53380d13, 0x650a7354, 0x766a0abb, 0x81c2c92e, 0x92722c85,
   0xa2bfe8a1, 0xa81a664b, 0xc24b8b70, 0xc76c51a3, 0xd192e819, 0xd6990624, 0xf40e3585, 0x106aa070] ++
  [0x19a4c116, 0x1e376c08, 0x2748774c, 0x34b0bcb5, 0x391c0cb3, 0x4ed8aa4a, 0x5b9cca4f, 0x682e6ff3,
   0x748f82ee, 0x78a5636f, 0x84c87814, 0x8cc70208, 0x90befffa, 0xa4506ceb, 0xbef9a3f7, 0xc67178f2]

def k512 : List Nat :=
  [0x428a2f98d728ae22, 0x7137449123ef65cd, 0xb5c0fbcfec4d3b2f, 0xe9b5dba58189dbbc, 0x3956c25bf348b538,
   0x59f111f1b605d019, 0x923f82a4af194f9b, 0xab1c5ed5da6d8118, 0xd807aa98a3030242, 0x12835b0145706fbe,
   0x243185be4ee4b28c, 0x550c7dc3d5ffb4e2, 0x72be5d74f27b896f, 0x80deb1fe3b1696b1, 0x9bdc06a725c71235,
   0xc19bf174cf692694, 0xe49b69c19ef14ad2, 0xefbe4786384f25e3, 0x0fc19dc68b8cd5b5, 0x240ca1cc77ac9c65,
   0x2de92c6f592b0275, 0x4a7484aa6ea6e483, 0x5cb0a9dcbd41fbd4, 0x76f988da831153b5, 0x983e5152ee66dfab,
   0xa831c66d2db43210, 0xb00327c898fb213f, 0xbf597fc7beef0ee4, 0xc6e00bf33da88fc2, 0xd5a79147930aa725,
   0x06ca6351e003826f, 0x142929670a0e6e70, 0x27b70a8546d22ffc, 0x2e1b21385c26c926, 0x4d2c6dfc5ac42aed,
   0x53380d139d95b3df, 0x650a73548baf63de, 0x766a0abb3c77b2a8, 0x81c2c92e47edaee6, 0x92722c851482353b] ++
  [0xa2bfe8a14cf10364, 0xa81a664bbc423001, 0xc24b8b70d0f89791, 0xc76c51a30654be30, 0xd192e819d6ef5218,
   0xd69906245565a910, 0xf40e35855771202a, 0x106aa07032bbd1b8, 0x19a4c116b8d2d0c8, 0x1e376c085141ab53,
   0x2748774cdf8eeb99, 0x34b0bcb5e19b48a8, 0x391c0cb3c5c95a63, 0x4ed8aa4ae3418acb, 0x5b9cca4f7763e373,
   0x682e6ff3d6b2b8a3, 0x748f82ee5defb2fc, 0x78a5636f43172f60, 0x84c87814a1f0ab72, 0x8cc702081a6439ec,
   0x90befffa23631e28, 0xa4506cebde82bde9, 0xbef9a3f7b2c67915, 0xc67178f2e372532b, 0xca273eceea26619c,
   0xd186b8c721c0c207, 0xeada7dd6cde0eb1e, 0xf57d4f7fee6ed178, 0x06f067aa72176fba, 0x0a637dc5a2c898a6,
   0x113f9804bef90dae, 0x1b710b35131c471b, 0x28db77f523047d84, 0x32caab7b40c72493, 0x3c9ebe0a15c9bebc,
   0x431d67c49c100d4c, 0x4cc5d4becb3e42b6, 0x597f299cfc657e2a, 0x5fcb6fab3ad6faec, 0x6c44198c4a475817]

/-- The rotation and shift amounts and constants that set SHA-256 and SHA-512 apart (FIPS 180-4). -/
structure ShaParams where
  w : Nat
  s0 : Nat × Nat × Nat
  s1 : Nat × Nat × Nat
  e0 : Nat × Nat × Nat
  e1 : Nat × Nat × Nat
  k : List Nat

def sha256p : ShaParams := ⟨32, (7, 18, 3), (17, 19, 10), (2, 13, 22), (6, 11, 25), k256⟩
def sha512p : ShaParams := ⟨64, (1, 8, 7), (19, 61, 6), (28, 34, 39), (14, 18, 41), k512⟩

def rotrN (w x n : Nat) : Nat := x / 2 ^ n + x % 2 ^ n * 2 ^ (w - n)

/-- The message schedule, newest word first. -/
def shaSchedule (p : ShaParams) (n : Nat) (ws : List Nat) : List Nat :=
  match n with
  | 0 => ws
  | n + 1 =>
    let x1 := ws.getD 1 0
    let x14 := ws.getD 14 0
    let a := rotrN p.w x1 p.s1.1 ^^^ rotrN p.w x1 p.s1.2.1 ^^^ (x1 / 2 ^ p.s1.2.2)
    let b := rotrN p.w x14 p.s0.1 ^^^ rotrN p.w x14 p.s0.2.1 ^^^ (x14 / 2 ^ p.s0.2.2)
    shaSchedule p n ((a + ws.getD 6 0 + b + ws.getD 15 0) % 2 ^ p.w :: ws)

def shaRound (p : ShaParams) (v : List Nat) (kw : Nat × Nat) : List Nat :=
  match v with
  | [a, b, c, d, e, f, g, h] =>
    let m := 2 ^ p.w
    let bs1 := rotrN p.w e p.e1.1 ^^^ rotrN p.w e p.e1.2.1 ^^^ rotrN p.w e p.e1.2.2
    let ch := (e &&& f) ^^^ ((m - 1 - e) &&& g)
    let t1 := (h + bs1 + ch + kw.1 + kw.2) % m
    let bs0 := rotrN p.w a p.e0.1 ^^^ rotrN p.w a p.e0.2.1 ^^^ rotrN p.w a p.e0.2.2
    let maj := (a &&& b) ^^^ (a &&& c) ^^^ (b &&& c)
    let t2 := (bs0 + maj) % m
    [(t1 + t2) % m, a, b, c, (d + t1) % m, e, f, g]
  | _ => v

def shaBlock (p : ShaParams) (h : List Nat) (words : List Nat) : List Nat :=
  let ws := (shaSchedule p (p.k.length - 16) words.reverse).reverse
  let v := (p.k.zip ws).foldl (shaRound p) h
  (h.zip v).map (fun x => (x.1 + x.2) % 2 ^ p.w)

/-- Cut a byte string into big-endian words of `n` bytes. -/
def beWords (n : Nat) : Nat → Bytes → List Nat
  | 0, _ => []
  | fuel + 1, b => if b.isEmpty then [] else unbe (b.take n) :: beWords n fuel (b.drop n)

def shaBlocks (p : ShaParams) : Nat → List Nat → List Nat → List Nat
  | 0, h, _ => h
  | fuel + 1, h, ws => if ws.isEmpty then h else shaBlocks p fuel (shaBlock p h (ws.take 16)) (ws.drop 16)

def sha (p : ShaParams) (h0 : List Nat) (outWords : Nat) (msg : Bytes) : Bytes :=
  let blk := p.w * 2
  let lenB := p.w / 4
  let z := (blk - (msg.length + 1 + lenB) % blk) % blk
  let padded := msg ++ [0x80] ++ zeros z ++ (le lenB (8 * msg.length)).reverse
  let ws := beWords (p.w / 8) (padded.length + 1) padded
  let h := shaBlocks p (ws.length + 1) h0 ws
  ((h.take outWords).map (fun x => (le (p.w / 8) x).reverse)).flatten

def sha256 (m : Bytes) : Bytes :=
  sha sha256p [0x6a09e667, 0xbb67ae85, 0x3c6ef372, 0xa54ff53a, 0x510e527f, 0x9b05688c, 0x1f83d9ab, 0x5be0cd19] 8 m

def sha384 (m : Bytes) : Bytes :=
  sha sha512p [0xcbbb9d5dc1059ed8, 0x629a292a367cd507, 0x9159015a3070dd17, 0x152fecd8f70e5939,
    0x67332667ffc00b31, 0x8eb44a8768581511, 0xdb0c2e0d64f98fa7, 0x47b5481dbefa4fa4] 6 m

/-- HMAC-SHA-256 for keys of at most 64 bytes. -/
def hmac256 (key msg : Bytes) : Bytes :=
  let k := slice key 0 64
  sha256 (k.map (· ^^^ 0x5C) ++ sha256 (k.map (· ^^^ 0x36) ++ msg))

/-! ECDSA P-384 verification (FIPS 186-5; the curve of SP 800-186), for R452. Points are in Jacobian coordinates; Z = 0 is
the point at infinity. -/

def p384P : Nat := 2 ^ 384 - 2 ^ 128 - 2 ^ 96 + 2 ^ 32 - 1
def p384N : Nat := 0xffffffffffffffffffffffffffffffffffffffffffffffffc7634d81f4372ddf581a0db248b0a77aecec196accc52973
def p384B : Nat := 0xb3312fa7e23ee7e4988e056be3f82d19181d9c6efe8141120314088f5013875ac656398d8a2ed19d2a85c8edd3ec2aef
def p384G : Nat × Nat × Nat :=
  (0xaa87ca22be8b05378eb1c71ef320ad746e1d3b628ba79b9859f741e082542a385502f25dbf55296c3a545e3872760ab7,
   0x3617de4a96262c6f5d9e98bf9292dc29f8f41dbd289a147ce9da3113b5f0b8c00a60b1ce1d7e819d7a431d7c90ea0e5f, 1)

/-- b to the power e modulo m, over the low bits of e. -/
def powMod (m : Nat) : Nat → Nat → Nat → Nat
  | 0, _, _ => 1 % m
  | f + 1, b, e =>
    let h := powMod m f (b * b % m) (e / 2)
    if e % 2 = 1 then b * h % m else h

/-- The inverse modulo a prime of 384 bits. -/
def invMod (m b : Nat) : Nat := powMod m 384 b (m - 2)

def subMod (m a b : Nat) : Nat := (a + m - b % m) % m

def p384Double (q : Nat × Nat × Nat) : Nat × Nat × Nat :=
  let m := p384P
  let d := q.2.2 * q.2.2 % m
  let g := q.2.1 * q.2.1 % m
  let b := q.1 * g % m
  let a := 3 * (subMod m q.1 d * (q.1 + d)) % m
  let x := subMod m (a * a) (8 * b)
  (x, subMod m (a * subMod m (4 * b) x) (8 * g * g), subMod m ((q.2.1 + q.2.2) * (q.2.1 + q.2.2)) (g + d))

def p384Add (q r : Nat × Nat × Nat) : Nat × Nat × Nat :=
  let m := p384P
  if q.2.2 = 0 then r
  else if r.2.2 = 0 then q
  else
    let z1 := q.2.2 * q.2.2 % m
    let z2 := r.2.2 * r.2.2 % m
    let u1 := q.1 * z2 % m
    let s1 := q.2.1 * (z2 * r.2.2 % m) % m
    let h := subMod m (r.1 * z1) u1
    let w := subMod m (r.2.1 * (z1 * q.2.2 % m)) s1
    if h = 0 then if w = 0 then p384Double q else (1, 1, 0)
    else
      let h2 := h * h % m
      let h3 := h2 * h % m
      let v := u1 * h2 % m
      let x := subMod m (w * w) (h3 + 2 * v)
      (x, subMod m (w * subMod m v x) (s1 * h3), q.2.2 * r.2.2 % m * h % m)

/-- n times a point, over the low bits of n. -/
def p384Mul : Nat → Nat → Nat × Nat × Nat → Nat × Nat × Nat
  | 0, _, _ => (1, 1, 0)
  | f + 1, n, q =>
    let h := p384Double (p384Mul f (n / 2) q)
    if n % 2 = 1 then p384Add h q else h

/-- Whether r ‖ s is a signature of a digest under an uncompressed public key. -/
def ecdsaVerify (key digest sig : Bytes) : Bool :=
  let qx := unbe (slice key 1 48)
  let qy := unbe (slice key 49 48)
  let r := unbe (slice sig 0 48)
  let s := unbe (slice sig 48 48)
  let onCurve := byteAt key 0 == 4 && decide (qx < p384P) && decide (qy < p384P) &&
    qy * qy % p384P == (subMod p384P (qx * qx % p384P * qx) (3 * qx) + p384B) % p384P
  if !onCurve ∨ r = 0 ∨ p384N ≤ r ∨ s = 0 ∨ p384N ≤ s then false
  else
    let w := invMod p384N s
    let t := p384Add (p384Mul 384 (unbe digest * w % p384N) p384G) (p384Mul 384 (r * w % p384N) (qx, qy, 1))
    t.2.2 != 0 && (t.1 * invMod p384P (t.2.2 * t.2.2) % p384P) % p384N == r

/-! IEEE 754 binary32 (Table 14.1). -/

def f32Exp (b : Nat) : Nat := field b 23 8
def f32Man (b : Nat) : Nat := field b 0 23
def f32Neg (b : Nat) : Bool := bitAt b 31
/-- Neither NaN nor infinity. -/
def f32Finite (b : Nat) : Bool := f32Exp b != 255
def f32NaN (b : Nat) : Bool := f32Exp b == 255 && f32Man b != 0

/-- The value of a finite binary32 encoding. -/
def f32Val (b : Nat) : Rat :=
  let m : Rat := if f32Exp b = 0 then (f32Man b : Rat) else ((f32Man b + 2 ^ 23 : Nat) : Rat)
  let e : Nat := if f32Exp b = 0 then 1 else f32Exp b
  let v : Rat := if 150 ≤ e then m * (2 ^ (e - 150) : Nat) else m / (2 ^ (150 - e) : Nat)
  if f32Neg b then -v else v

/-- The integer nearest to a non-negative rational, ties to even. -/
def rneNat (q : Rat) : Nat :=
  let f := q.floor.toNat
  let d : Rat := q - (f : Rat)
  if d < 1 / 2 then f else if 1 / 2 < d then f + 1 else if f % 2 = 0 then f else f + 1

/-- floor(log2 q) of a positive rational. -/
def ratLog2 (q : Rat) : Int :=
  let e : Int := (Nat.log2 q.num.toNat : Int) - (Nat.log2 q.den : Int)
  let p : Rat := if 0 ≤ e then (2 ^ e.toNat : Nat) else 1 / (2 ^ (-e).toNat : Nat)
  if q < p then e - 1 else e

/-- Round to the nearest binary32 value, ties to even, with subnormals and overflow to infinity (IEEE 754). -/
def f32OfRat (q : Rat) : Nat :=
  let sgn := if q < 0 then 2 ^ 31 else 0
  let a : Rat := if q < 0 then -q else q
  if a = 0 then 0 else
  let e := max (ratLog2 a) (-126)
  let sc : Rat := if 0 ≤ 23 - e then a * (2 ^ (23 - e).toNat : Nat) else a / (2 ^ (e - 23).toNat : Nat)
  let m := rneNat sc
  let (m, e) := if 2 ^ 24 ≤ m then (2 ^ 23, e + 1) else (m, e)
  if 127 < e then sgn + 0x7F800000
  else if m < 2 ^ 23 then sgn + m
  else sgn + ((e + 127).toNat) * 2 ^ 23 + (m - 2 ^ 23)

/-- A Q32 raw value as a number of counts. -/
def q32Val (v : Int) : Rat := (v : Rat) / (2 ^ 32 : Nat)

/-- A number of counts as Q32, toward minus infinity (the spec states no rounding). -/
def q32Of (q : Rat) : Int := (q * (2 ^ 32 : Nat)).floor

/-- Clip to a range. -/
def clampI (lo hi v : Int) : Int := if v < lo then lo else if hi < v then hi else v
def clampQ (lo hi v : Rat) : Rat := if v < lo then lo else if hi < v then hi else v
def absQ (v : Rat) : Rat := if v < 0 then -v else v

/-- Valid UTF-8 (R302). -/
def utf8Ok : Nat → Bytes → Bool
  | 0, b => b.isEmpty
  | fuel + 1, b =>
    match b with
    | [] => true
    | x :: t =>
      let c := fun (y : Byte) => y.toNat / 64 == 2
      let v := x.toNat
      if v < 0x80 then utf8Ok fuel t
      else if 0xC2 ≤ v ∧ v ≤ 0xDF then
        match t with
        | y :: t => c y && utf8Ok fuel t
        | _ => false
      else if 0xE0 ≤ v ∧ v ≤ 0xEF then
        match t with
        | y :: z :: t => c y && c z && (v != 0xE0 || 0xA0 ≤ y.toNat) && (v != 0xED || y.toNat < 0xA0) && utf8Ok fuel t
        | _ => false
      else if 0xF0 ≤ v ∧ v ≤ 0xF4 then
        match t with
        | y :: z :: u :: t =>
          c y && c z && c u && (v != 0xF0 || 0x90 ≤ y.toNat) && (v != 0xF4 || y.toNat < 0x90) && utf8Ok fuel t
        | _ => false
      else false

end Sys2Proof
end

