-- ==== Sys2Proof/Machine/State.lean ====
section
/-! DEFINITION. The state of the block as plain data: every register, queue, buffer, counter, mode and pin the spec
names, with its value after reset as the fields' defaults. Objects of the object tables have one home, `objs` (an
object absent from it holds its table default, Machine/Objects.lean) and `blobs` (bytes of BLOB and STR objects);
what a table calls a view of the machine is computed when it is read (Machine/ObjectRead.lean). -/

namespace Sys2Proof.Machine

/-! ### Host queues (chapter 02) -/

/-- Ring control block of a ring and the records it holds on chip (R36 to R46). `held` are the records not yet
written, oldest first, each 28 bytes without PHASE and CRC. -/
structure Ring where
  base : Nat := 0
  wb : Nat := 0
  en : Bool := false
  vec : Nat := 0
  sizeLog2 : Nat := 6
  err : Bool := false
  errCode : Nat := 0
  prod : Nat := 0
  cons : Nat := 0
  modTime : Nat := 0
  modCount : Nat := 1
  drop : Nat := 0
  dropOvf : Bool := false
  head : Option Bytes := none
  held : List Bytes := []
  lost : Bool := false
  unsig : Nat := 0
  unsigSince : Nat := 0
  fragRec : Nat := 0
  fragIdx : Nat := 0
  fragEnds : List (Nat × Nat) := []
  deriving DecidableEq, Repr, Inhabited

/-- One landed chunk of a stream and the instant it landed (R51, R76). -/
structure Chunk where
  idx : Nat
  last : Bool
  bytes : Bytes
  digest : Option Bytes := none
  since : Nat := 0
  deriving DecidableEq, Repr, Inhabited

/-- Chunks held in the stream pool under one ID on one bar, and the first failure of that ID (R506). -/
structure Stream where
  isBase : Bool
  id : Nat
  bar : Nat
  chunks : List Chunk := []
  failure : Option Nat := none
  since : Nat := 0
  digest : Option Bytes := none
  deriving DecidableEq, Repr, Inhabited

/-- States of a page job (Table 2.12); FIRING and STAGED are kept per bar. -/
inductive JobState
  | landing | accepted | fired | aborted
  deriving DecidableEq, Repr, Inhabited

/-- Registration states of a base (Table 2.15). -/
inductive BaseState
  | landing | registered | retiring
  deriving DecidableEq, Repr, Inhabited

/-- One error of a decode summary (R94). -/
structure DecErr where
  code : Nat
  chunk : Nat
  first : Nat
  last : Nat
  deriving DecidableEq, Repr, Inhabited

/-- Decode summary of one lane for one job and bar (R94). -/
structure Summary where
  blanked : Nat := 0
  errs : List DecErr := []
  deriving DecidableEq, Repr, Inhabited

/-- What the settings of a bar were when line 0 of the page departed on it (R155); `stitch` is its stitching mask. -/
structure Snap where
  pitch : Int := 0
  offset : Int := 0
  flight : Nat := 0
  rows : List (Int × Int) := []
  zeroed : Bool := false
  method : Nat := 0
  stitch : Bytes := []
  deriving DecidableEq, Repr, Inhabited

/-- A page job on one bar: where it starts, how many lines its fire lane has decoded, and how many have departed, passed
their boundary and fired. -/
structure BarJob where
  staged : Bool := false
  firing : Bool := false
  done : Bool := false
  start : Option Int := none
  snap : Option Snap := none
  departed : Nat := 0
  passed : Nat := 0
  fired : Nat := 0
  decoded : Nat := 0
  late : Nat := 0
  lateRaised : Bool := false
  checked : Nat := 0
  fire : Summary := {}
  check : Summary := {}
  deriving DecidableEq, Repr, Inhabited

/-- A page job in one of the 128 slots (Table 2.12). `marks` are the FLAGS of Table 2.8 but PHASE. -/
structure Job where
  slot : Nat := 0
  id : Nat := 0
  psn : Nat := 0
  cls : Nat := 0
  lines : Nat := 0
  gap : Nat := 0
  mark : Bool := false
  mask : Nat := 0
  baseId : Nat := 0
  tag : Nat := 0
  chunks : List Nat := []
  st : JobState := .landing
  marks : Nat := 0
  onWeb : Bool := true
  holdRaised : Bool := false
  verdict : Option Nat := none
  unverified : Bool := false
  checkLate : Bool := false
  diverged : Bool := false
  overspeed : Bool := false
  bars : List BarJob := List.replicate 8 {}
  deriving DecidableEq, Repr, Inhabited

/-- One registered base page (R54, Table 2.15). -/
structure Base where
  id : Nat := 0
  lines : Nat := 0
  mask : Nat := 0
  chunks : List Nat := []
  cls : Nat := 0
  retCls : Nat := 0
  tag : Nat := 0
  st : BaseState := .landing
  deriving DecidableEq, Repr, Inhabited

/-- An ACCEPT record waiting for its place in PSN order (R52): undecided, or decided with or without a record. -/
structure AcceptEnt where
  jobId : Nat
  cls : Nat
  decided : Bool := false
  rec? : Option Bytes := none
  deriving DecidableEq, Repr, Inhabited

/-- The host queues. `windowReq` and `windowRsp` are the BAR2 window (Table 14.8); `msix` the MSI-X table by 32-bit
word and `pba` its pending bits (Table 2.3). -/
structure Hq where
  linkUp : Bool := true
  rings : Tab Ring := []
  descReject : Nat := 0
  descRejectOvf : Bool := false
  badAccess : Nat := 0
  badAccessOvf : Bool := false
  aperture : Nat := 0
  psnNext : Nat := 1
  waitSince : Option Nat := none
  waitRaised : Bool := false
  jobs : List Job := []
  bases : List Base := []
  streams : List Stream := []
  acceptQ : List AcceptEnt := []
  msix : Tab Nat := []
  pba : List Nat := []
  windowReq : List Host.Cell := []
  windowRsp : Bytes := []
  mbBusy : Bool := false
  mbDone : Bool := false
  mbRspLen : Nat := 0
  deriving DecidableEq, Repr, Inhabited

/-! ### Time (chapter 13) -/

/-- One PTP slot (Table 13.3), or PPS_IN as a source: the filtered offset (2^-16 ns) once there is one, the latest offset,
and runs of measurements near it and of outliers. -/
structure PtpSlot where
  state : Nat := 0
  master : Option Announce := none
  filt : Option Int := none
  theta : Int := 0
  good : Nat := 0
  bad : Nat := 0
  lastNs : Nat := 0
  deriving DecidableEq, Repr, Inhabited

/-- Device time, the stamp accumulator (in 2^-32 ns), the servo and the PPS channels. `tgt` and `rint` are r_tgt and
r_int of R293 in ppb. `anchors` are the anchors of SEC carries not yet raised: STAMP and ARGS. `stepHeads` are heads that
have not reported TIME_LOCK since a step, `stepFrames` heads whose next TIME frame carries STEP. `dormant` counts the ACLK
cycles spent in DORMANT (R464). -/
structure Time where
  sec : Nat := 0
  ns : Nat := 0
  frac : Nat := 0
  acc : Nat := 0
  rate : Rat := 0
  tgt : Rat := 0
  rint : Rat := 0
  state : Nat := 0
  source : Nat := 3
  stepPending : Bool := false
  stepHeads : List Nat := []
  stepFrames : List Nat := []
  anchors : List Bytes := []
  holdStart : Nat := 0
  slots : Tab PtpSlot := []
  pps : PtpSlot := {}
  ppsOut : Tab Nat := []
  dormant : Nat := 0
  deriving DecidableEq, Repr, Inhabited

/-! ### Faults and safety (chapter 20) -/

/-- A latched fault (R405, Table 20.3). `entered` says whether FLT_TABLE holds it (R411). -/
structure Flt where
  code : Nat
  cls : Nat
  inst : Nat
  cond : Bool := true
  injected : Bool := false
  entered : Bool := true
  count : Nat := 1
  first : Nat := 0
  last : Nat := 0
  detail : Bytes := []
  deriving DecidableEq, Repr, Inhabited

/-- ALERT_N (R406): at rest, low since an instant, or high after a pulse since an instant. -/
inductive Alert
  | rest
  | low (since : Nat)
  | high (since : Nat)
  deriving DecidableEq, Repr, Inhabited

/-- Halo: latched faults oldest first, first-error captures by class, ALERT_N and whether one more pulse is owed, the safety
chain's external level and the bars whose HV_EN has returned but whose next page boundary has not come (R408). -/
structure Halo where
  faults : List Flt := []
  fec : Tab Bytes := []
  alert : Alert := .rest
  alertPending : Bool := false
  chainExt : Bool := true
  blankBars : List Nat := []
  webActiveSince : Nat := 0
  deriving DecidableEq, Repr, Inhabited

/-! ### Journal and security (chapter 22) -/

/-- One stored journal record: its number in the store's order of creation and its bytes, signature included. -/
structure JRec where
  num : Nat
  seq : Nat
  kind : Nat
  bytes : Bytes
  deriving DecidableEq, Repr, Inhabited

/-- The journal store, debug, and the fuses blown since they were last sensed: keys by slot, the maker and debug key digests,
the lifecycle state and the FW_COUNTER that apply from the next reset. `makerFused` and `debugFused` say that a digest was blown
before this run. `challenge` is the latest debug challenge. -/
structure Jnl where
  store : List JRec := []
  next : Nat := 0
  seq : Nat := 0
  prev : Bytes := List.replicate 48 0
  gap : Option (Nat × Nat) := none
  signs : Nat := 0
  booted : Bool := false
  debugOpen : Bool := false
  debugScope : Nat := 0
  challenge : Option Bytes := none
  keys : Tab Bytes := []
  makerFused : Bool := Config.makerKeySet
  debugFused : Bool := Config.debugKeySet
  makerKey : Option Bytes := none
  debugKey : Option Bytes := none
  lifecycleNext : Option Nat := none
  burnedSvn : Option Nat := none
  deriving DecidableEq, Repr, Inhabited

/-! ### Object access (chapters 14 and 15) -/

/-- One value of a staging set: object key and value bytes (R320). -/
structure Staged where
  key : Nat
  bytes : Bytes
  deriving DecidableEq, Repr, Inhabited

/-- An open block transfer (R319): the table's key, its working copy, and the spans of elements that blocks have written. -/
structure Transfer where
  key : Nat
  copy : Bytes
  written : List (Nat × Nat) := []
  deriving DecidableEq, Repr, Inhabited

/-- A session (R312 to R316). `mask` bit i says SEQ H - i has executed; `cache` the latest 16 responses; `lastNs` and `transport` are
of the latest frame that executed in it. -/
structure Session where
  id : Nat
  seqHi : Nat
  mask : Nat := 1
  cache : List (Nat × Bytes) := []
  nonce : Bytes := []
  openNs : Nat := 0
  lastNs : Nat := 0
  transport : Nat := 0
  auth : Option (Nat × Bytes × Bytes) := none
  authFails : Nat := 0
  macFails : Nat := 0
  super : Bool := false
  slot : Nat := 0
  key : Bytes := []
  leaseNs : Nat := 0
  staging : List Staged := []
  transfer : Option Transfer := none
  deriving DecidableEq, Repr, Inhabited

/-- A commit set in COMMIT_TABLE or COMMIT_HISTORY (Table 15.5). -/
structure CommitSet where
  number : Nat
  cls : Nat
  state : Nat := 2
  slips : Nat := 0
  sess : Nat := 0
  bars : Nat := 0
  cams : Nat := 0
  outs : Nat := 0
  jobId : Nat := 0
  stampCommit : Nat := 0
  stampEnd : Nat := 0
  refusal : Nat := 0
  super : Bool := false
  items : List Staged := []
  boundJob : Option Nat := none
  doneBars : Nat := 0
  passedBars : Nat := 0
  doneCams : Nat := 0
  deriving DecidableEq, Repr, Inhabited

/-- Where a request came from and its response goes: the transport, its frame limit, and for a mailbox descriptor its ring
(0 for Q60, 1 for Q61), RSP_ADDR and TAG. `direct` says that the frame came on the wire and not through a descriptor or the BAR2
window. -/
structure Dest where
  transport : Nat
  limit : Nat
  ring : Nat := 0
  addr : Nat := 0
  tag : Nat := 0
  direct : Bool := true
  deriving DecidableEq, Repr, Inhabited

/-- One item of a response (Table 14.5). -/
structure ItemRes where
  idx : Nat
  sub : Nat
  status : Nat
  ty : Nat := 0
  data : Bytes := []
  deriving DecidableEq, Repr, Inhabited

/-- A response that waits for the handshake of a fall (R458): its session, SEQ and CMD, its items, the item that waits, and where it
goes; duplicates that arrive meanwhile add to the list (R312). -/
structure Owed where
  sess : Nat
  seq : Nat
  cmd : Nat
  items : List ItemRes
  pos : Nat
  dests : List Dest
  deriving DecidableEq, Repr, Inhabited

/-- The object server. `opens` are the OPENs answered: client nonce, session, instant; `status` and `answer` the status and the data of
the latest access. -/
structure Toa where
  sessions : List Session := []
  closed : List Nat := []
  opens : List (Bytes × Nat × Nat) := []
  commitLast : Nat := 0
  pending : List CommitSet := []
  history : List CommitSet := []
  ovfList : List (Nat × Nat × Nat) := []
  status : Nat := 0
  answer : Bytes := []
  owed : Option Owed := none
  deriving DecidableEq, Repr, Inhabited

/-! ### Scarab lanes (chapter 04) -/

/-- A composed raster line in a lead buffer: job, page line, its dots and the Norrek code that blanked it (0 none). -/
structure DecLine where
  job : Nat
  line : Nat
  dots : List (BitVec 2) := []
  blank : Nat := 0
  deriving DecidableEq, Repr, Inhabited

/-- A bar lane: its base engine's position (base, chunk, the base line after the one it stands at; R80), the cost of the
line it decoded last (R83) and, for a fire lane, the lead buffer. -/
structure Lane where
  basePos : Option (Nat × Nat × Nat) := none
  buf : List DecLine := []
  cost : Nat := 0
  deriving DecidableEq, Repr, Inhabited

/-- One page line delivered by the check lanes to Nimbus, bar by bar: dots and mark (0 none, 1 STREAM_BLANK with a
Norrek code, 2 NOT_FIRED, 3 CHECK_LATE). -/
structure CheckLine where
  job : Nat
  line : Nat
  bars : List (List (BitVec 2) × Nat × Nat)
  deriving DecidableEq, Repr, Inhabited

structure Scarab where
  fire : Tab Lane := []
  check : Tab Lane := []
  delivered : List CheckLine := []
  deriving DecidableEq, Repr, Inhabited

/-! ### Web and axis feedback (chapter 05) -/

/-- A counting channel (R96 to R110): unwrapped position, line levels, whether an edge has been counted and in which
direction, the edges since the last standstill or reversal (newest first) and the run of edges in one direction. -/
structure Chan where
  pos : Int := 0
  rev : Nat := 0
  a : Bool := false
  b : Bool := false
  any : Bool := false
  fwd : Bool := true
  lastNs : Nat := 0
  edges : List (Int × Nat) := []
  run : Nat := 0
  ssiGood : Option (Nat × Int × Nat) := none
  ssiBad : Nat := 0
  ssiFirst : Bool := true
  deriving DecidableEq, Repr, Inhabited

/-- A top-of-form input: the reference m of R115, and a mark waiting for its interpolation (R114). -/
structure Tof where
  lastAcc : Option Int := none
  ref : Option Int := none
  pend : Option (Nat × Int × Nat) := none
  deriving DecidableEq, Repr, Inhabited

/-- A compare output (R117 to R121): armed with an origin or waiting for a mark, the entry it is at, the target it
last took, the output's function level and the end of its pulse; `due` is the source position (2^-16 count) of a
forward count that reached its target and has not acted yet. -/
structure Cmp where
  armed : Bool := false
  waitMark : Bool := false
  entry : Nat := 0
  last : Int := 0
  active : Bool := false
  pulseEnd : Option Nat := none
  due : Option Int := none
  deriving DecidableEq, Repr, Inhabited

/-- Web positions (unwrapped; the objects read them modulo their width). -/
structure Web where
  pos : Int := 0
  driver : Nat := 0
  spanStart : Int := 0
  span0 : Int := 0
  span1 : Int := 0
  recent : List (Int × Nat) := []
  chans : Tab Chan := []
  axes : Tab Chan := []
  tofs : Tab Tof := []
  cmps : Tab Cmp := []
  deriving DecidableEq, Repr, Inhabited

/-! ### Firefly (chapter 06) -/

/-- Sent fire times of a departed line on one head: rows A and B, `none` for HOLD, with the resends made. -/
structure RowTimes where
  head : Nat
  tA : Option Nat
  tB : Option Nat
  nA : Nat := 0
  nB : Nat := 0
  deriving DecidableEq, Repr, Inhabited

/-- A departed line whose boundary has not passed: its bar sequence number, job, page line, bar fire time and the
sent row fire times. A standby also keeps the dots it has not sent. -/
structure Departed where
  lseq : Nat
  job : Nat
  line : Nat
  late : Bool := false
  barTime : Option Nat := none
  cancel : Bool := false
  rows : List RowTimes := []
  vals : List Nat := []
  deriving DecidableEq, Repr, Inhabited

/-- The trajectory predictor (R132 to R135) and the bars' departed lines. `p`, `v`, `a` in counts, counts per ns and
counts per ns^2. `first` is the first mark that raised H since HOLD. Firing is
suspended after DIRECTION_CHANGE or by a safety reaction; `resumed` says FFY_RESUME has been written since. -/
structure Firefly where
  track : Bool := false
  hwm : Int := 0
  p : Rat := 0
  v : Rat := 0
  a : Rat := 0
  tLast : Nat := 0
  first : Option (Int × Nat) := none
  lastV : Rat := 0
  susDir : Bool := false
  susSafety : Bool := false
  resumed : Bool := false
  departed : Tab (List Departed) := []
  lseq : Tab Nat := []
  lastRow : Tab (Option Nat) := []
  barEnd : Tab (Option Int) := []
  deriving DecidableEq, Repr, Inhabited

/-! ### What the device sends -/

/-- One thing the device sends to the outside. -/
inductive Out
  /-- A write to host memory. -/
  | dma (addr : Nat) (data : Bytes)
  /-- An MSI-X message. -/
  | msix (vec : Nat)
  /-- Completion data of a host read through a BAR. -/
  | readData (data : Bytes)
  /-- A frame to a head: head, kind and body (Table 8.2). -/
  | arrum (head kind : Nat) (body : Bytes)
  /-- A frame a head sends on one of its ports. -/
  | headTx (head port kind : Nat) (body : Bytes)
  /-- A nozzle row of a head fires: head, LSEQ, row, and each waveform started: nozzle, instant (device ns), dot value and
  its pulses' amplitudes. -/
  | rowFire (head lseq row : Nat) (starts : List (Nat × Nat × Nat × List Int))
  /-- A CoaXPress packet to a camera: camera, packet kind, tag, data. -/
  | camTx (cam kind tag : Nat) (data : Bytes)
  /-- A TOA response: transport and frame. -/
  | toa (transport : Nat) (frame : Bytes)
  /-- A frame on an Ethernet port other than TOA. -/
  | eth (port : Nat) (frame : Bytes)
  /-- A twin-link frame. -/
  | twin (seq : Nat) (item : TwinItem)
  /-- Step pulses of an axis in one sample: axis, forward, count. -/
  | steps (ax : Nat) (fwd : Bool) (n : Nat)
  /-- A DRAM command: subchannel, rank, code. -/
  | dram (sub rank code : Nat)
  /-- Data of a DRAM burst to a port, poisoned or not. -/
  | dramData (port : Nat) (data : Bytes) (poisoned : Bool)
  /-- A PMBus voltage command in mV. -/
  | pmbus (mv : Nat)
  /-- A lane event on the wire: lane and code. -/
  | laneTx (lane code : Nat)
  deriving DecidableEq, Repr

/-! ### Lacewing (chapter 07) -/

/-- A nozzle pair under observation (Table 7.1): 1 SUSPECT, 2 probe pending, 3 probed on page `probe`. `pages` counts
pages since a band last judged it; `dead` are changes to DEAD waiting for a page boundary or for approval. -/
structure Pair where
  state : Nat := 0
  probe : Nat := 0
  pages : Nat := 0
  deriving DecidableEq, Repr, Inhabited

/-- A device change to DEAD waiting for its page boundary (R170). -/
structure DeadChange where
  head : Nat
  noz : Nat
  old : Nat
  job : Nat
  loss : Nat
  approved : Bool := true
  deriving DecidableEq, Repr, Inhabited

/-- A mark Lacewing passes to Nimbus (R168): cause 1 joint takeover, 2 partner, 3 neighbour, 4 probe, 5 HOT, 6 lost. -/
structure Mark where
  job : Nat
  bar : Nat
  line : Nat
  col : Nat
  cause : Nat
  deriving DecidableEq, Repr, Inhabited

structure Lacewing where
  pairs : Tab Pair := []
  dead : List DeadChange := []
  wearAcc : Tab Nat := []
  wear : Tab Nat := []
  method : Tab Nat := []
  crossed : List (Nat × Nat) := []
  marks : List Mark := []
  lateLines : List (Nat × Nat × Nat) := []
  deriving DecidableEq, Repr, Inhabited

/-! ### Head links, device side (chapter 08) -/

/-- A CONTROL operation to a head: OP, ARG0, ARG1. -/
structure Ctl where
  op : Nat
  arg0 : Nat
  arg1 : Nat
  deriving DecidableEq, Repr, Inhabited

/-- The device's end of one head link. `stage` is the bring-up step of R209; `bound` the bound CONTROL operation sent
last; `clearLseq` the line of a HOT_CLEAR that no report has passed yet, `keep` says that the link went down for a power state. -/
structure HeadDev where
  lock : Bool := false
  trained : Bool := false
  lost : Bool := false
  signal : Bool := false
  trainSince : Nat := 0
  retryAt : Nat := 0
  rdySent : Nat := 0
  rdyRecv : Nat := 0
  stat : Nat := 0
  cseq : Nat := 0
  queue : List Ctl := []
  cur : Option (Ctl × Nat) := none
  sends : Nat := 0
  sentNs : Nat := 0
  teleNs : Nat := 0
  counts : Option (Nat × Nat × Nat × Nat) := none
  epoch : Nat := 0
  port : Nat := 0xFF
  waveGen : Nat := 0
  trimGen : Nat := 0
  trimCrc : Nat := 0
  waveLoad : Option Nat := none
  trimLoad : Option Nat := none
  delays : List Int := []
  accepted : Nat := 0
  errHigh : Bool := false
  timeSeq : Nat := 0
  timeNs : Nat := 0
  authNs : Nat := 0
  stage : Nat := 0
  service : Option (Nat × Nat) := none
  clearLseq : Option Nat := none
  bound : Option Ctl := none
  drops : Bool := false
  keep : Bool := false
  deriving DecidableEq, Repr, Inhabited

/-! ### Heads, head side (chapter 08) -/

/-- A fire time at the head (R190, R194): absent, HOLD, or a device time in ns. -/
inductive FireTime
  | absent | hold | at (ns : Nat)
  deriving DecidableEq, Repr, Inhabited

/-- One of a head's line slots (R192): page line, GEN and DOTS of its data, and its row fire times. -/
structure HSlot where
  lseq : Nat
  line : Option (Nat × Nat × Bytes) := none
  hdrBad : Bool := false
  tA : FireTime := .absent
  tB : FireTime := .absent
  committed : Bool := false
  firedA : Bool := false
  firedB : Bool := false
  endNs : Nat := 0
  deriving DecidableEq, Repr, Inhabited

/-- One port of a head: its last AUTH, its CONTROL sequence, whether ASSIGN came on it since its link trained, and its
last ENUM and TELEMETRY frames. `teleDue` is a commit not yet reported, `ctlLate` a CTL_LATE not yet reported. -/
structure HPort where
  fresh : Bool := false
  epoch : Nat := 0
  lease : Nat := 0
  authNs : Nat := 0
  cseq : Nat := 0
  asn : Bool := false
  enumNs : Option Nat := none
  teleNs : Nat := 0
  teleDue : Bool := false
  ctlLate : Bool := false
  deriving DecidableEq, Repr, Inhabited

/-- A table load into a staged bank: the chunks received, and the CRC announced (R197). -/
structure HLoad where
  chunks : Tab Bytes := []
  crc : Nat := 0
  deriving DecidableEq, Repr, Inhabited

/-- A head module. `err` is the head's time less device time in ps; `bound` are the CONTROL operations waiting for the
line they name; `lastFt` the line of the last departure FIRE_TIME; `nozEnd` by nozzle the end of its last waveform (device
ns, empty while none has started) and `rowPrev` by row the line fired last and the nozzles it started a waveform on. -/
structure HeadSide where
  assigned : Option Nat := none
  ports : List HPort := [{}, {}]
  obeyed : Option Nat := none
  epochTie : Bool := false
  synced : Bool := false
  timeLock : Bool := false
  err : Int := 0
  good : Nat := 0
  bad : Nat := 0
  hotLimit : Option Int := none
  hot : Bool := false
  temp : Int := 0
  inService : Bool := false
  bound : List Ctl := []
  slotNs : Nat := 0
  slots : List HSlot := []
  lastFt : Option Nat := none
  lastCommit : Nat := 0
  lastCommitNs : Nat := 0
  anyCommit : Bool := false
  waveGen : Nat := 0
  trimGen : Nat := 0
  waveActive : Bytes := []
  trimActive : Bytes := []
  waveLoad : HLoad := {}
  trimLoad : HLoad := {}
  waveStaged : Option Bytes := none
  trimStaged : Option Bytes := none
  hdrErr : Nat := 0
  late : Nat := 0
  busy : Nat := 0
  discard : Nat := 0
  nozEnd : List Nat := []
  rowPrev : List (Nat × List Nat) := []
  deriving DecidableEq, Repr, Inhabited

/-! ### Serial lanes (chapter 09) -/

/-- A lane's test logic beside its objects: the eye scan running (1 quick, 2 full), the receiver's block boundary in UI
and the instant up to which LANE_PRBS_BITS has counted. -/
structure LaneSt where
  eye : Nat := 0
  slip : Nat := 0
  since : Nat := 0
  deriving DecidableEq, Repr, Inhabited

/-! ### Camera ports (chapter 10) -/

/-- One frame of a camera: its job, number, epoch, FRAME_MARK, FIRST_POS (2^-16 count), height in camera lines, line
pitches per camera line, Y_j(0) and the line pitch (Q32), the next line trigger, received lines (no bytes for NO_DATA), whether its end
edge has been sent and when, lines beyond its height, and whether it has closed. -/
structure Frame where
  job : Nat
  number : Nat
  epoch : Nat := 0
  marks : Nat := 0
  firstPos : Int := 0
  height : Nat := 0
  pitches : Nat := 2
  base : Int := 0
  lambda : Int := 0
  nextTrig : Nat := 0
  lines : List (Option Bytes) := []
  endNs : Option Nat := none
  extra : Nat := 0
  closed : Bool := false
  stats : Bool := false
  deriving DecidableEq, Repr, Inhabited

/-- A camera port. `gone` says that it is lost or disabled and not yet back; `skip` are jobs whose frame is not this acquisition's; `next` the number of the next frame; `due` the
frames still to start before each settings write takes effect; `reg` the outstanding control request: kind, tag, sends,
instant of the last send and data. -/
structure Cam where
  frames : List Frame := []
  gone : Bool := false
  skip : List Nat := []
  next : Nat := 0
  due : List Nat := []
  prevEpoch : Option Nat := none
  lastPkt : Nat := 0
  trigBusy : Nat := 0
  tag : Nat := 0
  reg : Option (Nat × Nat × Nat × Nat × Bytes) := none
  deriving DecidableEq, Repr, Inhabited

/-! ### Nimbus (chapter 11) -/

/-- A detail item of Table 11.4. -/
structure NimItem where
  kind : Nat
  ty : Nat
  bar : Nat := 0xFF
  head : Nat := 0xFF
  x0 : Nat := 0
  x1 : Nat := 0
  first : Nat := 0
  last : Nat := 0
  loss : Nat := 0
  e : Nat := 0
  crop : Nat := 0xFFFF
  deriving DecidableEq, Repr, Inhabited

/-- What Nimbus holds of a page from its first frame start, or its first check line, to its verdict: the Nimbus objects
in force for it, the registration its prediction is shifted by, the bands done and what they found: whether a column was
DEFECT, the pairs suspected and the pairs under observation judged, column items, and per bar the sum and number of column
losses. -/
structure NimPage where
  job : Nat
  objs : Tab Int := []
  blobs : List Host.Cell := []
  committed : Bool := false
  regAlong : List Int := []
  regAcross : List Int := []
  bands : Nat := 0
  nozzle : Bool := false
  unresolved : Bool := false
  suspects : List Nat := []
  judged : List Nat := []
  items : List NimItem := []
  density : List (Rat × Nat) := List.replicate 8 (0, 0)
  deriving DecidableEq, Repr, Inhabited

/-- A stream block waiting to be written: stream, FORMAT, job, X0, width, first camera line, height, data, the level
of S2; `drop` says that it is dropped by R400. -/
structure StreamBlk where
  stream : Nat
  format : Nat
  job : Nat
  x0 : Nat
  w : Nat
  y0 : Nat
  h : Nat
  data : Bytes
  level : Nat := 0
  drop : Bool := false
  deriving DecidableEq, Repr, Inhabited

/-- Nimbus. `reg` and `regAcross` are each bar's registration of the previous verdict in 0.01 um; `primaries` says that
NIM_PRIMARIES has been committed since reset; `pages` counts pages for stream S3. -/
structure Nim where
  pages : List NimPage := []
  reg : List Int := List.replicate 8 0
  regAcross : List Int := List.replicate 8 0
  primaries : Bool := false
  fullRaised : Bool := false
  s2Drop : Bool := false
  count : Nat := 0
  blocks : List StreamBlk := []
  deriving DecidableEq, Repr, Inhabited

/-! ### Calibration (chapter 12) -/

/-- A proposal held for the host (R280). -/
structure Proposal where
  seq : Nat
  cls : Nat
  inst : Nat
  value : Int
  job : Nat
  since : Nat
  loss : Nat := 0
  deriving DecidableEq, Repr, Inhabited

/-- A correction staged for its page boundary (R278, R279): class 3 or 4, instance, change in 0.01 um. -/
structure Correction where
  cls : Nat
  inst : Nat
  change : Int
  approved : Bool
  deriving DecidableEq, Repr, Inhabited

/-- A lane, DRAM or head unit beside its objects: the first result of a pair, the temperature at its start, consecutive
disagreements, the retry instant, whether it has a T_ref, whether it has accepted a pair since reset; a lane's phase that
awaits its boundary with the phase it starts from, a subchannel's delay set with the mask of ranks that hold it, and whether
they are restored ones; for a head the tile estimates and pages gathered and the last job. -/
structure CalUnit where
  first : Option (List Int) := none
  temp0 : Int := 0
  fails : Nat := 0
  retryAt : Option Nat := none
  hasRef : Bool := false
  accepted : Bool := false
  target : Option Int := none
  base : Int := 0
  set : Bytes := []
  setDone : Nat := 0
  restoring : Bool := false
  tiles : List Int := []
  pages : Nat := 0
  job : Nat := 0
  deriving DecidableEq, Repr, Inhabited

/-- A bar unit: results of pages not yet paired, the first result of the pair in progress, consecutive disagreements, and
the PSN of the job at which its settings last changed. -/
structure CalBar where
  results : List (Int × Nat) := []
  first : Option Int := none
  fails : Nat := 0
  settled : Option Nat := none
  deriving DecidableEq, Repr, Inhabited

/-- Calibration. `units` by class * 65536 + instance. -/
structure Cal where
  units : Tab CalUnit := []
  bars : Tab CalBar := []
  props : List Proposal := []
  seq : Nat := 0
  staged : List Correction := []
  deriving DecidableEq, Repr, Inhabited

/-! ### Twin link (chapter 21) -/

/-- The twin link and what a card knows of its partner. `unacked` are frames sent and not acknowledged, oldest first,
with their latest send; `stop` is the planned stop of an active chip handing over (R432); `epochSeen` the active chip's epoch;
`jobs` the jobs of the snapshot; `summaries` decode summaries received for jobs this card has not finished (R429). -/
structure Twin where
  up : Bool := false
  presLow : Bool := false
  half : Bool := false
  slow : Bool := false
  badLanes : List Nat := []
  txSeq : Nat := 0
  rxSeq : Nat := 0
  unacked : List (Nat × TwinItem × Nat) := []
  lastRx : Nat := 0
  lastTx : Nat := 0
  partner : Nat := 0
  electSince : Nat := 0
  stop : Option Nat := none
  handing : Bool := false
  epochSeen : Nat := 0
  jobs : List Nat := []
  snapshot : Bool := false
  summaries : List (Nat × Nat × Summary) := []
  deriving DecidableEq, Repr, Inhabited

/-! ### Mantis (chapter 16) -/

/-- An axis of Mantis (R335 to R352): commanded position, velocity and acceleration (counts and seconds); the plan as
segments of a duration and a jerk; whether a limit or the target has been written since; the move in progress, whether it is
being aborted, the predicted overshoot, and a target written during an abort; homing (1 searching, 2 stopping after the
event); whether the axis accepts targets, and since when AXEN is asserted; a disable waiting for standstill; the shift of the
feedback position by homing; since when the following error, standstill, and contact conditions hold; the instant up to which the first
sample is held; the whole count of the last step; the limit switches Halo has been told of; samples parity for forwarding. -/
structure AxisSt where
  p : Rat := 0
  v : Rat := 0
  a : Rat := 0
  plan : List (Rat × Rat) := []
  dirty : Bool := false
  moving : Bool := false
  abort : Bool := false
  excess : Rat := 0
  again : Bool := false
  homing : Nat := 0
  accept : Bool := false
  enabledAt : Nat := 0
  off : Bool := false
  fbOff : Rat := 0
  feSince : Option Nat := none
  still : Nat := 0
  contactSince : Option Nat := none
  wake : Nat := 0
  steps : Int := 0
  limNeg : Bool := false
  limPos : Bool := false
  odd : Bool := false
  deriving DecidableEq, Repr, Inhabited

/-! ### The loop engine (chapter 17) -/

/-- A loop's trace (R364, R365): samples newest first, evaluations since the last one, whether the trigger has come and
what its stamp was, a trigger event not yet recorded, and node LP_TR_TRIG at the sample before. -/
structure Trace where
  samples : List (List Nat) := []
  skip : Nat := 0
  trig : Bool := false
  fire : Bool := false
  prev : Option Nat := none
  deriving DecidableEq, Repr, Inhabited

/-- A loop (R356 to R365). Vectors are binary32 encodings. `start` holds the values its outputs start from until its first
sample, `law` says that the active law has been written since the last one, `gap` the outputs that slew with their remaining
gaps, `bad` consecutive samples with an invalid input, `feNs` the following-error timer. -/
structure LoopSt where
  mode : Nat := 0
  start : Option (List Nat) := none
  law : Bool := false
  y : List Nat := []
  r : List Nat := []
  nu : List Nat := []
  xc : List Nat := []
  xh : List Nat := []
  v : List Nat := []
  u : List Nat := []
  iota : List Nat := []
  duty : List Nat := []
  fe : Nat := 0
  gap : List (Nat × Nat) := []
  bad : Nat := 0
  feNs : Nat := 0
  trace : Trace := {}
  deriving DecidableEq, Repr, Inhabited

/-- A PWM output, or a valve output in PWM mode: the duty and period in force and when the present period began (R368). -/
structure Pwm where
  duty : Nat := 0
  period : Nat := 0
  since : Nat := 0
  deriving DecidableEq, Repr, Inhabited

/-- Low-speed I/O: latest ADC conversions, instants + 1 since which channels are outside their window, PWM outputs by number and valve outputs by 64 + number. -/
structure Io where
  adc : Tab Nat := []
  outSince : Tab Nat := []
  pwm : Tab Pwm := []
  deriving DecidableEq, Repr, Inhabited

/-! ### DRAM (chapter 18) -/

/-- A rank: 0 awake, 1 power-down, 2 self-refresh; its last request, its latest MR4 reading and doubled refresh. -/
structure Rank where
  mode : Nat := 0
  last : Nat := 0
  temp : Option Int := none
  doubled : Bool := false
  deriving DecidableEq, Repr, Inhabited

/-- The DRAM controller beside its objects: open rows by bank (row + 1 and last access), ranks by 2 * subchannel + rank,
the subchannel whose sweep runs, a data rate held for it, patrol scrub's next burst, corrections per device in this pass
(by 10 * subchannel + 5 * rank + device), devices reported in it, and when TRAINING began. -/
structure DramSt where
  rows : Tab (Nat × Nat) := []
  ranks : Tab Rank := []
  sweep : Option Nat := none
  rateHeld : Option Nat := none
  scrub : Nat := 0
  rises : Tab Nat := []
  suspects : List Nat := []
  trainSince : Nat := 0
  deriving DecidableEq, Repr, Inhabited

/-! ### Stratus (chapter 19) -/

/-- A job an engine has run and not posted: its completion record's fields, where its output goes (device address or
host address), the output, whether a buffer of it is a device buffer, and the stream it belongs to. -/
structure StrJob where
  tag : Nat
  status : Nat := 0
  reason : Nat := 0
  checked : Bool := false
  inLen : Nat := 0
  outLen : Nat := 0
  blocks : Nat := 0
  stored : Nat := 0
  check : Nat := 0
  dst : Nat := 0
  dstDev : Bool := false
  out : Bytes := []
  dev : Bool := false
  stream : Option Nat := none
  deriving DecidableEq, Repr, Inhabited

/-- An open Stratus stream (R395): its ring, window, checksum flag, the sources so far and the bytes written. -/
structure StrStream where
  ring : Nat
  window : Nat
  check : Bool
  held : Bytes := []
  written : Nat := 0
  deriving DecidableEq, Repr, Inhabited

/-- Stratus: the job each engine has not posted, open streams by number, tags of queued jobs that are aborted, and tags
posted since reset. -/
structure Stratus where
  eng : Tab (Option StrJob) := []
  streams : Tab (Option StrStream) := []
  aborts : List Nat := []
  posted : List Nat := []
  deriving DecidableEq, Repr, Inhabited

/-! ### Power, Cicada and reset (chapters 23 and 24) -/

/-- The power controller: PWR_CTRL (R459), a rise that waits for VDD_CORE (its state and the cause of Table 23.10), where PWR_VCORE
is stepping to (mV) and the instant of its last step, whether only PD0 is on, whether the root PLL was lost after boot, the instant of
a requested reset, and whether the host still waits for the answer to a fall. -/
structure Power where
  ctrl : Nat := 0
  rising : Option (Nat × Nat) := none
  goal : Nat := 750
  stepNs : Nat := 0
  off : Bool := false
  pllLost : Bool := false
  resetAt : Option Nat := none
  asked : Bool := false
  deriving DecidableEq, Repr, Inhabited

/-- A spit wake (R467): its domain, the bars still served, when it began (ACLK cycles of dormancy), whether the heads have been
prepared, the bars whose HV_EN is raised, lines departed and when the next is due, and a cause of a full wake found during it with
its channel or head and reading. -/
structure Spit where
  dom : Nat
  bars : List Nat
  since : Nat
  ready : Bool := false
  line : Nat := 0
  next : Nat := 0
  wake : Option (Nat × Nat × Int) := none
  deriving DecidableEq, Repr, Inhabited

/-- Cicada (R466 to R469): wakes since DORMANT was entered, when its timer expires (ACLK cycles of dormancy), the GPIO levels
seen at the latest wake, the spit in progress and the bars whose HV_EN it raises, and whether the timer expired during it. -/
structure Cicada where
  wakes : Nat := 0
  next : Nat := 0
  pins : Nat := 0
  spit : Option Spit := none
  hv : List Nat := []
  late : Bool := false
  deriving DecidableEq, Repr, Inhabited

/-- Everything the device holds. `out` is the list of what the device has sent, newest first; `free` the counter the
free values are drawn with. -/
structure State where
  pending : List Instr := []
  objs : Tab Int := []
  blobs : List Host.Cell := []
  out : List Out := []
  free : Nat := 0
  hq : Hq := {}
  time : Time := {}
  halo : Halo := {}
  jnl : Jnl := {}
  toa : Toa := {}
  scarab : Scarab := {}
  web : Web := {}
  ffy : Firefly := {}
  lcw : Lacewing := {}
  heads : Tab HeadDev := []
  headSides : Tab HeadSide := []
  lanes : Tab LaneSt := []
  cams : Tab Cam := []
  nim : Nim := {}
  cal : Cal := {}
  dram : List Host.Cell := []
  twin : Twin := {}
  axes : Tab AxisSt := []
  loops : Tab LoopSt := []
  io : Io := {}
  dramSt : DramSt := {}
  str : Stratus := {}
  pwr : Power := {}
  cic : Cicada := {}
  deriving DecidableEq, Repr, Inhabited

/-- The machine right after a power-on reset (R409, R474, R475): RESET_SAFE is latched with source 1 and raised, every bar waits
for a page boundary after its clear (R408), RST_SOURCE is 1 and this reset is counted. Everything else is at the default of its
object table, or at the value the fields above give. -/
def State.reset : State :=
  { halo := {
      faults := [{ code := 0x140E, cls := 2, inst := 1, detail := List.replicate 12 0 }]
      blankBars := [0, 1, 2, 3, 4, 5, 6, 7] }
    hq := { rings := [(24, { held := [[0x10, 0, 0x20, 0x14] ++ List.replicate 8 0 ++ [0x0E, 0x14, 2, 0] ++ List.replicate 12 0] })] }
    objs := [(0x230003, 1), (0x230004, 1)] }

/-- Why the device stops. -/
inductive Fault
  /-- Raised by DRAM_READ and DRAM_WRITE for an address beyond the installed memory: the spec gives no device there.
  Safe: the model stops where the spec says nothing. -/
  | noSuchAddress (addr : Nat)
  deriving DecidableEq, Repr

/-- Why a command is turned away by the model. -/
inductive Refusal
  /-- Raised by Dispatch.lean for a command without a meaning yet. Safe: nothing is claimed of it. -/
  | notModelled (mnemonic : String)
  deriving DecidableEq, Repr

abbrev Outcome := Host.Outcome State Fault Refusal

end Sys2Proof.Machine
end

