-- ==== Sys2Proof/Machine/Ops.lean ====
section
/-! DEFINITION. The shared operations: sparse tables in canonical form, objects and their bytes, time stamps,
saturating counters (R24, R27), rings and records (R41, R45, R46), events (Table 2.10), the audit journal (R442 to
R446), and power domains (R28, R326, R327). -/

namespace Sys2Proof

/-! ### Sparse tables -/

def Tab.get {α : Type} (d : α) : Tab α → Nat → α
  | [], _ => d
  | e :: t, k => if e.1 = k then e.2 else Tab.get d t k

def Tab.erase {α : Type} (k : Nat) : Tab α → Tab α
  | [] => []
  | e :: t => if e.1 = k then Tab.erase k t else e :: Tab.erase k t

def Tab.insert {α : Type} (k : Nat) (v : α) : Tab α → Tab α
  | [] => [(k, v)]
  | e :: t => if k < e.1 then (k, v) :: e :: t else e :: Tab.insert k v t

/-- Set an entry, keeping the canonical form: writing the default removes it. -/
def Tab.set {α : Type} [DecidableEq α] (d : α) (t : Tab α) (k : Nat) (v : α) : Tab α :=
  if v = d then Tab.erase k t else Tab.insert k v (Tab.erase k t)

/-- The canonical form: keys strictly rising, no entry equal to the default of its key. -/
def Tab.wf {α : Type} [DecidableEq α] (d : Nat → α) : Tab α → Bool
  | [] => true
  | [e] => decide (e.2 ≠ d e.1)
  | e :: f :: t => decide (e.2 ≠ d e.1) && decide (e.1 < f.1) && Tab.wf d (f :: t)

/-- Update element `i` of a list. -/
def upd {α : Type} (l : List α) (i : Nat) (f : α → α) : List α := l.modify i f

namespace Obj

/-- The object group and instance an index belongs to (R325). -/
def groupOf (idx : Nat) : List ObjGroup → Option (ObjGroup × Nat)
  | [] => none
  | g :: t =>
    if g.base ≤ idx ∧ (idx - g.base) % g.stride = 0 ∧ (idx - g.base) / g.stride < g.count then
      some (g, (idx - g.base) / g.stride)
    else groupOf idx t

/-- The row and instance of an object key, if the spec defines it. PE lanes have no calibration objects (R271). -/
def find (key : Nat) : Option (ObjRow × Nat) :=
  match groupOf (key / 256) groups with
  | none => none
  | some (g, i) =>
    if g.base = 0x6C03 ∧ 128 ≤ i ∧ i < 144 then none
    else (g.rows.find? (fun r => r.sub == key % 256)).map (fun r => (r, i))

/-- COUNT of an index (R326): the highest subindex defined there. -/
def countOf (idx : Nat) : Option Nat :=
  match groupOf idx groups with
  | none => none
  | some (g, i) =>
    if g.base = 0x6C03 ∧ 128 ≤ i ∧ i < 144 then none
    else some (g.rows.foldl (fun m r => max m r.sub) 0)

/-- The table default of an object. -/
def dflt (key : Nat) : Int :=
  match find key with
  | some (r, i) => r.dflt i
  | none => 0

/-- Bytes of a value of a type (Table 14.1); 0 for STR and BLOB. -/
def tyBytes (ty : Nat) : Nat :=
  match ty with
  | 1 => 1 | 2 => 1 | 3 => 2 | 4 => 4 | 5 => 8 | 6 => 1 | 7 => 2 | 8 => 4 | 9 => 8 | 10 => 4 | 11 => 8
  | _ => 0

/-- Whether a type is signed. -/
def tySigned (ty : Nat) : Bool := (6 ≤ ty && ty ≤ 9) || ty == 11

/-- The domain of an object index (Table 15.1, 15.7, 15.9, 15.11). -/
def domain (idx : Nat) : Nat :=
  if idx < 0x2040 then 1
  else if idx < 0x2050 then 11
  else if idx < 0x2200 then 1
  else if idx < 0x2500 then 0
  else if 0x3000 ≤ idx ∧ idx < 0x3800 then
    let b := (idx - 0x3000) / 0x100
    let o := idx % 0x100
    if o < 0x40 then 1 else if o < 0xA0 then 4 + b / 2 else if o < 0xC0 then 8 else 1
  else if 0x4000 ≤ idx ∧ idx < 0x5000 then
    if idx % 0x20 = 0x1C then 1 else 4 + (idx - 0x4000) / 0x20 / 32
  else if 0x5000 ≤ idx ∧ idx < 0x5640 then 11
  else if 0x5640 ≤ idx ∧ idx < 0x5650 then 0
  else if 0x5650 ≤ idx ∧ idx < 0x6400 then 11
  else if 0x6400 ≤ idx ∧ idx < 0x6500 then if idx % 0x40 = 2 then 8 else 9
  else if 0x6500 ≤ idx ∧ idx < 0x6600 then 8
  else if 0x6800 ≤ idx ∧ idx < 0x6900 then 2
  else if 0x6C00 ≤ idx ∧ idx < 0x6EB8 then
    let n := (idx - 0x6C00) / 4
    if idx % 4 = 3 then 1
    else if n < 128 then 4 + n / 32 else if n < 144 then 3 else if n < 160 then 9 else if n < 172 then 3 else 1
  else if 0x7000 ≤ idx ∧ idx < 0x7100 then 10
  else if 0x7800 ≤ idx ∧ idx < 0x7900 then 0
  else if 0x7C00 ≤ idx ∧ idx < 0x7D00 then 3
  else if 0x8000 ≤ idx ∧ idx < 0x8080 then 4 + (idx - 0x8000) / 32
  else if 0x8100 ≤ idx ∧ idx < 0x8108 then 4 + (idx - 0x8100) / 2
  else if 0x8200 ≤ idx ∧ idx < 0x8208 then 11
  else if idx = 0x8300 then 2
  else if 0x8400 ≤ idx ∧ idx < 0x8420 then 11
  else 1

/-- Reverse of four bits (R163). -/
def rev4 (m : Nat) : Nat := field m 0 1 * 8 + field m 1 1 * 4 + field m 2 1 * 2 + field m 3 1

def ascii (s : List Char) (off : Nat) : Byte := BitVec.ofNat 8 ((s.getD off (Char.ofNat 0)).toNat)

/-- Table default of byte `off` of a BLOB or STR object. -/
def blobDflt (key off : Nat) : Byte :=
  let idx := key / 256
  let sub := key % 256
  if idx = 0x1000 then
    if sub = 1 then ascii ['G', 'h', 'e', 'k', 'a', 'o', 'k'] off
    else if sub = 2 then ascii ['Q', 'X', '1', '0', '2', '4'] off
    else if sub = 3 then
      ascii ['Q', 'X', '1', '0', '2', '4', '-', 'A', '1', '-', 'F', '3', '2', '4', '9', '-', 'I'] off
    else 0
  else if idx = 0x1110 ∨ idx = 0x1111 then
    if Config.enBlock (idx - 0x1110) then Config.ip6Byte (idx - 0x1110) sub off else 0
  else if idx = 0x1900 then
    if sub = 2 then Config.certByte off else if sub = 3 then Config.imageDigestByte off else 0
  else if idx = 0x1800 then if sub = 4 then Config.freeByte 0 off else 0
  else if 0x3000 ≤ idx ∧ idx < 0x3800 ∧ idx % 0x100 = 0x80 then
    if sub = 1 then
      -- R163: bit k of row m is 1 when k >= 4 rev(m) + 2
      let m := off % 128 / 8
      BitVec.ofNat 8 ((List.range 8).foldl
        (fun v i => if 4 * rev4 m + 2 ≤ 8 * (off % 8) + i then v + 2 ^ i else v) 0)
    else if off % 8 < 6 then 0xF9 else 0
  else if 0x8100 ≤ idx ∧ idx < 0x8108 then
    if off = 0 then 1 else if 136 ≤ off then BitVec.ofNat 8 (0x529A38BC / 256 ^ (off - 136)) else 0
  else if 0x8200 ≤ idx ∧ idx < 0x8208 then
    if 4096 ≤ off then BitVec.ofNat 8 (0x98F94189 / 256 ^ (off - 4096)) else 0
  else if idx = 0x6501 then
    if sub = 2 then (match off % 4 with | 0 => 0 | 1 => 110 | 2 => 170 | _ => 230)
    else if sub = 3 then if off % 50 = 25 then 0x10 else 0
    else 0
  else if 0x6400 ≤ idx ∧ idx < 0x6500 then if sub = 2 ∧ idx % 0x40 = 2 ∧ off % 2 = 1 then 0x10 else 0
  else if 0x5800 ≤ idx ∧ idx < 0x6000 then
    let g := idx % 0x40
    if (g = 0x10 ∧ (sub = 2 ∨ sub = 7)) then (match off % 4 with | 2 => 0x80 | 3 => 0x3F | _ => 0)
    else if g = 0x18 ∧ sub = 1 then
      (match off % 8 with | 2 => 0x80 | 3 => 0xBF | 6 => 0x80 | 7 => 0x3F | _ => 0)
    else 0
  else if idx = 0x6800 ∧ sub = 0x11 then
    (le 4 (match off / 4 with
      | 0 => 1000 | 1 => 2000 | 2 => 10000 | 3 => 10000 | 4 => 20000 | 5 => 50000 | 6 => 100000 | _ => 1000000)).getD (off % 4) 0
  else if idx = 0x2210 ∧ sub = 7 then 0x80
  else 0

end Obj

namespace Machine

/-! ### Objects -/

def State.obj (s : State) (k : Nat) : Int := Tab.get (Obj.dflt k) s.objs k

/-- The value of an unsigned object. -/
def State.objN (s : State) (k : Nat) : Nat := (s.obj k).toNat

def State.setObj (s : State) (k : Nat) (v : Int) : State := { s with objs := Tab.set (Obj.dflt k) s.objs k v }

def State.objBit (s : State) (k i : Nat) : Bool := bitAt (s.objN k) i

def State.setBit (s : State) (k i : Nat) (b : Bool) : State := s.setObj k (putBit (s.objN k) i b : Nat)

/-- The value of an F32 object. -/
def State.objF (s : State) (k : Nat) : Rat := f32Val (s.objN k)

/-- Address of byte `off` of a table object in `blobs`. -/
def blobAddr (k off : Nat) : Nat := k * 2 ^ 24 + off

def State.byte (s : State) (k off : Nat) : Byte := Tab.get (Obj.blobDflt k off) s.blobs (blobAddr k off)

def State.setByte (s : State) (k off : Nat) (v : Byte) : State :=
  { s with blobs := Tab.set (Obj.blobDflt k off) s.blobs (blobAddr k off) v }

/-- Bytes `off` to `off + n - 1` of a table object. -/
def State.blob (s : State) (k off n : Nat) : Bytes := (List.range n).map (fun i => s.byte k (off + i))

def State.blobN (s : State) (k off n : Nat) : Nat := unle (s.blob k off n)

def State.blobF (s : State) (k off : Nat) : Nat := s.blobN k off 4

def State.setBlob (s : State) (k off : Nat) : Bytes → State
  | [] => s
  | b :: t => (s.setByte k off b).setBlob k (off + 1) t

/-- Length in bytes of a BLOB or STR object: fixed by its table, or kept beside it where it varies. -/
def State.blobLen (s : State) (k : Nat) : Nat :=
  match Obj.find k with
  | some (r, _) => if r.len ≠ 0 then r.len else s.objN k
  | none => 0

/-! ### Time -/

/-- Nanoseconds counted by the stamp accumulator (R287), unwrapped. -/
def State.now (s : State) : Nat := s.time.acc / 2 ^ 32

/-- Instants while device time may stand still: dormancy is counted in 100 ns cycles of ACLK (R464). -/
def State.aclkNs (s : State) : Nat := s.now + 100 * s.time.dormant

/-- STAMP (R287). -/
def State.stamp (s : State) : Nat := s.now % 2 ^ 32

/-- Full time, Table 13.1. -/
def State.fullTime (s : State) : Bytes :=
  le 6 s.time.sec ++ [0, 0] ++ le 4 s.time.ns ++ le 4 s.time.frac

/-- Device time in ns, as fire times carry it. -/
def State.devNs (s : State) : Nat := s.time.sec * 1000000000 + s.time.ns

/-- Device time, in ns, of an instant of the stamp accumulator. -/
def State.devOf (s : State) (t : Nat) : Nat := ((s.devNs : Int) + ((t : Int) - (s.now : Int))).toNat

/-! ### Domains -/

/-- State of domain PDd in PWR_DOMAINS: 0 OFF, 1 RETENTION, 2 ON, 3 starting; PD0 is always on. -/
def State.domain (s : State) (d : Nat) : Nat :=
  if d = 0 then 2 else field (s.objN Obj.PWR_DOMAINS) (2 * (d - 1)) 2

/-- A domain answers when it is on and the root PLL clocks it (R28, R457, R472); PD0 runs on ACLK. -/
def State.ready (s : State) (d : Nat) : Bool :=
  d == 0 || (s.domain d == 2 && s.objBit Obj.CLK_STATUS 1)

/-! ### Rings -/

def State.ring (s : State) (q : Nat) : Ring := Tab.get {} s.hq.rings q

def State.setRing (s : State) (q : Nat) (r : Ring) : State :=
  { s with hq := { s.hq with rings := Tab.set {} s.hq.rings q r } }

def Ring.size (r : Ring) : Nat := 2 ^ r.sizeLog2

/-- Forward distance modulo 2^32. -/
def fwd32 (a b : Nat) : Nat := (b + 2 ^ 32 - a % 2 ^ 32) % 2 ^ 32

def Ring.used (r : Ring) : Nat := fwd32 r.cons r.prod

def Ring.active (r : Ring) : Bool := r.en && !r.err

/-- Direction of Table 2.5. -/
def isRecordRing (q : Nat) : Bool := (16 ≤ q && q ≤ 47) || (52 ≤ q && q ≤ 59) || 62 ≤ q

def isEventRing (q : Nat) : Bool := 24 ≤ q && q ≤ 31

/-- Rings whose records R58 discards while the link is down: completions, events, results, Nimbus streams and Stratus
completions. -/
def lostOnLinkDown (q : Nat) : Bool := (16 ≤ q && q ≤ 47) || (52 ≤ q && q ≤ 55)

def State.emit (s : State) (o : Out) : State := { s with out := o :: s.out }

/-- Send an MSI-X vector: delivered, or pended while its table entry is masked (Table 2.3). -/
def State.msix (s : State) (v : Nat) : State :=
  if Tab.get 1 s.hq.msix (v * 4 + 3) % 2 = 1 then
    if s.hq.pba.contains v then s else { s with hq := { s.hq with pba := v :: s.hq.pba } }
  else s.emit (.msix v)

/-- Count a dropped record (R46, R58). The flag says the counter has just saturated. -/
def Ring.dropOne (r : Ring) (lost : Bool) : Ring × Bool :=
  if r.drop = 2 ^ 32 - 1 then ({ r with lost := r.lost || lost }, false)
  else
    let sat := r.drop + 1 = 2 ^ 32 - 1
    ({ r with drop := r.drop + 1, dropOvf := r.dropOvf || sat, lost := r.lost || lost }, sat)

/-- Hand a record to its ring: held on chip until RECORD_POST writes it, dropped where R46 or R58 says. The first event that
enters after a drop carries LOST (Table 2.10). The flag says HQ_RING_DROP has just saturated. -/
def State.pushRaw (s : State) (q : Nat) (rec : Bytes) : State × Bool :=
  let r := s.ring q
  if !s.hq.linkUp && lostOnLinkDown q then
    let x := r.dropOne false
    (s.setRing q x.1, x.2)
  else if isEventRing q && 256 ≤ r.held.length then
    let x := r.dropOne true
    (s.setRing q x.1, x.2)
  else
    let rec' := if isEventRing q ∧ r.lost = true then splice rec 1 (le 1 (byteAt rec 1 + 2)) else rec
    (s.setRing q { r with held := r.held ++ [rec'], lost := r.lost && !isEventRing q }, false)

/-- An event record without PHASE and CRC (Table 2.10). `args` are (byte, width, value) from byte 12 on. -/
def State.eventBytes (s : State) (code idx sub : Nat) (args : List (Nat × Nat × Nat)) : Bytes :=
  layout 28 ([(0, 1, 0x10), (2, 2, code), (4, 4, s.stamp), (8, 2, idx), (10, 1, sub)] ++ args)

/-- COUNTER_OVF (R27). -/
def State.counterOvf (s : State) (idx sub elem kind ringNo off : Nat) : State :=
  (s.pushRaw 24 (s.eventBytes 0x0101 idx sub
    [(12, 2, elem), (14, 1, kind), (15, 1, ringNo), (16, 4, off)])).1

/-- Hand a record to its ring, with COUNTER_OVF where its drop counter saturates. -/
def State.push (s : State) (q : Nat) (rec : Bytes) : State :=
  let x := s.pushRaw q rec
  if x.2 then x.1.counterOvf 0 0 0 2 q 0x24 else x.1

/-- Raise an event on a ring. -/
def State.event (s : State) (q code : Nat) (args : List (Nat × Nat × Nat)) : State :=
  s.push q (s.eventBytes code 0 0 args)

/-! ### Saturating counters (R24, R27) -/

/-- Largest value of a counter of a type. -/
def counterMax (ty : Nat) : Nat := 2 ^ (8 * Obj.tyBytes ty) - 1

/-- Set the OVF of a counter: its own bit, or an entry of OVF_LIST. -/
def State.setOvf (s : State) (k elem : Nat) : State :=
  match Obj.find k with
  | none => s
  | some (r, _) =>
    match r.ovf with
    | some (d, sub, bit) => s.setBit ((k / 256 + d) * 256 + sub) (if k = Obj.CIC_SPIT_CNT then bit + elem else bit) true
    | none =>
      if s.toa.ovfList.length < 64 ∧ ¬ s.toa.ovfList.contains (k / 256, k % 256, elem) then
        { s with toa := { s.toa with ovfList := s.toa.ovfList ++ [(k / 256, k % 256, elem)] } }
      else s

/-- Clear the OVF of a counter (R24). -/
def State.clearOvf (s : State) (k elem : Nat) : State :=
  match Obj.find k with
  | none => s
  | some (r, _) =>
    match r.ovf with
    | some (d, sub, bit) => s.setBit ((k / 256 + d) * 256 + sub) (if k = Obj.CIC_SPIT_CNT then bit + elem else bit) false
    | none =>
      { s with toa := { s.toa with ovfList := s.toa.ovfList.filter (fun e => e ≠ (k / 256, k % 256, elem)) } }

/-- Add to a saturating counter object; its OVF and COUNTER_OVF when it first reaches its maximum. -/
def State.count (s : State) (k n : Nat) : State :=
  let mx := counterMax (match Obj.find k with | some (r, _) => r.ty | none => 4)
  let v := s.objN k
  if mx ≤ v ∨ n = 0 then s
  else
    let v' := min mx (v + n)
    let s := s.setObj k (v' : Nat)
    if v' = mx then (s.setOvf k 0).counterOvf (k / 256) (k % 256) 0 0 0 0 else s

/-- Add to element `e` (width `w` bytes, `bits` counted) of a table of saturating counters. -/
def State.countElem (s : State) (k e w bits n : Nat) : State :=
  let v := s.blobN k (e * w) w
  let mx := 2 ^ bits - 1
  if mx ≤ v ∨ n = 0 then s
  else
    let v' := min mx (v + n)
    let s := s.setBlob k (e * w) (le w v')
    if v' = mx then (s.setOvf k e).counterOvf (k / 256) (k % 256) e 0 0 0 else s

/-- Clear a saturating counter object (R24). -/
def State.clearCounter (s : State) (k : Nat) : State := (s.setObj k 0).clearOvf k 0

/-- HQ_DESC_REJECT and HQ_BAD_ACCESS are BAR0 counters (Table 2.6). -/
def State.countBadAccess (s : State) : State :=
  if s.hq.badAccess = 2 ^ 32 - 1 then s
  else
    let s := { s with hq := { s.hq with badAccess := s.hq.badAccess + 1 } }
    if s.hq.badAccess = 2 ^ 32 - 1 then
      ({ s with hq := { s.hq with badAccessOvf := true } }).counterOvf 0 0 0 1 0 0x200010
    else s

def State.countDescReject (s : State) : State :=
  if s.hq.descReject = 2 ^ 32 - 1 then s
  else
    let s := { s with hq := { s.hq with descReject := s.hq.descReject + 1 } }
    if s.hq.descReject = 2 ^ 32 - 1 then
      ({ s with hq := { s.hq with descRejectOvf := true } }).counterOvf 0 0 0 1 0 0x20000C
    else s

/-! ### Free values -/

/-- Draw `n` fresh bytes. -/
def State.draw (s : State) (n : Nat) : Bytes × State :=
  ((List.range n).map (Config.freeByte (s.free + 1)), { s with free := s.free + 1 })

def State.drawNat (s : State) : Nat × State := (Config.freeNat (s.free + 1), { s with free := s.free + 1 })

def State.drawInt (s : State) : Int × State := (Config.freeInt (s.free + 1), { s with free := s.free + 1 })

/-! ### The audit journal (R442 to R446) -/

/-- Bytes of the records an accepted job is still owed: FIRE_DONE 224, VERDICT 272, RETIRE 224 (R445). -/
def Job.reserve (j : Job) : Nat :=
  match j.st with
  | .landing => 0
  | .accepted => 720
  | _ => 224 + (if j.verdict.isNone then 272 else 0)

def State.jnlReserve (s : State) : Nat := (s.hq.jobs.map Job.reserve).foldl (· + ·) 0

def State.jnlFill (s : State) : Nat := (s.jnl.store.map (fun r => r.bytes.length)).foldl (· + ·) 0

/-- DRAM_STATE READY (Table 18.8). -/
def State.dramReady (s : State) : Bool := s.ready 2 && s.obj Obj.DRAM_STATE == 3

/-- Bytes the journal store holds: its DRAM region, or 256 KiB of management memory before DRAM is READY (R445, R479). -/
def State.jnlCap (s : State) : Nat :=
  let st := s.objN Obj.DRAM_STATE
  if st == 3 || st == 4 then s.objN Obj.JNL_STORE_MIB * 2 ^ 20 else 2 ^ 18

/-- The store has reached JNL_HIGH_MARK (R445). -/
def State.jnlHigh (s : State) : Bool := s.objN Obj.JNL_HIGH_MARK * s.jnlCap ≤ s.jnlFill * 100

/-- A record's header, body and signature (Table 22.2, R443). -/
def State.jnlRecord (s : State) (kind : Nat) (body : Bytes) : Bytes :=
  let lc := s.objN Obj.SEC_LIFECYCLE
  let hdr := layout 8 [(0, 2, 0x4A52), (2, 1, 1), (3, 1, kind), (4, 2, 100 + body.length + 96), (6, 1, lc),
    (7, 1, b2n s.jnl.debugOpen + 2 * b2n (lc == 0))]
  let signed := hdr ++ s.blob Obj.JNL_BOOT_NONCE 0 16 ++ le 8 s.jnl.seq ++ s.fullTime ++ le 4 s.stamp ++ s.jnl.prev ++ body
  signed ++ slice (Config.ecdsaSign s.jnl.signs (sha384 signed)) 0 96

/-- Store one record that has room. -/
def State.jnlStore (s : State) (kind : Nat) (body : Bytes) : State :=
  let b := s.jnlRecord kind body
  { s with jnl := { s.jnl with
      store := s.jnl.store ++ [⟨s.jnl.next, s.jnl.seq, kind, b⟩],
      next := s.jnl.next + 1,
      seq := (s.jnl.seq + 1) % 2 ^ 64,
      signs := s.jnl.signs + 1,
      prev := sha384 b } }

/-- Journal a happening (R442): stored, with a GAP record before it after a loss, or lost when no room is left outside
the reserve (R446). Before BOOT nothing is journaled; what Halo latches before then follows BOOT (BOOT_COMPLETE). -/
def State.journal (s : State) (kind : Nat) (body : Bytes) : State :=
  if !s.jnl.booted then s
  else
    let need := 196 + body.length + (if s.jnl.gap.isSome then 208 else 0)
    let reserved := kind == 4 || kind == 5 || kind == 6
    let room := if reserved then s.jnlCap else s.jnlCap - s.jnlReserve
    if s.jnlFill + need ≤ room then
      match s.jnl.gap with
      | none => s.jnlStore kind body
      | some (first, n) =>
        let s := s.jnlStore 0x0E (le 8 first ++ le 4 n)
        ({ s with jnl := { s.jnl with gap := none } }).jnlStore kind body
    else
      let gap := match s.jnl.gap with
        | none => (s.jnl.seq, 1)
        | some (f, n) => (f, min (n + 1) (2 ^ 32 - 1))
      ({ s with jnl := { s.jnl with gap := some gap, seq := (s.jnl.seq + 1) % 2 ^ 64 } }).count Obj.JNL_LOST_CNT 1

/-- Raise an event and journal its bytes 0 to 27 under a kind (Table 22.1). -/
def State.eventJ (s : State) (q code kind : Nat) (args : List (Nat × Nat × Nat)) : State :=
  let payload := s.eventBytes code 0 0 args
  (s.push q payload).journal kind payload

/-! ### Page jobs -/

def State.job? (s : State) (id : Nat) : Option Job := s.hq.jobs.find? (fun j => j.id == id)

def State.mapJob (s : State) (id : Nat) (f : Job → Job) : State :=
  { s with hq := { s.hq with jobs := s.hq.jobs.map (fun j => if j.id = id then f j else j) } }

def Job.bar (j : Job) (b : Nat) : BarJob := j.bars.getD b {}

def Job.setBar (j : Job) (b : Nat) (f : BarJob → BarJob) : Job := { j with bars := upd j.bars b f }

/-- Set marks of a job (the FLAGS of Table 2.8). -/
def State.markJob (s : State) (id m : Nat) : State :=
  s.mapJob id (fun j => { j with marks := j.marks ||| m })

def markLate : Nat := 2
def markChunk : Nat := 4
def markThermal : Nat := 8
def markInterrupted : Nat := 16
def markRate : Nat := 32

/-- A completion record without PHASE and CRC (Table 2.8). -/
def State.completion (s : State) (ty flags status reason id : Nat) (perBar : List Nat) : Bytes :=
  layout 28 ([(0, 1, ty), (1, 1, flags), (2, 1, status), (3, 1, reason), (4, 4, id), (8, 4, s.stamp)] ++
    (List.range 8).map (fun b => (12 + 2 * b, 2, perBar.getD b 0)))

/-- A job has lines left to fire, or boundaries left to pass, on a bar (R15). -/
def Job.busyOn (j : Job) (b : Nat) : Bool :=
  j.onWeb && (j.st != .landing) && decide ((j.bar b).passed < j.lines)

/-- Bar b is idle (R15): no job has lines left to fire on it and none is STAGED for it. -/
def State.barIdle (s : State) (b : Nat) : Bool := s.hq.jobs.all (fun j => !j.busyOn b)

def State.allIdle (s : State) : Bool := (List.range 8).all s.barIdle

/-! ### Power states (R461, R462) -/

def State.setDomain (s : State) (d v : Nat) : State :=
  if d = 0 then s else s.setObj Obj.PWR_DOMAINS ((putField (s.objN Obj.PWR_DOMAINS) (2 * (d - 1)) 2 v : Nat) : Int)

/-- A power state is reached: POWER_STATE with its cause of Table 23.10. -/
def State.powerReached (s : State) (new cause : Nat) : State :=
  let old := s.objN Obj.PWR_STATE
  let s := (s.setObj Obj.PWR_STATE (new : Nat)).setBit Obj.PWR_STATUS 2 false
  (s.event 24 0x1601 [(12, 1, old), (13, 1, new), (14, 1, cause)]).count Obj.PWR_TRANS_CNT 1

/-- A job STAGED in READY returns the device to ACTIVE (R462). -/
def State.readyReturn (s : State) : State :=
  if s.obj Obj.PWR_STATE = 1 then (s.setDomain 8 2).powerReached 0 2 else s

/-- The job FIRING on a bar. -/
def State.firingJob (s : State) (b : Nat) : Option Job := s.hq.jobs.find? (fun j => (j.bar b).firing)

end Machine

end Sys2Proof
end

