-- ==== Sys2Proof/Machine/AxisBase.lean ====
section
/-! DEFINITION. An axis of Mantis as the other blocks see it: its feedback position (R342), the end of a move (R338,
Table 16.5), and what STO_N does to it (R344). -/

namespace Sys2Proof.Machine

def State.ax (s : State) (x : Nat) : AxisSt := Tab.get {} s.axes x

def State.setAx (s : State) (x : Nat) (f : AxisSt → AxisSt) : State := { s with axes := Tab.set {} s.axes x (f (s.ax x)) }

def bAxen : Nat := 1
def bHomed : Nat := 2
def bCurReduced : Nat := 5
def bHandover : Nat := 6
def bContact : Nat := 7
def bFbInvalid : Nat := 8

def State.axBit (s : State) (x i : Nat) : Bool := s.objBit (Obj.AX_STATUS x) i

def State.setAxBit (s : State) (x i : Nat) (b : Bool) : State := s.setBit (Obj.AX_STATUS x) i b

/-- The axis encoder an axis takes its feedback from. -/
def State.axEnc (s : State) (x : Nat) : Option Nat :=
  let e := s.objN (Obj.AX_ENC x)
  if e < 24 then some e else none

/-- Unwrapped AXE_POS of an axis encoder. -/
def State.encPos (s : State) (e : Nat) : Int := (Tab.get {} s.web.axes e : Chan).pos

/-- An encoder position as a feedback position of the axis (R342). -/
def State.fbOf (s : State) (x : Nat) (pos : Int) : Rat :=
  (pos : Rat) * q32Val (s.obj (Obj.AX_ENC_RATIO x)) + (s.ax x).fbOff

/-- AX_FB_POS; 0 for an axis without feedback. -/
def State.fbPos (s : State) (x : Nat) : Rat :=
  match s.axEnc x with
  | some e => s.fbOf x (s.encPos e)
  | none => 0

/-- The axis stands still. -/
def AxisSt.atRest (a : AxisSt) : Bool := a.v == 0 && a.a == 0

/-- The predicted overshoot as the events carry it: I32 counts, toward zero. -/
def overshootI32 (o : Rat) : Nat :=
  bitsOf 32 (clampI (-2147483648) 2147483647 (if o < 0 then -((-o).floor) else o.floor))

def q32Bits (q : Rat) : Nat := bitsOf 64 (q32Of q)

/-- A move ends: AX_MOVE_DONE (Table 16.5). -/
def State.moveEnd (s : State) (x : Nat) (aborted : Bool) : State :=
  let m := s.ax x
  let s := s.setAx x (fun m => { m with moving := false, abort := false, excess := 0, homing := 0, again := false })
  let s := s.setObj (Obj.AX_MOVE_STATE x) 0
  if m.moving then
    s.event 24 0x1001 [(12, 1, x), (13, 1, b2n aborted), (14, 2, s.objN (Obj.AX_MOVE_SEQ x)),
      (16, 8, q32Bits m.p), (24, 4, overshootI32 m.excess)]
  else s

/-- AXEN is deasserted (R344). -/
def State.axDisable (s : State) (x : Nat) : State :=
  let s := (s.setAxBit x bAxen false).setObj (Obj.AX_ENABLE x) 0
  s.setAx x (fun m => { m with accept := false, off := false })

/-- STO_N of the axis is asserted, or PD11 goes off (R344, Table 16.3): AXEN falls, the commanded state is set to standstill, a
move ends ABORTED, a cam disengages and a hand-over ends. -/
def State.stoAxis (s : State) (x : Nat) : State :=
  if !s.axBit x bAxen then s
  else
    let p := if (s.axEnc x).isSome then s.fbPos x else (s.ax x).p
    let s := s.axDisable x
    let s := s.setAx x (fun m => { m with
      p := p, v := 0, a := 0, plan := [], dirty := false, feSince := none, still := s.now, contactSince := none,
      steps := p.floor })
    let s := (s.setObj (Obj.AX_CAM_ENGAGE x) 0).setObj (Obj.AX_CAM_STATE x) 0
    let s := (s.setAxBit x bHandover false).setAxBit x bContact false
    s.moveEnd x true

end Sys2Proof.Machine
end

