-- ==== Sys2Proof/Machine/Predictor.lean ====
section
/-! DEFINITION. Firefly's trajectory predictor (R132 to R136), fire times (R129, R130), departed lines and their
resends (R138 to R140, R147, R149). Web positions are unwrapped counts; page starts, offsets and fire positions are
Q32 raw values (2^-32 count); instants are whole ns of the stamp accumulator. -/

namespace Sys2Proof.Machine

/-- The least number below 2^n with a monotone property, or 2^n. -/
def leastNat (g : Nat → Bool) : Nat → Nat → Nat
  | 0, m => m
  | n + 1, m => if g (m + 2 ^ n - 1) then leastNat g n m else leastNat g n (m + 2 ^ n)

/-- λr (R128) as a Q32 raw value: λ, or 2λ in the 600-lpi mode. -/
def State.pitchR (s : State) : Int := s.obj Obj.FFY_LINE_PITCH * (if s.obj Obj.FFY_LPI_MODE = 1 then 2 else 1)

/-- σ (R130). -/
def State.sigma (s : State) : Nat := if s.obj Obj.FFY_ROTATE = 1 then 15 * s.objN Obj.FFY_SLOT_NS / 2 else 0

/-- Tpred(X) of R135: the whole ns at or after which the trajectory first reaches X counts; `none` is HOLD. -/
def Firefly.tpred (f : Firefly) (x : Rat) : Option Nat :=
  if !f.track then none
  else if x ≤ f.p then some f.tLast
  else
    let reachable : Bool :=
      if 0 < f.a then true
      else if f.a = 0 then decide (0 < f.v)
      else decide (0 < f.v) && decide (2 * (-f.a) * (x - f.p) ≤ f.v * f.v)
    if !reachable then none
    else
      let g := fun (n : Nat) =>
        let t : Rat := (n : Rat)
        decide (x ≤ f.p + f.v * t + f.a * t * t / 2) || (decide (f.a < 0) && decide (f.v ≤ (-f.a) * t))
      let n := leastNat g 64 0
      if n = 2 ^ 64 then none else some (f.tLast + n)

def State.tpredQ (s : State) (x : Int) : Option Nat := s.ffy.tpred (q32Val x)

/-- The present raster line period P of R137 in ns, from the last speed in TRACK; 0 before the first. -/
def State.period (s : State) : Rat :=
  let v := if s.ffy.track then s.ffy.v else s.ffy.lastV
  if 0 < v then q32Val s.pitchR / v else 0

/-- A row fire time or bar fire time: Tpred less flight and σ (R130). -/
def State.fireAt (s : State) (x : Int) (less : Nat) : Option Nat := (s.tpredQ x).map (fun t => t - less)

/-- The 64-bit encoding of a fire time (R190); `none` is HOLD. -/
def State.encodeFt (s : State) (t : Option Nat) : Nat :=
  match t with
  | none => 2 ^ 64 - 1
  | some t =>
    let d := s.devOf t
    d / 1000000000 % 2 ^ 32 * 2 ^ 32 + d % 1000000000

def ftCancel : Nat := 2 ^ 64 - 2

/-- FIRE_TIME body (Table 8.4). -/
def fireTimeBody (lseq head flags a b : Nat) : Bytes :=
  let body := layout 28 [(0, 4, lseq), (4, 1, flags), (5, 1, head), (8, 8, a), (16, 8, b)]
  body ++ le 4 (crc32c body)

/-- The head at position p of bar b (R3). -/
def headOf (b p : Nat) : Nat := 16 * b + p

def State.headDev (s : State) (h : Nat) : HeadDev := Tab.get {} s.heads h

def State.setHeadDev (s : State) (h : Nat) (d : HeadDev) : State := { s with heads := Tab.set {} s.heads h d }

def State.departed (s : State) (b : Nat) : List Departed := Tab.get [] s.ffy.departed b

def State.setDeparted (s : State) (b : Nat) (l : List Departed) : State :=
  { s with ffy := { s.ffy with departed := Tab.set [] s.ffy.departed b l } }

/-- Closest spacing of two lines of one row (R140). -/
def rowSpacing : Nat := 4166

def spaced (prev t : Option Nat) : Option Nat :=
  match prev, t with
  | some p, some t => if t < p + rowSpacing then some (p + rowSpacing) else some t
  | _, t => t

/-- Fire positions of a departed line: the row's offset, or none for the bar fire position (R129). -/
def Snap.pos (n : Snap) (start : Int) (line : Nat) (e : Int) : Int := start + (line : Int) * n.pitch + n.offset + e

/-- Whether R139 resends a row: more than 2P ahead, a new time also more than 2P ahead or HOLD, and changed by more
than the threshold. -/
def resendDue (now : Nat) (p2 : Rat) (thr : Nat) (sent new : Option Nat) : Bool :=
  let ahead := fun (t : Nat) => decide (p2 < (t : Rat) - (now : Rat))
  match sent, new with
  | some t, some u => ahead t && ahead u && decide (thr < (if t ≤ u then u - t else t - u))
  | some t, none => ahead t
  | none, some u => ahead u
  | none, none => false

/-- Re-evaluate one departed line (R139): the sent times after it, the frames to send, resends made and resends
refused by the cap. `prev` are the row times of the line before it, head by head. -/
def State.resendLine (s : State) (force : Bool) (b : Nat) (d : Departed) (prev : List (Option Nat × Option Nat)) :
    Departed × List Out × Nat × Nat :=
  match (s.job? d.job).map (fun j => j.bar b) with
  | none => (d, [], 0, 0)
  | some x =>
    match x.snap, x.start with
    | some n, some st =>
      if d.cancel then (d, [], 0, 0)
      else
        let now := s.now
        let p2 : Rat := 2 * s.period
        let thr := s.objN Obj.FFY_RESEND_NS
        let cap := s.objN Obj.FFY_RESEND_MAX
        let less := n.flight + s.sigma
        let bt := s.fireAt (n.pos st d.line 0) n.flight
        let d := if resendDue now p2 0 d.barTime bt then { d with barTime := bt } else d
        let step := fun (acc : List RowTimes × List Out × Nat × Nat) (r : RowTimes) =>
          let p := r.head % 16
          let e := n.rows.getD p (0, 0)
          let pv := prev.getD p (none, none)
          let uA := spaced pv.1 (s.fireAt (n.pos st d.line e.1) less)
          let uB := spaced pv.2 (s.fireAt (n.pos st d.line e.2) less)
          let dueA := resendDue now p2 thr r.tA uA
          let dueB := resendDue now p2 thr r.tB uB
          let okA := dueA && (force || decide (r.nA < cap))
          let okB := dueB && (force || decide (r.nB < cap))
          let r' : RowTimes := { r with
            tA := if okA then uA else r.tA, nA := r.nA + b2n okA,
            tB := if okB then uB else r.tB, nB := r.nB + b2n okB }
          let out := if okA || okB then
              [Out.arrum r.head 2 (fireTimeBody d.lseq r.head (b2n okA + 2 * b2n okB + 4)
                (if okA then s.encodeFt uA else 0) (if okB then s.encodeFt uB else 0))]
            else []
          (acc.1 ++ [r'], out ++ acc.2.1, acc.2.2.1 + b2n okA + b2n okB,
            acc.2.2.2 + b2n (dueA && !okA) + b2n (dueB && !okB))
        let x := d.rows.foldl step ([], [], 0, 0)
        ({ d with rows := x.1 }, x.2.1, x.2.2.1, x.2.2.2)
    | _, _ => (d, [], 0, 0)

/-- Row times of a line by position on its bar. -/
def Departed.byPos (d : Departed) : List (Option Nat × Option Nat) :=
  (List.range 16).map (fun p =>
    match d.rows.find? (fun r => r.head % 16 == p) with
    | some r => (r.tA, r.tB)
    | none => (none, none))

/-- Re-evaluate every departed line of a bar, in order. -/
def State.resendBar (s : State) (force : Bool) (b : Nat) : State :=
  let r := (s.departed b).foldl
    (fun (acc : List Departed × List (Option Nat × Option Nat) × List Out × Nat × Nat) d =>
      let x := s.resendLine force b d acc.2.1
      (acc.1 ++ [x.1], x.1.byPos, x.2.1 ++ acc.2.2.1, acc.2.2.2.1 + x.2.2.1, acc.2.2.2.2 + x.2.2.2))
    ([], [], [], 0, 0)
  let s := s.setDeparted b r.1
  let s := { s with out := r.2.2.1 ++ s.out }
  (s.count Obj.FFY_RESEND_CNT r.2.2.2.1).count Obj.FFY_RESEND_CAP_CNT r.2.2.2.2

def State.resendAll (s : State) (force : Bool) : State := (List.range 8).foldl (fun s b => s.resendBar force b) s

/-- The predictor enters HOLD (R134), and departed lines are re-evaluated (R139). -/
def State.enterHold (s : State) (force : Bool) : State :=
  let f := s.ffy
  let s := { s with ffy := { f with
    track := false, p := (f.hwm : Rat), v := 0, a := 0, first := none,
    lastV := if f.track && decide (0 < f.v) then f.v else f.lastV } }
  s.resendAll force

/-- One predictor update at an edge that raised H (R133, R134). -/
def Firefly.update (f : Firefly) (alpha beta gamma amax : Rat) (h : Int) (t : Nat) : Firefly :=
  if f.track then
    if t ≤ f.tLast then { f with hwm := h }
    else
      let dt : Rat := ((t - f.tLast : Nat) : Rat)
      let pPred := f.p + f.v * dt + f.a * dt * dt / 2
      let vPred := f.v + f.a * dt
      let e := (h : Rat) - pPred
      { f with
        hwm := h
        p := pPred + alpha * e
        v := vPred + beta * e / dt
        a := clampQ (-amax) amax (f.a + 2 * gamma * e / (dt * dt))
        tLast := t }
  else
    match f.first with
    | none => { f with hwm := h, p := (h : Rat), first := some (h, t) }
    | some (h1, t1) =>
      if t ≤ t1 then { f with hwm := h, p := (h : Rat) }
      else
        { f with
          hwm := h
          track := true
          p := (h : Rat)
          v := ((h - h1 : Int) : Rat) / ((t - t1 : Nat) : Rat)
          a := 0
          tLast := t
          first := none }

/-- The update with the gains in force; accelerations are kept in counts per ns^2. -/
def State.predict (s : State) (h : Int) (t : Nat) : State :=
  let amax := s.objF Obj.FFY_ACCEL_MAX / (10 ^ 18 : Nat)
  { s with ffy := s.ffy.update (s.objF Obj.FFY_ALPHA) (s.objF Obj.FFY_BETA) (s.objF Obj.FFY_GAMMA) amax h t }

/-- Mark INTERRUPTED every job firing on any bar or with departed lines on any bar (R149). -/
def State.markInFlight (s : State) : State :=
  let mark := fun (j : Job) =>
      let inFlight := (List.range 8).any (fun b =>
        (j.bar b).firing || (s.departed b).any (fun d => d.job == j.id && !d.cancel))
      if inFlight then { j with marks := j.marks ||| markInterrupted } else j
  { s with hq := { s.hq with jobs := s.hq.jobs.map mark } }

def Firefly.suspended (f : Firefly) : Bool := f.susDir || f.susSafety

/-- Suspend firing on all bars (R149, R413): no further line departs, the predictor enters HOLD and departed lines
more than 2P ahead are resent as HOLD. -/
def State.suspend (s : State) (safety : Bool) : State :=
  let s := s.markInFlight
  let f := s.ffy
  let s := { s with ffy := { f with
    susDir := f.susDir || !safety, susSafety := f.susSafety || safety, resumed := f.suspended && f.resumed } }
  s.enterHold true

end Sys2Proof.Machine
end

