-- ==== Sys2Proof/Machine/TwinLink.lean ====
section
/-! DEFINITION. The twin link's sending side and the twin state (R421 to R425, R430), which the blocks that forward
items and report faults use. -/

namespace Sys2Proof.Machine

/-- Twin states of Table 21.2. -/
def twSolo : Nat := 0
def twElecting : Nat := 1
def twActive : Nat := 2
def twJoining : Nat := 3
def twSyncing : Nat := 4
def twStandby : Nat := 5
def twFaulted : Nat := 6

def State.twinState (s : State) : Nat := s.objN Obj.TWIN_STATE

/-- Fire authority (Table 21.2): SOLO and ACTIVE hold it. -/
def State.hasAuthority (s : State) : Bool := s.twinState == twSolo || s.twinState == twActive

/-- Send an item over the twin link under the next sequence number; it stays until acknowledged (R423). -/
def State.twinSend (s : State) (i : TwinItem) : State :=
  if !s.twin.up then s
  else
    let n := s.twin.txSeq
    let t := { s.twin with
      txSeq := (n + 1) % 2 ^ 32, unacked := s.twin.unacked ++ [(n, i, s.now)], lastTx := s.now }
    ({ s with twin := t }).emit (.twin n i)

/-- Forward an item of Table 21.3: only the active chip of a twin forwards. -/
def State.forward (s : State) (i : TwinItem) : State :=
  if s.twinState = twActive then s.twinSend i else s

/-- Enter a twin state, with TWIN_STATE raised and journaled (Table 21.7, Table 22.1). -/
def State.setTwinState (s : State) (st cause : Nat) : State :=
  if s.twinState = st then s
  else
    let old := s.twinState
    let s := s.setObj Obj.TWIN_STATE (st : Nat)
    let s := s.eventJ 24 0x1502 0x0C [(12, 1, old), (13, 1, st), (14, 1, cause)]
    s.twinSend (.state st Config.deviceId.toNat)

/-- A SAFETY or SERVICE fault of the card itself: the active chip reports it to a STANDBY partner (R431); a card
without fire authority enters FAULTED with cause 4 (R430). -/
def State.twinFault (s : State) (cls : Nat) : State :=
  if s.twinState = twActive ∧ s.twin.partner = twStandby then
    ({ s with twin := { s.twin with handing := true } }).twinSend (.fault cls)
  else if s.hasAuthority ∨ s.twinState = twFaulted then s
  else s.setTwinState twFaulted 4

/-- Loss of lockstep of a card that follows the active chip (R429). -/
def State.syncLost (s : State) (b job : Nat) : State :=
  if s.twinState = twSyncing ∨ s.twinState = twStandby then
    (s.event 24 0x1504 [(12, 1, b), (16, 4, job)]).setTwinState twFaulted 2
  else s

/-- A decode summary received from the active chip is compared with the card's own, once the card has finished the job on the
bar (R429). Jobs of the snapshot are not decoded here. -/
def State.summaryCheck (s : State) (job b : Nat) : State :=
  match s.twin.summaries.find? (fun e => e.1 == job && e.2.1 == b), s.job? job with
  | some e, some j =>
    if (j.bar b).done then
      let s := { s with twin := { s.twin with summaries := s.twin.summaries.filter (fun e => !(e.1 == job && e.2.1 == b)) } }
      if e.2.2 = (j.bar b).fire ∨ s.twin.jobs.contains job then s else s.syncLost b job
    else s
  | _, _ => s

/-- A twin lane (0 to 11) fails or retrains (R424): the link goes on over six lanes, at 16 GT/s where neither half is
whole. -/
def State.twinLaneDown (s : State) (l : Nat) : State :=
  if !s.twin.up then s
  else
    let bad := if s.twin.badLanes.contains l then s.twin.badLanes else s.twin.badLanes ++ [l]
    let slow := bad.any (fun k => decide (k < 6)) && bad.any (fun k => decide (6 ≤ k))
    let s := { s with twin := { s.twin with badLanes := bad, half := true, slow := slow } }
    let s := (s.setObj Obj.TWIN_LANES 6).setBit Obj.TWIN_STATUS 2 true
    s.event 24 0x1503 [(12, 1, 6), (13, 1, b2n slow)]

end Sys2Proof.Machine
end

