-- ==== Sys2Proof/Machine/Faults.lean ====
section
/-! DEFINITION. Halo (chapter 20): fault classes, latching and clearing, the fault table and first-error captures,
the safe outputs as functions of the latched faults, and accesses to blocks that are off (R28, R29). -/

namespace Sys2Proof.Machine

def advisory : Nat := 0
def serviceF : Nat := 1
def safety : Nat := 2

/-- The class of a fault code (Table 20.1, R403 and the chapters that name a class). -/
def faultClass (code : Nat) : Option Nat :=
  if 0x1401 ≤ code ∧ code ≤ 0x140E then some safety
  else if code = 0x1410 ∨ code = 0x0C01 then some advisory
  else if code = 0x0302 ∨ code = 0x0505 ∨ code = 0x1102 ∨ code = 0x1201 ∨ code = 0x1502 ∨ code = 0x1604 then some serviceF
  else none

/-- The safety function of a code: 1 to 5, 6 for RESET_SAFE and CHAIN_LOW (every output), 0 for none (Table 20.1). -/
def faultSf (code : Nat) : Nat :=
  if code = 0x1401 then 1
  else if code = 0x1402 ∨ code = 0x1403 then 2
  else if code = 0x1404 ∨ code = 0x1405 then 3
  else if code = 0x1406 then 4
  else if 0x1407 ≤ code ∧ code ≤ 0x140C then 5
  else if code = 0x140D ∨ code = 0x140E then 6
  else 0

/-! ### Safe outputs (R412 to R415) -/

/-- A latched fault holds HV_EN of bar b. -/
def Flt.holdsHv (f : Flt) (b : Nat) : Bool :=
  let sf := faultSf f.code
  sf ≥ 4 || (sf == 1 && f.inst / 16 == b)

/-- A latched fault holds STO_N of axis group g. -/
def Flt.holdsSto (f : Flt) (g : Nat) : Bool :=
  let sf := faultSf f.code
  sf ≥ 5 || (sf == 2 && f.inst / 3 == g)

/-- A latched fault holds the valves. -/
def Flt.holdsValve (f : Flt) : Bool :=
  let sf := faultSf f.code
  sf ≥ 5 || sf == 3

/-- HV_EN of bar b is held: by a fault, by its domain (R414), and in DORMANT but for a bar that Cicada spits (R467). -/
def State.hvHeld (s : State) (b : Nat) : Bool :=
  s.halo.faults.any (·.holdsHv b) || !s.ready (4 + b / 2) || (s.obj Obj.PWR_STATE == 3 && !s.cic.hv.contains b)
def State.stoHeld (s : State) (g : Nat) : Bool := s.halo.faults.any (·.holdsSto g) || !s.ready 11
def State.valveHeld (s : State) : Bool := s.halo.faults.any Flt.holdsValve || !s.ready 11

/-- SAFE_N is driven low while a SAFETY fault other than CHAIN_LOW is latched (R404), but never by a card without fire
authority (R430); in OFF it is at its safe level (R465). -/
def State.safeLow (s : State) : Bool :=
  s.pwr.off || s.halo.faults.any (fun f => f.cls == safety && f.code != 0x140D) && s.hasAuthority

/-- The level of the safety chain (R415). -/
def State.chainHigh (s : State) : Bool := s.halo.chainExt && !s.safeLow

/-- SF1 holds a bar: an SF1_HEAD_TEMP fault of one of its heads is latched (R413). -/
def State.sf1On (s : State) (b : Nat) : Bool := s.halo.faults.any (fun f => f.code == 0x1401 && f.inst / 16 == b)

/-- SAFE_OUT_STATE (Table 20.9). -/
def State.safeOutState (s : State) : Nat :=
  let bits := fun (n : Nat) (f : Nat → Bool) => (List.range n).foldl (fun v i => v + b2n (f i) * 2 ^ i) 0
  bits 8 (fun b => !s.hvHeld b) + bits 8 (fun g => !s.stoHeld g) * 2 ^ 8 +
    (if s.valveHeld then 0xFFFF * 2 ^ 16 else 0) + b2n s.safeLow * 2 ^ 32 + b2n s.chainHigh * 2 ^ 33

/-- SF_ACTIVE (Table 20.9, R413). -/
def State.sfActive (s : State) : Nat :=
  let all := s.halo.faults.any (fun f => faultSf f.code == 6)
  (List.range 5).foldl (fun v i =>
    v + b2n (all || s.halo.faults.any (fun f => faultSf f.code == i + 1)) * 2 ^ i) 0 +
  b2n (s.halo.faults.any (fun f => f.code == 0x140E)) * 32 + b2n (s.halo.faults.any (fun f => f.code == 0x140D)) * 64

/-- FLT_STATUS (Table 20.10); bits 2 to 4 are kept with the object. -/
def State.fltStatus (s : State) : Nat :=
  b2n s.safeLow + b2n (s.halo.faults.any (fun f => f.cls == serviceF)) * 2 +
    s.objN Obj.FLT_STATUS / 4 * 4

/-! ### Latching -/

def State.setFaults (s : State) (l : List Flt) : State := { s with halo := { s.halo with faults := l } }

def State.fault? (s : State) (code inst : Nat) : Option Flt :=
  s.halo.faults.find? (fun f => f.code == code && f.inst == inst)

/-- FLT_TABLE entry bytes (Table 20.3). -/
def Flt.entry (f : Flt) : Bytes :=
  layout 16 [(0, 2, f.code), (2, 1, f.cls), (3, 1, b2n f.cond + 2 + 4 * b2n f.injected), (4, 2, f.inst),
    (6, 2, f.count), (8, 4, f.first), (12, 4, f.last)] ++ slice f.detail 0 12 ++ zeros 4

/-- FLT_TABLE (R411). -/
def State.fltTable (s : State) : Bytes :=
  slice ((s.halo.faults.filter (·.entered)).map Flt.entry).flatten 0 2048

/-- An access a fault carries, for first-error capture (Table 20.2). -/
structure FaultAccess where
  initiator : Nat
  access : Nat
  idx : Nat := 0
  sub : Nat := 0
  kind : Nat := 0
  addr : Nat := 0
  sess : Nat := 0
  deriving DecidableEq, Repr

/-- Fill the class's first-error capture if it is empty (R410). -/
def State.capture (s : State) (cls code : Nat) (a : FaultAccess) : State :=
  if (Tab.get [] s.halo.fec cls).isEmpty then
    let c := layout 32 [(0, 4, s.stamp), (4, 2, code), (6, 1, a.initiator), (7, 1, a.access), (8, 2, a.idx),
      (10, 1, a.sub), (11, 1, a.kind), (12, 8, a.addr), (20, 4, a.sess)]
    { s with halo := { s.halo with fec := Tab.set [] s.halo.fec cls c } }
  else s

/-- An ALERT_N pulse starts. -/
def State.alertStart (s : State) : State :=
  ({ s with halo := { s.halo with alert := .low s.now, alertPending := false } }).count Obj.FLT_ALERT_CNT 1

/-- Start an ALERT_N pulse, or note that one more is owed while a pulse or its 1 us of high time runs (R406). -/
def State.alert (s : State) : State :=
  let owed := { s with halo := { s.halo with alertPending := true } }
  match s.halo.alert with
  | .rest => s.alertStart
  | .low _ => owed
  | .high t => if t + 1000 ≤ s.now then s.alertStart else owed

/-- Enter a fault in FLT_TABLE (R411): a full table drops its oldest ADVISORY entry for a SAFETY or SERVICE fault. -/
def Halo.enter (h : Halo) (f : Flt) : Halo × Bool :=
  if (h.faults.filter (·.entered)).length < 64 then ({ h with faults := h.faults ++ [f] }, true)
  else if f.cls = advisory then ({ h with faults := h.faults ++ [{ f with entered := false }] }, false)
  else
    match h.faults.findIdx? (fun g => g.entered && g.cls == advisory) with
    | some i => ({ h with faults := upd h.faults i (fun g => { g with entered := false }) ++ [f] }, true)
    | none => ({ h with faults := h.faults ++ [{ f with entered := false }] }, false)

/-- What a newly latched SAFETY fault does besides holding outputs: bars whose HV_EN falls send zero dots until a page
boundary after the clear (R408), axes whose STO_N falls are disabled (R344), SF4 and SF5 suspend firing, and SF1 marks the pages
firing on its bar (R413). -/
def State.react (s : State) (code inst : Nat) : State :=
  let sf := faultSf code
  let hit := (List.range 8).filter (fun b => decide (sf ≥ 4) || (sf == 1 && inst / 16 == b))
  let s := { s with halo := { s.halo with
    blankBars := s.halo.blankBars ++ hit.filter (fun b => !s.halo.blankBars.contains b) } }
  let s := (List.range 24).foldl (fun s x => if s.stoHeld (x / 3) then s.stoAxis x else s) s
  if sf = 4 ∨ sf = 5 then s.suspend true
  else if sf = 1 then
    match s.firingJob (inst / 16) with
    | some j => s.markJob j.id markThermal
    | none => s
  else s

/-- Latch a fault, or count a recurrence of one that is latched (R405). `detail` are bytes 16 to 27. -/
def State.latch (s : State) (code cls inst : Nat) (detail : Bytes) (cond injected : Bool)
    (acc : Option FaultAccess) : State :=
  match s.fault? code inst with
  | some _ =>
    let again := fun (f : Flt) =>
      if f.code = code ∧ f.inst = inst then
        { f with count := min (f.count + 1) 0xFFFF, last := s.stamp, cond := f.cond || cond }
      else f
    let s := s.setFaults (s.halo.faults.map again)
    match acc with
    | some a => s.capture cls code a
    | none => s
  | none =>
    let f : Flt :=
      { code := code, cls := cls, inst := inst, cond := cond, injected := injected, first := s.stamp,
        last := s.stamp, detail := slice detail 0 12 }
    let x := s.halo.enter f
    let s := { s with halo := x.1 }
    let s := if x.2 then s else s.count Obj.FLT_LOST_CNT 1
    let s := match acc with
      | some a => s.capture cls code a
      | none => s
    let io := match acc with
      | some a => (a.idx, a.sub)
      | none => (0, 0)
    let ev := splice (s.eventBytes 0x1420 io.1 io.2 [(12, 2, code), (14, 1, cls), (15, 1, b2n injected)]) 16
      (slice detail 0 12)
    let s := s.push 24 ev
    let s := if cls = advisory then s else s.journal 9 ev
    let s := if cls = serviceF then s.alert else s
    let s := if cls = safety then s.react code inst else s
    if (cls = safety ∨ cls = serviceF) ∧ code ≠ 0x140D ∧ code ≠ 0x140E then s.twinFault cls else s

/-- The condition of a latched fault ends. -/
def State.condEnd (s : State) (code inst : Nat) : State :=
  s.setFaults (s.halo.faults.map (fun f => if f.code = code ∧ f.inst = inst then { f with cond := false } else f))

/-! ### Clearing (R407, R408) -/

/-- Bars whose HV_EN a fault holds. -/
def State.heldBars (s : State) : List Nat := (List.range 8).filter s.hvHeld

/-- Clear one latched fault whose condition has ended. -/
def State.clearOne (s : State) (code inst sess : Nat) : State :=
  match s.fault? code inst with
  | none => s
  | some f =>
    let s := s.setFaults (s.halo.faults.filter (fun g => !(g.code == code && g.inst == inst)))
    let ev := s.eventBytes 0x1421 0 0 [(12, 2, code), (14, 1, f.cls), (16, 2, inst), (18, 2, f.count), (20, 4, sess)]
    let s := s.push 24 ev
    if f.cls = advisory then s else s.journal 9 ev

/-- FLT_CLEAR (R407): a status of Table 14.3 and the state after it. The condition of an injected fault ends at the
write (R417). -/
def State.fltClear (s : State) (v sess : Nat) (super : Bool) : State × Nat :=
  let code := field v 0 16
  let inst := field v 16 16
  let named := s.halo.faults.filter (fun f => f.code == code && (inst == 0xFFFF || f.inst == inst))
  if named.isEmpty then (s, 0x01)
  else if inst = 0xFFFF then
    let ok := fun (f : Flt) => (f.cls != safety || super) && (!f.cond || f.injected)
    let s' := (named.filter ok).foldl (fun s f => s.clearOne f.code f.inst sess) s
    (s', if named.all ok then 0 else 0x0A)
  else if named.any (fun f => f.cls == safety && !super) then (s, 0x07)
  else if named.any (fun f => f.cond && !f.injected) then (s, 0x0A)
  else (s.clearOne code inst sess, 0)

/-! ### Blocks that are off (R28, R29, R410) -/

/-- An access to a domain that is off. -/
def State.offAccess (s : State) (d : Nat) (a : FaultAccess) : State :=
  (s.count Obj.FLT_OFF_CNT 1).latch 0x1410 advisory d [] false false (some a)

end Sys2Proof.Machine
end

