-- ==== Sys2Proof/Machine/HostQueues.lean ====
section
/-! DEFINITION. The host queues of chapter 02: rings, doorbells, descriptors, page jobs and bases up to acceptance,
records, and the PCI Express link. Aborts and line boundaries follow in Machine/Firefly.lean and
Machine/Boundary.lean, since they act on departed lines. -/

namespace Sys2Proof.Machine

/-! ### Ring control -/

/-- RING_ERROR (R505). -/
def State.ringError (s : State) (q code ptr : Nat) : State :=
  s.event 24 0x0201 [(12, 1, q), (13, 1, code), (16, 4, ptr)]

/-- A ring stops with ERR set (R36, R39, R40). -/
def State.stopRing (s : State) (q code ptr : Nat) : State :=
  (s.setRing q { s.ring q with err := true, errCode := code }).ringError q code ptr

/-- Rings whose fetches and records go on: enabled, not stopped, link up (R36, R58) and the host interface clocked. A card
without fire authority fetches and posts nothing (R428) but for the mailbox, through which it answers reads. -/
def State.ringRuns (s : State) (q : Nat) : Bool :=
  (s.ring q).active && s.hq.linkUp && s.ready 3 && (s.hasAuthority || decide (60 ≤ q))

/-- A PAGE_JOB descriptor at the head of ring q, with its PSN. -/
def State.headPsn (s : State) (q : Nat) : Option Nat :=
  match (s.ring q).head with
  | some d => if byteAt d 0 = 1 then some (getN d 8 4) else none
  | none => none

/-- The PSN is stale: it lies from PSN_NEXT - 2^31 to PSN_NEXT - 1 (Table 2.13). -/
def State.psnStale (s : State) (psn : Nat) : Bool := decide (2 ^ 31 ≤ fwd32 s.hq.psnNext psn)

/-- Mask of Q0 to Q7 whose head holds a later PSN (Table 2.11). -/
def State.laterMask (s : State) : Nat :=
  (List.range 8).foldl (fun v q =>
    match s.headPsn q with
    | some p => if p = s.hq.psnNext ∨ s.psnStale p then v else v + 2 ^ q
    | none => v) 0

/-- Descriptors wait at ring heads and none of them carries PSN_NEXT (R50). -/
def State.psnBlocked (s : State) : Bool :=
  decide (0 < s.laterMask) && (List.range 8).all (fun q => s.headPsn q != some s.hq.psnNext)

/-- Keep the instant since which descriptors have waited without PSN_NEXT. -/
def State.psnWatch (s : State) : State :=
  if s.psnBlocked then
    match s.hq.waitSince with
    | some _ => s
    | none => { s with hq := { s.hq with waitSince := some s.now, waitRaised := false } }
  else { s with hq := { s.hq with waitSince := none, waitRaised := false } }

/-- The journal records a ring has still to return: those posted whole and not returned, and those not yet posted. -/
def Ring.jnlOwes (r : Ring) (num : Nat) : Bool := r.fragEnds.any (fun e => e.1 == num) || decide (r.fragRec ≤ num)

/-- Release every journal record that each ring of JNL_RING_MASK has returned (R445). -/
def State.jnlRelease (s : State) : State :=
  let qs := (List.range 4).filter (fun i => s.objBit Obj.JNL_RING_MASK i)
  if qs.isEmpty then s
  else
    { s with jnl := { s.jnl with
      store := s.jnl.store.filter (fun r => qs.any (fun i => (s.ring (56 + i)).jnlOwes r.num)) } }

/-- A ring starts or stops: its pointers return to 0, its fetched descriptor is forgotten, and a journal ring resumes
from the first record it has not returned (R36, R58, R444). -/
def Ring.restart (r : Ring) : Ring :=
  { r with
    prod := 0, cons := 0, head := none, unsig := 0, fragIdx := 0, fragEnds := [],
    fragRec := r.fragEnds.foldl (fun m e => min m e.1) r.fragRec }

/-- EN is written 1 (R36). -/
def State.ringEnable (s : State) (q cfg : Nat) : State :=
  let r := s.ring q
  let vec := field cfg 12 8
  if r.en then s.setRing q { r with vec := vec }
  else
    let size := field cfg 0 5
    let r := { r with vec := vec, sizeLog2 := size }
    if 6 ≤ size ∧ size ≤ 16 ∧ r.base % 4096 = 0 ∧ r.wb % 4 = 0 then
      (s.setRing q { r.restart with en := true, err := false, errCode := 0 }).psnWatch
    else (s.setRing q r).stopRing q 3 0

/-- EN is written 0 (R36): descriptors not consumed are forgotten; records not posted stay held. -/
def State.ringDisable (s : State) (q cfg : Nat) : State :=
  let r := s.ring q
  let r := { r with vec := field cfg 12 8, sizeLog2 := if r.en then r.sizeLog2 else field cfg 0 5 }
  (s.setRing q { r with
    en := false, head := none, fragIdx := 0, fragEnds := [],
    fragRec := r.fragEnds.foldl (fun m e => min m e.1) r.fragRec }).psnWatch

/-- A write of HQ_RING_CFG. -/
def State.writeCfg (s : State) (q cfg : Nat) : State :=
  if bitAt cfg 31 then s.ringEnable q cfg else s.ringDisable q cfg

/-- A write of HQ_DOORBELL (R36, R38, R39). -/
def State.doorbell (s : State) (q d : Nat) : State :=
  let r := s.ring q
  if !r.active then s
  else if isRecordRing q then
    if d = r.cons then s
    else if fwd32 r.cons d ≤ fwd32 r.cons r.prod then
      let left := r.fragEnds.filter (fun e => decide (fwd32 r.cons d < fwd32 r.cons e.2))
      (s.setRing q { r with cons := d, fragEnds := left }).jnlRelease
    else s.stopRing q 1 d
  else
    if d = r.prod then s
    else if fwd32 r.prod d ≤ fwd32 r.prod ((r.cons + r.size) % 2 ^ 32) then s.setRing q { r with prod := d }
    else s.stopRing q 1 d

/-! ### BAR0 (Tables 2.3, 2.4 and 2.6) -/

/-- A host access through a BAR reaches a block of domain d: nothing arrives while the link is down, and a domain that
is off answers as R28 lays down. `rd` is the number of bytes read, 0 for a write. -/
def State.onBar (s : State) (d addr rd : Nat) (f : State → State) : State :=
  if !s.hq.linkUp then s
  else if s.ready d then f s
  else
    let s := s.offAccess d { initiator := 1, access := b2n (rd == 0), kind := 1, addr := addr }
    if rd = 0 then s else s.emit (.readData (List.replicate rd 0xFF))

/-- A naturally aligned 4-byte or 8-byte access (R34). -/
def bar0Ok (off size : Nat) : Bool := (size == 4 || size == 8) && off % size == 0

/-- A 4-byte write of a ring control block register (Table 2.4, R36). -/
def State.writeRcb (s : State) (q off v : Nat) : State :=
  let r := s.ring q
  if off = 0x00 then (if r.en then s else s.setRing q { r with base := putField r.base 0 32 v })
  else if off = 0x04 then (if r.en then s else s.setRing q { r with base := putField r.base 32 32 v })
  else if off = 0x08 then (if r.en then s else s.setRing q { r with wb := putField r.wb 0 32 v })
  else if off = 0x0C then (if r.en then s else s.setRing q { r with wb := putField r.wb 32 32 v })
  else if off = 0x10 then s.writeCfg q v
  else if off = 0x20 then s.setRing q { r with modTime := field v 16 16, modCount := field v 0 16 }
  else if off = 0x24 then (if v = 0 then s.setRing q { r with drop := 0, dropOvf := false } else s)
  else s

/-- A 4-byte write of the MSI-X table (Table 2.3): unmasking a vector sends what it has pending. -/
def State.writeMsix (s : State) (word v : Nat) : State :=
  let s := { s with hq := { s.hq with msix := Tab.set (if word % 4 = 3 then 1 else 0) s.hq.msix word v } }
  if word % 4 = 3 ∧ v % 2 = 0 ∧ s.hq.pba.contains (word / 4) then
    ({ s with hq := { s.hq with pba := s.hq.pba.filter (· ≠ word / 4) } }).emit (.msix (word / 4))
  else s

/-- A 4-byte write of BAR0 other than HQ_ABORT. -/
def State.writeBar0w (s : State) (off v : Nat) : State :=
  if off < 0x40000 then s.writeRcb (off / 0x1000) (off % 0x1000) v
  else if 0x100000 ≤ off ∧ off < 0x140000 then
    if off % 0x1000 = 0 then s.doorbell ((off - 0x100000) / 0x1000) v else s
  else if off = 0x20000C then
    if v = 0 then { s with hq := { s.hq with descReject := 0, descRejectOvf := false } } else s
  else if off = 0x200010 then
    if v = 0 then { s with hq := { s.hq with badAccess := 0, badAccessOvf := false } } else s
  else if off = 0x200018 then { s with hq := { s.hq with aperture := putField s.hq.aperture 0 32 (v / 2 ^ 30 * 2 ^ 30) } }
  else if off = 0x20001C then { s with hq := { s.hq with aperture := putField s.hq.aperture 32 32 v } }
  else if 0x300000 ≤ off ∧ off < 0x301000 then s.writeMsix ((off - 0x300000) / 4) v
  else s

/-- HQ_RING_STATUS. -/
def Ring.status (r : Ring) : Nat := b2n r.err * 2 ^ 31 + r.errCode * 2 ^ 16 + b2n r.dropOvf * 2 + b2n r.active

/-- HQ_RING_CFG. -/
def Ring.cfg (r : Ring) : Nat := b2n r.en * 2 ^ 31 + r.vec * 2 ^ 12 + r.sizeLog2

/-- A 4-byte read of BAR0. -/
def State.readBar0w (s : State) (off : Nat) : Nat :=
  if off < 0x40000 then
    let r := s.ring (off / 0x1000)
    match off % 0x1000 with
    | 0x00 => field r.base 0 32
    | 0x04 => field r.base 32 32
    | 0x08 => field r.wb 0 32
    | 0x0C => field r.wb 32 32
    | 0x10 => r.cfg
    | 0x14 => r.status
    | 0x18 => r.prod
    | 0x1C => r.cons
    | 0x20 => r.modTime * 2 ^ 16 + r.modCount
    | 0x24 => r.drop
    | _ => 0
  else if off = 0x200004 then s.hq.psnNext
  else if off = 0x200008 then 128 - s.hq.jobs.length
  else if off = 0x20000C then s.hq.descReject
  else if off = 0x200010 then s.hq.badAccess
  else if off = 0x200018 then field s.hq.aperture 0 32
  else if off = 0x20001C then field s.hq.aperture 32 32
  else if off = 0x200020 then b2n s.hq.descRejectOvf + b2n s.hq.badAccessOvf * 2
  else if 0x300000 ≤ off ∧ off < 0x301000 then
    let w := (off - 0x300000) / 4
    Tab.get (if w % 4 = 3 then 1 else 0) s.hq.msix w
  else if 0x301000 ≤ off ∧ off < 0x301020 then
    let w := (off - 0x301000) / 4
    (List.range 32).foldl (fun v i => v + b2n (s.hq.pba.contains (32 * w + i)) * 2 ^ i) 0
  else 0

/-- BAR0_BAD_ACCESS (R34): an access that is not naturally aligned or not of 4 or 8 bytes. -/
def State.bar0Bad (s : State) (isRead : Bool) (off size : Nat) : State :=
  if bar0Ok off size then s
  else
    let s := s.countBadAccess
    if isRead then s.emit (.readData (List.replicate size 0xFF)) else s

/-! ### Fetching descriptors (R40, R43) -/

/-- TYPE belongs to the ring (Tables 2.7, 14.7 and 19.2). -/
def descTypeOk (q ty : Nat) : Bool :=
  if q ≤ 7 then 1 ≤ ty && ty ≤ 3
  else if q ≤ 15 then ty == 8
  else if 48 ≤ q && q ≤ 51 then 0x50 ≤ ty && ty ≤ 0x52
  else if q == 60 || q == 61 then ty == 0x40
  else false

/-- The descriptor at the head of a ring is consumed: C advances and is written to HQ_RING_WB (R40). -/
def State.consume (s : State) (q : Nat) : State :=
  let r := s.ring q
  let c := (r.cons + 1) % 2 ^ 32
  ((s.setRing q { r with cons := c, head := none }).emit (.dma r.wb (le 4 c))).psnWatch

/-- A descriptor is rejected without effect (R43). -/
def State.descReject (s : State) (q why : Nat) : State :=
  let ptr := (s.ring q).cons
  ((s.consume q).countDescReject).event 24 0x0202 [(12, 1, q), (13, 1, why), (16, 4, ptr)]

/-- DESCRIPTOR_FETCH: the host read of the entry at C answers `data`, or ends in an error completion. -/
def State.fetchDesc (s : State) (q : Nat) (data : Option Bytes) : State :=
  let r := s.ring q
  if isRecordRing q || !s.ringRuns q || r.cons == r.prod || r.head.isSome then s
  else
    match data with
    | none => s.stopRing q 2 r.cons
    | some d =>
      let d := slice d 0 64
      if getN d 60 4 ≠ crc32c (d.take 60) then s.descReject q 0
      else if !descTypeOk q (byteAt d 0) then s.descReject q 1
      else (s.setRing q { r with head := some d }).psnWatch

/-- The descriptor at the head of a running ring, of a type. -/
def State.headOfType (s : State) (q ty : Nat) : Option Bytes :=
  if !s.ringRuns q then none
  else
    match (s.ring q).head with
    | some d => if byteAt d 0 = ty then some d else none
    | none => none

/-! ### Records of jobs and bases -/

/-- Post a completion record on the ring of a class. -/
def State.complete (s : State) (cls : Nat) (rec0 : Bytes) : State := s.push (16 + cls) rec0

/-- BASE_DONE. -/
def State.baseDone (s : State) (cls status reason id : Nat) : State :=
  s.complete cls (s.completion 4 0 status reason id [])

/-- Post every decided ACCEPT record up to the first undecided one (R52). -/
def flushAccept (s : State) : List AcceptEnt → State
  | [] => { s with hq := { s.hq with acceptQ := [] } }
  | e :: t =>
    if !e.decided then { s with hq := { s.hq with acceptQ := e :: t } }
    else
      match e.rec? with
      | some b => flushAccept (s.complete e.cls b) t
      | none => flushAccept s t

/-- Decide the ACCEPT record of a job. -/
def State.decideAccept (s : State) (id : Nat) (rec? : Option Bytes) : State :=
  flushAccept s (s.hq.acceptQ.map (fun e =>
    if e.jobId = id ∧ !e.decided then { e with decided := true, rec? := rec? } else e))

/-! ### The stream pool (R51, R506) -/

def Stream.bytes (x : Stream) : Nat := (x.chunks.map (fun c => c.bytes.length)).foldl (· + ·) 0

def State.poolFill (s : State) : Nat := (s.hq.streams.map Stream.bytes).foldl (· + ·) 0

def State.stream? (s : State) (isBase : Bool) (id b : Nat) : Option Stream :=
  s.hq.streams.find? (fun x => x.isBase == isBase && x.id == id && x.bar == b)

/-- Change a stream of the pool, creating it where it is not yet held. -/
def State.mapStream (s : State) (isBase : Bool) (id b : Nat) (f : Stream → Stream) : State :=
  let hit := fun (x : Stream) => x.isBase == isBase && x.id == id && x.bar == b
  if s.hq.streams.any hit then
    { s with hq := { s.hq with streams := s.hq.streams.map (fun x => if hit x then f x else x) } }
  else
    { s with hq := { s.hq with streams := s.hq.streams ++ [f { isBase := isBase, id := id, bar := b, since := s.now }] } }

/-- Release every stream of an ID. -/
def State.dropStreams (s : State) (isBase : Bool) (id : Nat) : State :=
  { s with hq := { s.hq with streams := s.hq.streams.filter (fun x => !(x.isBase == isBase && x.id == id)) } }

/-- The failure held under an ID. -/
def State.heldFailure (s : State) (isBase : Bool) (id : Nat) : Option Nat :=
  s.hq.streams.findSome? (fun x => if x.isBase == isBase && x.id == id then x.failure else none)

/-- A landed chunk passes the CHUNK_COUNT test against CHUNKS[b] (Table 2.13). -/
def Chunk.countOk (c : Chunk) (n : Nat) : Bool := decide (c.idx < n) && (c.last == decide (c.idx + 1 = n))

/-- The index the next chunk of a stream must have (R51). -/
def Stream.next (x : Stream) : Nat := match x.chunks.getLast? with | some c => c.idx + 1 | none => 0

/-- No stream of an ID has lost its first chunks to CHUNK_ORPHAN. -/
def State.orderOk (s : State) (isBase : Bool) (id : Nat) : Bool :=
  s.hq.streams.all (fun x => !(x.isBase == isBase && x.id == id) || x.next == x.chunks.length)

/-- Every chunk landed under an ID passes the CHUNK_COUNT test. -/
def State.countsOk (s : State) (isBase : Bool) (id : Nat) (chunks : List Nat) : Bool :=
  s.hq.streams.all (fun x =>
    !(x.isBase == isBase && x.id == id) || x.chunks.all (fun c => c.countOk (chunks.getD x.bar 0)))

/-- Every declared chunk of an ID has landed and been digested. -/
def State.allLanded (s : State) (isBase : Bool) (id : Nat) (chunks : List Nat) : Bool :=
  (List.range 8).all (fun b =>
    let n := chunks.getD b 0
    n == 0 ||
      match s.stream? isBase id b with
      | some x => x.chunks.length == n && x.chunks.all (fun c => c.digest.isSome)
      | none => false)

/-- CHUNKS lies within R44. -/
def chunksOk (mask : Nat) (chunks : List Nat) : Bool :=
  (List.range 8).all (fun b => if bitAt mask b then decide (0 < chunks.getD b 0) else chunks.getD b 0 == 0)

def descChunks (d : Bytes) : List Nat := (List.range 8).map (fun b => getN d (24 + 2 * b) 2)

/-- A page job still LANDING is rejected (R47): it leaves its slot and its chunks. -/
def State.rejectJob (s : State) (j : Job) (reason : Nat) : State :=
  let r := s.completion 1 0 3 reason j.id []
  let s := (s.dropStreams false j.id)
  let s := { s with hq := { s.hq with jobs := s.hq.jobs.filter (fun k => k.id ≠ j.id) } }
  (s.decideAccept j.id (some r)).psnWatch

/-- A base still LANDING fails its registration (R54). -/
def State.rejectBase (s : State) (x : Base) (reason : Nat) : State :=
  let s := s.dropStreams true x.id
  let s := { s with hq := { s.hq with bases := s.hq.bases.filter (fun y => y.id ≠ x.id) } }
  s.baseDone x.cls 3 reason x.id

/-! ### PAGE_JOB (R50, R506) -/

/-- Reserved fields of a PAGE_JOB are zero, LINES and CHUNKS in range (Table 2.7, R44). -/
def pageJobOk (d : Bytes) : Bool :=
  decide (byteAt d 1 < 2) && allZero (slice d 21 3) && allZero (slice d 48 12) && decide (0 < getN d 2 2) &&
    chunksOk (byteAt d 20) (descChunks d)

def State.base? (s : State) (id : Nat) : Option Base := s.hq.bases.find? (fun x => x.id == id)

/-- The REASON of R506 for a PAGE_JOB descriptor, if a condition holds. -/
def State.jobReason (s : State) (d : Bytes) : Option Nat :=
  let id := getN d 4 4
  let b := getN d 12 4
  if s.obj Obj.SEC_LIFECYCLE = 3 then some 0x09
  else if !pageJobOk d then some 0x04
  else if id = 0 ∨ (s.job? id).isSome then some 0x10
  else if s.psnStale (getN d 8 4) then some 0x11
  else if b ≠ 0 ∧ !((s.base? b).any (fun x => x.st == .registered)) then some 0x01
  else none

/-- The lowest free slot. -/
def State.freeSlot (s : State) : Nat :=
  ((List.range 128).find? (fun i => s.hq.jobs.all (fun j => j.slot ≠ i))).getD 0

def State.newJob (s : State) (cls : Nat) (d : Bytes) : Job :=
  { slot := s.freeSlot, id := getN d 4 4, psn := getN d 8 4, cls := cls, lines := getN d 2 2, gap := getN d 16 4,
    mark := bitAt (byteAt d 1) 0, mask := byteAt d 20, baseId := getN d 12 4, tag := getN d 40 8,
    chunks := descChunks d }

/-- A descriptor at the head of a ring leaves it, and an active chip forwards it (R425). -/
def State.eat (q : Nat) (d : Bytes) (s : State) : State :=
  let ptr := (s.ring q).cons
  (s.consume q).forward (.descriptor q ptr d)

/-- A PAGE_JOB descriptor of a class; `eat` takes it from its ring. -/
def State.takeJob (s : State) (cls : Nat) (d : Bytes) (eat : State → State) : State :=
    let id := getN d 4 4
    let psn := getN d 8 4
    if s.psnStale psn then
      let reason := (s.jobReason d).getD 0x11
      let s := eat s
      let s := if (s.job? id).isSome then s else s.dropStreams false id
      s.complete cls (s.completion 1 0 3 reason id [])
    else if psn ≠ s.hq.psnNext ∨ 128 ≤ s.hq.jobs.length then s
    else
      let reason := s.jobReason d
      let j := s.newJob cls d
      let s := eat s
      let s := { s with hq := { s.hq with psnNext := (psn + 1) % 2 ^ 32 } }
      match reason with
      | some r =>
        let ent : AcceptEnt := ⟨id, cls, true, some (s.completion 1 0 3 r id [])⟩
        let s := if (s.job? id).isSome then s else s.dropStreams false id
        (flushAccept s (s.hq.acceptQ ++ [ent])).psnWatch
      | none =>
        let ent : AcceptEnt := ⟨id, cls, false, none⟩
        let s := { s with hq := { s.hq with jobs := s.hq.jobs ++ [j], acceptQ := s.hq.acceptQ ++ [ent] } }
        match s.heldFailure false id with
        | some r => s.rejectJob j r
        | none => if !s.orderOk false id then s.rejectJob j 0x12
          else if s.countsOk false id j.chunks then s.psnWatch else s.rejectJob j 0x13

/-- PAGE_JOB_CONSUME. -/
def State.consumeJob (s : State) (cls : Nat) : State :=
  match s.headOfType cls 1 with
  | none => s
  | some d => s.takeJob cls d (State.eat cls d)

/-- PSN_WAIT (R50): once for each wait of 10 ms. -/
def State.psnWaitEvent (s : State) : State :=
  match s.hq.waitSince with
  | some t =>
    if s.psnBlocked && !s.hq.waitRaised && decide (t + 10000000 ≤ s.now) then
      ({ s with hq := { s.hq with waitRaised := true } }).event 24 0x0203
        [(12, 4, s.hq.psnNext), (16, 1, s.laterMask)]
    else s
  | none => s

/-! ### Bases (R54, R55) -/

/-- A BASE_REGISTER descriptor of a class. -/
def State.takeBaseRegister (s : State) (cls : Nat) (d : Bytes) (eat : State → State) : State :=
    let id := getN d 4 4
    let ok := byteAt d 1 == 0 && allZero (slice d 8 12) && allZero (slice d 21 3) && allZero (slice d 48 12) &&
      decide (0 < getN d 2 2) && chunksOk (byteAt d 20) (descChunks d)
    let dup := id == 0 || (s.base? id).isSome
    let full := decide (16 ≤ s.hq.bases.length)
    let s := eat s
    let free := if (s.base? id).isSome then s else s.dropStreams true id
    if !ok then free.baseDone cls 3 0x04 id
    else if dup then free.baseDone cls 3 0x10 id
    else if full then free.baseDone cls 3 0x0A id
    else
      let x : Base := { id := id, lines := getN d 2 2, mask := byteAt d 20, chunks := descChunks d, cls := cls,
                        tag := getN d 40 8 }
      let s := { s with hq := { s.hq with bases := s.hq.bases ++ [x] } }
      match s.heldFailure true id with
      | some r => s.rejectBase x r
      | none => if !s.orderOk true id then s.rejectBase x 0x12 else if s.countsOk true id x.chunks then s else s.rejectBase x 0x13

/-- BASE_REGISTER_CONSUME. -/
def State.consumeBaseRegister (s : State) (cls : Nat) : State :=
  match s.headOfType cls 2 with
  | none => s
  | some d => s.takeBaseRegister cls d (State.eat cls d)

def State.mapBase (s : State) (id : Nat) (f : Base → Base) : State :=
  { s with hq := { s.hq with bases := s.hq.bases.map (fun x => if x.id = id then f x else x) } }

/-- A BASE_RETIRE descriptor of a class. -/
def State.takeBaseRetire (s : State) (cls : Nat) (d : Bytes) (eat : State → State) : State :=
    let id := getN d 4 4
    let ok := allZero (slice d 1 3) && allZero (slice d 8 52)
    let s := eat s
    if !ok then s.baseDone cls 3 0x04 id
    else if (s.base? id).any (fun x => x.st == .registered) then
      s.mapBase id (fun x => { x with st := .retiring, retCls := cls })
    else s.baseDone cls 3 0x01 id

/-- BASE_RETIRE_CONSUME. -/
def State.consumeBaseRetire (s : State) (cls : Nat) : State :=
  match s.headOfType cls 3 with
  | none => s
  | some d => s.takeBaseRetire cls d (State.eat cls d)

/-! ### Chunks (R51, R506) -/

/-- What an ID of a chunk names: nothing, something LANDING with its CHUNKS[b], or something past LANDING. -/
inductive ChunkOwner
  | nothing
  | landing (n : Nat)
  | past (ring : Nat)
  deriving DecidableEq, Repr

def State.chunkOwner (s : State) (isBase : Bool) (id b : Nat) : ChunkOwner :=
  if isBase then
    match s.base? id with
    | none => .nothing
    | some x => if x.st = .landing then .landing (x.chunks.getD b 0) else .past 24
  else
    match s.job? id with
    | none => .nothing
    | some j => if j.st = .landing then .landing (j.chunks.getD b 0) else .past (24 + j.cls)

/-- CHUNK_ORPHAN. -/
def State.orphanEvent (s : State) (ring id b n : Nat) : State :=
  s.event ring 0x0204 [(12, 4, id), (16, 1, b), (18, 2, n)]

/-- The first failure of a chunk rejects its job or base, or is held under its ID (R506). -/
def State.chunkFail (s : State) (isBase : Bool) (id b reason : Nat) : State :=
  if isBase then
    match s.base? id with
    | some x => s.rejectBase x reason
    | none => if (s.heldFailure true id).isSome then s else s.mapStream true id b (fun x => { x with failure := some reason })
  else
    match s.job? id with
    | some j => s.rejectJob j reason
    | none => if (s.heldFailure false id).isSome then s else s.mapStream false id b (fun x => { x with failure := some reason })

/-- CHUNK_CONSUME: the descriptor at the head of Q8+b with the bytes its fetch answers (`none`: an error completion). -/
def State.consumeChunk (s : State) (b : Nat) (data : Option Bytes) : State :=
  match s.headOfType (8 + b) 8 with
  | none => s
  | some d =>
    let isBase := bitAt (byteAt d 1) 1
    let last := bitAt (byteAt d 1) 0
    let idx := getN d 2 2
    let id := getN d 4 4
    let len := getN d 16 4
    if !s.dramReady ∨ s.objN Obj.DRAM_POOL_GIB * 2 ^ 30 < s.poolFill + len ∧ len ≤ 65536 then s
    else
      let ptr := (s.ring (8 + b)).cons
      let owner := s.chunkOwner isBase id b
      let s := (s.consume (8 + b)).forward (.descriptor (8 + b) ptr d)
      match owner with
      | .past ring => s.orphanEvent ring id b 1
      | owner =>
        let ok := decide (byteAt d 1 < 4) && allZero (slice d 20 40) && decide (1 ≤ len) && decide (len ≤ 65536) &&
          decide (idx ≤ 65534)
        let n := match s.stream? isBase id b with | some x => x.next | none => 0
        if !ok then s.chunkFail isBase id b 0x04
        else
          match data with
          | none => s.chunkFail isBase id b 0x14
          | some bytes =>
            if idx ≠ n then s.chunkFail isBase id b 0x12
            else
              let c : Chunk := { idx := idx, last := last, bytes := slice bytes 0 len, since := s.now }
              match owner with
              | .landing m =>
                if !c.countOk m then s.chunkFail isBase id b 0x13
                else s.mapStream isBase id b (fun x => { x with chunks := x.chunks ++ [c] })
              | _ => s.mapStream isBase id b (fun x => { x with chunks := x.chunks ++ [c] })

/-- Digest the first chunk of a stream that has none, and the stream once its last chunk is digested (R76, R77). -/
def Stream.digestNext (x : Stream) : Stream :=
  match x.chunks.findIdx? (fun c => c.digest.isNone) with
  | none => x
  | some i =>
    let cs := upd x.chunks i (fun c => { c with digest := some (sha384 c.bytes) })
    let all := cs.all (fun c => c.digest.isSome) && cs.any (·.last)
    { x with chunks := cs, digest := if all then some (sha384 (cs.map (fun c => c.digest.getD [])).flatten) else none }

/-- CHUNK_LANDED: the chunk is digested and, on the active chip of a twin, forwarded. -/
def State.chunkLand (s : State) (b : Nat) (isBase : Bool) (id : Nat) : State :=
  match s.stream? isBase id b with
  | none => s
  | some x =>
    match x.chunks.find? (fun c => c.digest.isNone) with
    | none => s
    | some c => (s.mapStream isBase id b Stream.digestNext).forward (.chunk b isBase id c.idx c.last c.bytes)

/-- A chunk has been held for 10 s. -/
def Chunk.stale (now : Nat) (c : Chunk) : Bool := decide (c.since + 10000000000 ≤ now)

/-- CHUNK_ORPHAN: chunks held for 10 s under an ID that no consumed descriptor declares (R51). -/
def State.chunkExpire (s : State) (b : Nat) (isBase : Bool) (id : Nat) : State :=
  match s.stream? isBase id b, s.chunkOwner isBase id b with
  | some x, .nothing =>
    let n := (x.chunks.filter (Chunk.stale s.now)).length
    let rest := x.chunks.filter (fun c => !c.stale s.now)
    let gone := rest.isEmpty && decide (x.since + 10000000000 ≤ s.now)
    let hit := fun (y : Stream) => y.isBase == isBase && y.id == id && y.bar == b
    let streams := if gone then s.hq.streams.filter (fun y => !hit y)
      else s.hq.streams.map (fun y => if hit y then { y with chunks := rest } else y)
    let s := { s with hq := { s.hq with streams := streams } }
    if n = 0 then s else s.orphanEvent 24 id b n
  | _, _ => s

/-! ### Acceptance and registration -/

/-- The body of an ACCEPT record (Table 22.3); for a BASE record `id` is BASE_ID and PSN, BASE_ID, START_MODE and
GAP_LINES are zero. -/
def State.acceptBody (s : State) (isBase : Bool) (id psn baseId tag lines mask cls : Nat) (mark : Bool) (gap : Nat)
    (chunks : List Nat) : Bytes :=
  layout 32 [(0, 4, id), (4, 4, psn), (8, 4, baseId), (12, 8, tag), (20, 2, lines), (22, 1, mask),
      (23, 1, cls + 8 * b2n mark), (24, 4, gap)] ++
    (((List.range 8).filter (fun b => bitAt mask b)).map (fun b =>
      le 1 b ++ [0] ++ le 2 (chunks.getD b 0) ++ slice ((s.stream? isBase id b).bind (·.digest) |>.getD []) 0 48)).flatten

/-- A record of a body fits in the journal store beside the records owed (R445, R446). -/
def State.jnlFits (s : State) (body extra : Nat) : Bool :=
  s.jnl.booted && decide (s.jnlFill + 196 + body + extra + (if s.jnl.gap.isSome then 208 else 0) + s.jnlReserve ≤ s.jnlCap)

/-- Bytes of the streams and base streams of a job on a bar (R48). -/
def State.streamCost (s : State) (j : Job) (b : Nat) : Nat :=
  let f := fun (x : Option Stream) => (x.map Stream.bytes).getD 0
  f (s.stream? false j.id b) + (if j.baseId = 0 then 0 else f (s.stream? true j.baseId b))

def State.unguaranteed (s : State) (j : Job) : Bool :=
  (List.range 8).any (fun b => bitAt j.mask b && decide (j.lines * 16144 < s.streamCost j b))

/-- The job is the first undecided one in print order. -/
def State.firstUndecided (s : State) (id : Nat) : Bool :=
  match s.hq.acceptQ.find? (fun e => !e.decided) with
  | some e => e.jobId == id
  | none => false

/-- JOB_ACCEPT (Table 2.12, R48, Table 2.14). -/
def State.acceptJob (s : State) (id : Nat) : State :=
  match s.job? id with
  | none => s
  | some j =>
    let baseOk := j.baseId == 0 || (s.base? j.baseId).any (fun x => x.st != .landing)
    if j.st ≠ .landing ∨ !s.allLanded false id j.chunks ∨ !baseOk ∨ !s.firstUndecided id ∨ !s.dramReady then s
    else
      let body := s.acceptBody false id j.psn j.baseId j.tag j.lines j.mask j.cls j.mark j.gap j.chunks
      if s.jnlHigh ∨ !s.jnlFits body.length 720 then
        if j.holdRaised then s
        else (s.mapJob id (fun j => { j with holdRaised := true })).event (24 + j.cls) 0x0205 [(12, 4, id)]
      else
        let marks := if s.unguaranteed j then markRate else 0
        let s := s.journal 2 body
        let s := s.mapJob id (fun j => { j with st := .accepted, marks := j.marks ||| marks })
        s.decideAccept id (some (s.completion 1 marks 0 0 id [j.slot]))

/-- BASE_REGISTERED. -/
def State.registerBase (s : State) (id : Nat) : State :=
  match s.base? id with
  | none => s
  | some x =>
    let body := s.acceptBody true id 0 0 x.tag x.lines x.mask x.cls false 0 x.chunks
    if x.st ≠ .landing ∨ !s.allLanded true id x.chunks ∨ !s.jnlFits body.length 0 ∨ !s.dramReady then s
    else ((s.journal 3 body).mapBase id (fun x => { x with st := .registered })).baseDone x.cls 0 0 id

/-- BASE_FREED (R55). -/
def State.freeBase (s : State) (id : Nat) : State :=
  match s.base? id with
  | none => s
  | some x =>
    if x.st ≠ .retiring ∨ s.hq.jobs.any (fun j => j.baseId == id) then s
    else
      let body := s.acceptBody true id 0 0 x.tag x.lines x.mask x.cls false 0 x.chunks
      let s := s.journal 3 body
      let s := (s.dropStreams true id)
      let s := { s with hq := { s.hq with bases := s.hq.bases.filter (fun y => y.id ≠ id) } }
      s.complete x.retCls (s.completion 6 0 0 0 id [])

/-! ### Retirement (R52, Table 2.14) -/

/-- The completion ring of a class has room for one more record, or the link is down and it is discarded (R58). -/
def State.complRoom (s : State) (cls : Nat) : Bool :=
  let r := s.ring (16 + cls)
  !s.hq.linkUp || (r.active && decide (r.used + r.held.length < r.size))

/-- A job has fired no line on any bar: it has no frames and receives no verdict (R260). -/
def Job.noLine (j : Job) : Bool := j.bars.all (fun x => x.fired == 0)

/-- A job has ended: fired or aborted, with the verdict its space on the web calls for, and no boundary left (R15). -/
def Job.ended (j : Job) : Bool :=
  (j.st == .fired && (j.verdict.isSome || j.noLine)) ||
    (j.st == .aborted && (!j.onWeb || ((j.verdict.isSome || j.noLine) && (List.range 8).all (fun b => !j.busyOn b))))

/-- STATUS of the RETIRE record. -/
def Job.retireStatus (j : Job) : Nat := if j.st == .aborted then 1 else j.verdict.getD 5

/-- What the camera ports and Nimbus hold of a page goes with its verdict, or with its job. -/
def State.forgetPage (s : State) (id : Nat) : State :=
  let s := { s with
    scarab := { s.scarab with delivered := s.scarab.delivered.filter (fun c => c.job ≠ id) }
    lcw := { s.lcw with
      marks := s.lcw.marks.filter (fun m => m.job ≠ id)
      lateLines := s.lcw.lateLines.filter (fun m => m.1 ≠ id)
      crossed := s.lcw.crossed.filter (fun m => m.1 ≠ id) }
    nim := { s.nim with pages := s.nim.pages.filter (fun p => p.job ≠ id) } }
  (List.range 4).foldl (fun s c =>
    let x := Tab.get {} s.cams c
    { s with cams := Tab.set {} s.cams c { x with frames := x.frames.filter (fun f => f.job ≠ id) } }) s

/-- JOB_RETIRE. -/
def State.retireJob (s : State) (id : Nat) : State :=
  match s.hq.jobs.head? with
  | none => s
  | some j =>
    if j.id ≠ id ∨ !j.ended ∨ !s.complRoom j.cls then s
    else
      let r := s.completion 3 j.marks j.retireStatus 0 id (j.bars.map (fun x => min x.late 0xFFFF))
      let s := s.journal 6 r
      let s := { s with hq := { s.hq with jobs := s.hq.jobs.filter (fun k => k.id ≠ id) } }
      (((s.dropStreams false id).forgetPage id).complete j.cls r).psnWatch

/-! ### Writing records (R41, R42, R45) -/

/-- A record as written at pointer p of a ring: PHASE and CRC. -/
def Ring.image (r : Ring) (b : Bytes) : Bytes :=
  let phase := b2n (r.prod / r.size % 2 == 0)
  let flags := byteAt b 1 + phase
  let b := splice (slice b 0 28) 1 (le 1 flags)
  b ++ le 4 (crc32c b)

/-- Write one record and the producer pointer, and signal the vector once MOD_COUNT records are unsignalled. -/
def State.writeRecord (s : State) (q : Nat) (b : Bytes) : State :=
  let r := s.ring q
  let p := (r.prod + 1) % 2 ^ 32
  let since := if r.unsig = 0 then s.now else r.unsigSince
  let sig := decide (0 < r.modCount) && decide (r.modCount ≤ r.unsig + 1)
  let r' := { r with
    prod := p, unsig := if sig then 0 else r.unsig + 1, unsigSince := since }
  let s := (s.emit (.dma (r.base + 32 * (r.prod % r.size)) (r.image b))).emit (.dma r.wb (le 4 p))
  let s := s.setRing q r'
  let s := if sig then s.msix r.vec else s
  s.forward (.posted q p)

/-- RECORD_POST. -/
def State.postRecord (s : State) (q : Nat) : State :=
  let r := s.ring q
  if !isRecordRing q || !s.ringRuns q || decide (r.size ≤ r.used) then s
  else
    match r.held with
    | [] => s
    | b :: t => (s.setRing q { r with held := t }).writeRecord q b

/-- RING_IRQ_TIMER. -/
def State.irqTimer (s : State) (q : Nat) : State :=
  let r := s.ring q
  if isRecordRing q && s.ringRuns q && decide (0 < r.modCount) && decide (0 < r.modTime) && decide (0 < r.unsig) &&
      decide (r.unsigSince + 1000 * r.modTime ≤ s.now) then
    (s.setRing q { r with unsig := 0 }).msix r.vec
  else s

/-! ### The link (R58) -/

/-- A ring when the link goes down: it stops with LINK_DOWN and its unposted records are discarded and counted. -/
def Ring.linkDown (r : Ring) (q : Nat) : Ring × Bool :=
  let r := if r.en then { r with err := true, errCode := 4 } else r
  if lostOnLinkDown q then
    let x := r.held.foldl (fun (y : Ring × Bool) _ => let z := y.1.dropOne false; (z.1, y.2 || z.2)) (r, false)
    ({ x.1 with held := [] }, x.2)
  else (r, false)

def State.linkDownRing (s : State) (q : Nat) : State :=
  let x := (s.ring q).linkDown q
  let s := s.setRing q x.1
  if x.2 then s.counterOvf 0 0 0 2 q 0x24 else s

/-- PCIE_LINK_DOWN. -/
def State.linkDown (s : State) : State :=
  if !s.hq.linkUp then s
  else
    let s := { s with hq := { s.hq with linkUp := false } }
    let s := (List.range 64).foldl State.linkDownRing s
    let s := (s.hq.jobs.filter (fun j => j.st == .landing)).foldl (fun s j => s.rejectJob j 0x15) s
    (s.hq.bases.filter (fun x => x.st == .landing)).foldl (fun s x => s.rejectBase x 0x15) s

/-- PCIE_LINK_UP. -/
def State.linkUpAgain (s : State) : State := { s with hq := { s.hq with linkUp := true } }

/-- A write of PSN_NEXT (R50). -/
def State.writePsn (s : State) (v : Nat) : State × Nat :=
  if s.hq.jobs.isEmpty then (({ s with hq := { s.hq with psnNext := v } }).psnWatch, 0) else (s, 0x0A)

/-! ### Meanings -/

def execHqDoorbell (q : RingNo) (d : BitVec 32) (s : State) : Outcome :=
  .next (s.onBar 3 (0x100000 + 0x1000 * q.val) 0 (fun s => s.doorbell q.val d.toNat))

def execRingEnable (q : RingNo) (cfg : BitVec 32) (s : State) : Outcome :=
  .next (s.onBar 3 (0x1000 * q.val + 0x10) 0 (fun s => s.ringEnable q.val cfg.toNat))

def execRingDisable (q : RingNo) (cfg : BitVec 32) (s : State) : Outcome :=
  .next (s.onBar 3 (0x1000 * q.val + 0x10) 0 (fun s => s.ringDisable q.val cfg.toNat))

def execDescriptorFetch (q : RingNo) (data : Option Bytes) (s : State) : Outcome := .next (s.fetchDesc q.val data)

def execPageJobConsume (cls : Fin 8) (s : State) : Outcome := .next (s.consumeJob cls.val)

def execPsnWait (s : State) : Outcome := .next s.psnWaitEvent

def execBaseRegisterConsume (cls : Fin 8) (s : State) : Outcome := .next (s.consumeBaseRegister cls.val)

def execBaseRetireConsume (cls : Fin 8) (s : State) : Outcome := .next (s.consumeBaseRetire cls.val)

def execChunkConsume (b : Bar) (data : Option Bytes) (s : State) : Outcome := .next (s.consumeChunk b.val data)

def execChunkLanded (b : Bar) (isBase : Bool) (id : Nat) (s : State) : Outcome := .next (s.chunkLand b.val isBase id)

def execChunkOrphan (b : Bar) (isBase : Bool) (id : Nat) (s : State) : Outcome := .next (s.chunkExpire b.val isBase id)

def execJobAccept (id : Nat) (s : State) : Outcome := .next (s.acceptJob id)

def execBaseRegistered (id : Nat) (s : State) : Outcome := .next (s.registerBase id)

def execBaseFreed (id : Nat) (s : State) : Outcome := .next (s.freeBase id)

def execJobRetire (id : Nat) (s : State) : Outcome := .next (s.retireJob id)

def execRecordPost (q : RingNo) (s : State) : Outcome := .next (s.postRecord q.val)

def execRingIrqTimer (q : RingNo) (s : State) : Outcome := .next (s.irqTimer q.val)

def execPcieLinkDown (s : State) : Outcome := .next s.linkDown

def execPcieLinkUp (s : State) : Outcome := .next s.linkUpAgain

def execBar0BadAccess (isRead : Bool) (off size : Nat) (s : State) : Outcome :=
  .next (s.onBar 3 off (if isRead then size else 0) (fun s => s.bar0Bad isRead off size))

end Sys2Proof.Machine
end

