-- ==== Sys2Proof/Machine/Norrek.lean ====
section
/-! DEFINITION. The Norrek raster stream (chapter 03) as one pure function of the bytes of a stream, its descriptor
fields and the cited base: for every line its dots, the code that blanks it, the base lines it reads and its decode
cost, and the errors of Table 3.5 with the line at which each is met. A line whose `dots` are `[]` is all zero. -/

namespace Sys2Proof.Machine

/-- W (R63). -/
def lineW : Nat := 64576

/-- One decoded line. `chunk` is the chunk that covers it; `src` is the chunk and offset of the error that blanks it;
`bad` the base errors it meets. -/
structure NLine where
  dots : List (BitVec 2) := []
  blank : Nat := 0
  chunk : Option Nat := none
  src : Nat × Nat := (0xFFFF, 0)
  reqs : List Nat := []
  bad : List (Nat × Nat) := []
  cost : Nat := 0
  deriving DecidableEq, Repr, Inhabited

/-- One reported error (Table 3.6). `line` is the line at which the decoder reports it. -/
structure NErr where
  inBase : Bool := false
  code : Nat
  chunk : Nat
  offset : Nat
  first : Nat
  last : Nat
  line : Nat
  deriving DecidableEq, Repr, Inhabited

/-- What decoding one stream needs beside its chunks: LINES, the bar, BASE of its descriptors, and the decoded lines of
the cited base's stream on the bar, if the job cites a base with one. -/
structure NEnv where
  lines : Nat
  bar : Nat
  isBase : Bool
  base : Option (List NLine)

/-- Operations of Table 3.2. -/
inductive NOp
  | lit (n : Nat)
  | run (n : Nat) (v : BitVec 2)
  | matchPrev (delta : Int) (n : Nat)
  | matchCur (dist n : Nat)
  | repeatPrev (m : Nat)
  | baseLines (m s : Nat)
  | span (n : Nat)
  | skip (t : Nat)
  | endLine
  | endChunk
  deriving DecidableEq, Repr

/-- The fixed operand bytes of an operation, or none for a reserved first byte. -/
def nFixed (b : Nat) : Option Nat :=
  if b < 0xC0 then some 0
  else if b = 0xC0 then some 2
  else if b < 0xC4 then none
  else if b < 0xC8 then some 2
  else if b = 0xC8 ∨ b = 0xC9 ∨ b = 0xCB then some 4
  else if b = 0xCA ∨ b = 0xCC ∨ b = 0xCD then some 2
  else if b = 0xCE ∨ b = 0xCF then some 0
  else none

/-- The operation a first byte and its fixed operands spell. LIT and LIT_LONG are told apart by their limits alone. -/
def nOp (b : Nat) (a : Bytes) : NOp :=
  if b < 0x80 then .lit (b + 1)
  else if b < 0xC0 then .run (field b 0 4 + 1) (BitVec.ofNat 2 (field b 4 2))
  else if b = 0xC0 then .lit (getN a 0 2)
  else if b < 0xC8 then .run (getN a 0 2) (BitVec.ofNat 2 b)
  else if b = 0xC8 then .matchPrev (getI a 0 2) (getN a 2 2)
  else if b = 0xC9 then .matchCur (getN a 0 2) (getN a 2 2)
  else if b = 0xCA then .repeatPrev (getN a 0 2)
  else if b = 0xCB then .baseLines (getN a 0 2) (getN a 2 2)
  else if b = 0xCC then .span (getN a 0 2)
  else if b = 0xCD then .skip (getN a 0 2)
  else if b = 0xCE then .endLine
  else .endChunk

/-- State of the decoder within a chunk (R64). `cur` is CUR newest column first; `rest` the bytes from `off` on. -/
structure NState where
  rest : Bytes
  off : Nat := 16
  line : Nat
  left : Nat
  x : Nat := 0
  cur : List (BitVec 2) := []
  prev : List (BitVec 2) := []
  ops : Nat := 0
  header : Nat := 1
  reqs : List Nat := []
  bad : List (Nat × Nat) := []
  out : List NLine := []

/-- The dots an operation writes, in column order. -/
def dotSlice (l : List (BitVec 2)) (at' n : Nat) : List (BitVec 2) :=
  let t := (l.drop at').take n
  t ++ List.replicate (n - t.length) 0

/-- Literal dots (R66). -/
def litDots (n : Nat) (data : Bytes) : List (BitVec 2) :=
  (List.range n).map (fun i => BitVec.ofNat 2 (byteAt data (i / 4) / 4 ^ (i % 4)))

/-- Unused bit pairs of the last literal byte are zero (R66). -/
def litPadOk (n : Nat) (data : Bytes) : Bool :=
  n % 4 == 0 || byteAt data (n / 4) / 4 ^ (n % 4) == 0

/-- MATCH_CUR, one dot at a time. -/
def copyCur (dist : Nat) : Nat → List (BitVec 2) → List (BitVec 2)
  | 0, cur => cur
  | n + 1, cur => copyCur dist n (cur.getD (dist - 1) 0 :: cur)

/-- A base line as the page reads it. -/
def NEnv.baseLine (e : NEnv) (l : Nat) : NLine := ((e.base.getD []).getD l { blank := 4 })

def NEnv.baseCount (e : NEnv) : Nat := (e.base.getD []).length

/-- The checks of R507 from E_NOBASE to E_BASE_RANGE. -/
def nCheck (e : NEnv) (fill : Bool) (s : NState) (b : Nat) (op : NOp) : Option Nat :=
  let noBase := e.isBase || e.base.isNone
  let lenBad := fun (n : Nat) => decide (n < 1) || decide (lineW < n)
  let tooLong := fun (n : Nat) => decide (lineW < s.x + n)
  let range := decide (e.baseCount ≤ s.line)
  match op with
  | .lit n => if b = 0xC0 ∧ lenBad n then some 0x06 else if tooLong n then some 0x07 else none
  | .run n _ => if 0xC0 ≤ b ∧ lenBad n then some 0x06 else if tooLong n then some 0x07 else none
  | .matchPrev d n =>
    if lenBad n then some 0x06 else if tooLong n then some 0x07
    else if (s.x : Int) + d < 0 ∨ (lineW : Int) < (s.x : Int) + d + n then some 0x09 else none
  | .matchCur d n =>
    if lenBad n then some 0x06 else if tooLong n then some 0x07
    else if d = 0 ∨ 64575 < d ∨ s.x < d then some 0x09 else none
  | .repeatPrev m => if s.x ≠ 0 then some 0x0A else if m = 0 ∨ s.left < m then some 0x0B else none
  | .baseLines m f =>
    if noBase then some 0x0F else if s.x ≠ 0 then some 0x0A else if m = 0 ∨ s.left < m then some 0x0B
    else if e.baseCount < f + m then some 0x10 else none
  | .span n => if noBase then some 0x0F else if lenBad n then some 0x06 else if tooLong n then some 0x07
    else if range then some 0x10 else none
  | .skip t => if t < s.x then some 0x08 else if lineW < t then some 0x07
    else if fill ∧ s.x < t ∧ range then some 0x10 else none
  | .endLine => if fill ∧ s.x < lineW ∧ range then some 0x10 else none
  | .endChunk => none

/-- Take `n` dots of base line L. -/
def NState.fromBase (s : NState) (e : NEnv) (n : Nat) : NState :=
  let bl := e.baseLine s.line
  { s with
    x := s.x + n, cur := (dotSlice bl.dots s.x n).reverse ++ s.cur, reqs := s.reqs ++ [s.line],
    bad := if bl.blank = 0 then s.bad else s.bad ++ [bl.src] }

/-- Fill `n` columns from the fill source (R65). -/
def NState.fillN (s : NState) (e : NEnv) (fill : Bool) (n : Nat) : NState :=
  if n = 0 then s
  else if fill then s.fromBase e n
  else { s with x := s.x + n, cur := List.replicate n 0 ++ s.cur }

def NState.write (s : NState) (d : List (BitVec 2)) : NState :=
  { s with x := s.x + d.length, cur := d.reverse ++ s.cur }

/-- A line completes: blank if it read a blanked base line (R73, E_BASE_LINE). -/
def NState.complete (s : NState) (cost : Nat) (dots : List (BitVec 2)) (reqs : List Nat) (bad : List (Nat × Nat)) : NState :=
  let d := if bad.isEmpty then dots else []
  let l : NLine :=
    { dots := d, blank := if bad.isEmpty then 0 else 0x11, src := bad.headD (0xFFFF, 0), reqs := reqs.eraseDups,
      bad := bad.eraseDups, cost := cost + s.header }
  { s with
    line := s.line + 1, left := s.left - 1, x := 0, cur := [], prev := d, ops := 0, header := 0, reqs := [], bad := [],
    out := s.out ++ [l] }

def nRepeat (s : NState) : Nat → Nat → NState
  | 0, _ => s
  | m + 1, extra => nRepeat (s.complete (2018 + extra) s.prev [] []) m 0

def nBaseLines (e : NEnv) (s : NState) : Nat → Nat → Nat → NState
  | 0, _, _ => s
  | m + 1, f, extra =>
    let bl := e.baseLine f
    nBaseLines e (s.complete (2018 + extra) bl.dots [f] (if bl.blank = 0 then [] else [bl.src])) m (f + 1) 0

/-- What running one operation gives: a next state, the end of the chunk, or an error code met at the state's line. -/
inductive NRes
  | go (s : NState)
  | done (s : NState)
  | err (s : NState) (code : Nat)

/-- Run the operation at the front of `rest` (R507). -/
def nStep (e : NEnv) (fill : Bool) (s : NState) : NRes :=
  match s.rest with
  | [] => .err s 0x0D
  | b0 :: t =>
    let b := b0.toNat
    if s.left = 0 ∧ b ≠ 0xCF then .err s 0x12
    else
      match nFixed b with
      | none => .err s 0x05
      | some k =>
        if t.length < k then .err s 0x0D
        else
          let op := nOp b (t.take k)
          match nCheck e fill s b op with
          | some c => .err s c
          | none =>
            let s1 : NState := { s with rest := t.drop k, off := s.off + 1 + k, ops := s.ops + 1 }
            match op with
            | .lit n =>
              let m := (n + 3) / 4
              let data := s1.rest.take m
              if data.length < m then .err s 0x0D
              else if !litPadOk n data then .err s 0x0E
              else .go ({ s1 with rest := s1.rest.drop m, off := s1.off + m }.write (litDots n data))
            | .run n v => .go (s1.write (List.replicate n v))
            | .matchPrev d n => .go (s1.write (dotSlice s.prev ((s.x : Int) + d).toNat n))
            | .matchCur d n => .go { s1 with x := s.x + n, cur := copyCur d n s.cur }
            | .repeatPrev m => .go (nRepeat s1 m 1)
            | .baseLines m f => .go (nBaseLines e s1 m f 1)
            | .span n => .go (s1.fromBase e n)
            | .skip t' => .go (s1.fillN e fill (t' - s.x))
            | .endLine =>
              let s2 := s1.fillN e fill (lineW - s.x)
              .go (s2.complete (2018 + s2.ops) s2.cur.reverse s2.reqs s2.bad)
            | .endChunk => if s.left ≠ 0 then .err s 0x0C else .done s1

/-- Run a chunk body to its end or its first error. -/
def nBody (e : NEnv) (fill : Bool) : Nat → NState → NRes
  | 0, s => .err s 0x0D
  | n + 1, s =>
    match nStep e fill s with
    | .go s' => nBody e fill n s'
    | r => r

/-- The header of a chunk is valid (R61). -/
def headerOk (e : NEnv) (idx : Nat) (c : Bytes) : Bool :=
  let fl := byteAt c 3
  decide (16 ≤ c.length) && getN c 0 2 == 0x4B4E && byteAt c 2 == 1 && getN c 12 4 == crc32c (c.take 12) &&
    decide (fl < 4) && byteAt c 9 == 0 && decide (0 < getN c 6 2) && byteAt c 8 == e.bar && getN c 10 2 == idx &&
    (bitAt fl 0 == e.isBase) && !(bitAt fl 1 && e.isBase) && !(bitAt fl 1 && e.base.isNone)

/-- Decode the body of a placed chunk: its lines, and its error if it has one (R73). -/
def decodeBody (e : NEnv) (idx : Nat) (c : Bytes) : List NLine × List NErr :=
  let first := getN c 4 2
  let count := getN c 6 2
  let fill := bitAt (byteAt c 3) 1
  let r := nBody e fill (c.length + 1) { rest := c.drop 16, line := first, left := count }
  let tag := fun (l : List NLine) => l.map (fun x => { x with chunk := some idx })
  match r with
  | .go s | .done s =>
    let n := s.out.length
    (tag (s.out.mapIdx (fun i x => if i + 1 = n then { x with cost := x.cost + 1 } else x)), [])
  | .err s code =>
    if s.left = 0 then
      (tag s.out, [⟨false, code, idx, s.off, 0xFFFF, 0xFFFF, first + count - 1⟩])
    else
      let blank : NLine := { blank := code, src := (idx, s.off) }
      (tag (s.out ++ { blank with bad := s.bad.eraseDups } :: List.replicate (s.left - 1) blank), [⟨false, code, idx, s.off, s.line, first + count - 1, s.line⟩])

/-- Place the chunks in CHUNK_INDEX order (R72): the lines so far and the errors so far. -/
def placeChunks (e : NEnv) : List (Nat × Bytes) → List NLine → List NErr → List NLine × List NErr
  | [], ls, es =>
    let next := ls.length
    if next < e.lines then
      (ls ++ List.replicate (e.lines - next) { blank := 4, src := (0xFFFF, 0) },
        es ++ [⟨false, 4, 0xFFFF, 0, next, e.lines - 1, next⟩])
    else (ls, es)
  | (idx, c) :: t, ls, es =>
    let next := ls.length
    let here := min next (e.lines - 1)
    if !headerOk e idx c then placeChunks e t ls (es ++ [⟨false, 1, idx, 0, 0xFFFF, 0xFFFF, here⟩])
    else
      let first := getN c 4 2
      let count := getN c 6 2
      if first < next ∨ e.lines < first + count then
        placeChunks e t ls (es ++ [⟨false, 2, idx, 0, 0xFFFF, 0xFFFF, here⟩])
      else
        let gapL : List NLine := List.replicate (first - next) { blank := 3, src := (idx, 0) }
        let gapE : List NErr := if next < first then [⟨false, 3, idx, 0, next, first - 1, next⟩] else []
        let r := decodeBody e idx c
        placeChunks e t (ls ++ gapL ++ r.1) (es ++ gapE ++ r.2)

/-- E_BASE_LINE: one error for each base error that blanks a line of the page (R75, Table 3.6). -/
def baseErrs (ls : List NLine) : List NErr :=
  let keys := (ls.map (·.bad)).flatten.eraseDups
  keys.map (fun k =>
    let hit := (List.range ls.length).filter (fun i => (ls.getD i {}).bad.contains k)
    let last := hit.getLastD 0
    ⟨true, 0x11, k.1, k.2, hit.headD 0, last, last⟩)

/-- Decode a whole stream. -/
def decodeStream (e : NEnv) (chunks : List (Nat × Bytes)) : List NLine × List NErr :=
  let r := placeChunks e chunks [] []
  (r.1, r.2 ++ baseErrs r.1)

/-- Advance the base engine's position over one page line's requests (R80): the position and the restarts. A position
is a base, one of its chunks and the base line after the one it stands at. -/
def baseAdvance (baseId : Nat) (base : List NLine) : Option (Nat × Nat × Nat) → List Nat → Option (Nat × Nat × Nat) × Nat
  | p, [] => (p, 0)
  | p, l :: t =>
    match (base.getD l {}).chunk with
    | none => baseAdvance baseId base p t
    | some c =>
      let stay := match p with
        | some (b, k, n) => b == baseId && k == c && decide (n ≤ l + 1)
        | none => false
      let r := baseAdvance baseId base (some (baseId, c, l + 1)) t
      (r.1, r.2 + (if stay then 0 else 1))

end Sys2Proof.Machine
end

