-- ==== Sys2Proof/Machine/Scarab.lean ====
section
/-! DEFINITION. Scarab (chapter 04): the fire lanes with their lead buffers and the check lanes. -/

namespace Sys2Proof.Machine

def State.fireLane (s : State) (b : Nat) : Lane := Tab.get {} s.scarab.fire b
def State.checkLane (s : State) (b : Nat) : Lane := Tab.get {} s.scarab.check b

def State.setFireLane (s : State) (b : Nat) (l : Lane) : State :=
  { s with scarab := { s.scarab with fire := Tab.set {} s.scarab.fire b l } }

def State.setCheckLane (s : State) (b : Nat) (l : Lane) : State :=
  { s with scarab := { s.scarab with check := Tab.set {} s.scarab.check b l } }

/-- The chunks of a stream with their indices. -/
def State.chunksOf (s : State) (isBase : Bool) (id b : Nat) : List (Nat × Bytes) :=
  match s.stream? isBase id b with
  | some x => x.chunks.map (fun c => (c.idx, c.bytes))
  | none => []

/-- The decoded lines of the base a job cites, on a bar, where the base has a stream there. -/
def State.baseDecode (s : State) (j : Job) (b : Nat) : Option (List NLine) :=
  match s.base? j.baseId with
  | none => none
  | some x =>
    if bitAt x.mask b then some (decodeStream ⟨x.lines, b, true, none⟩ (s.chunksOf true x.id b)).1 else none

/-- The bar prints the job: inside its BAR_MASK and not disabled by BAR_ENABLE (R44, R334). -/
def State.barPrints (s : State) (j : Job) (b : Nat) : Bool := bitAt j.mask b && s.obj (Obj.BAR_ENABLE b) == 1

/-- A job's stream on a bar, decoded. -/
def State.jobDecode (s : State) (j : Job) (b : Nat) : List NLine × List NErr :=
  if s.barPrints j b then decodeStream ⟨j.lines, b, false, s.baseDecode j b⟩ (s.chunksOf false j.id b)
  else ([], [])

/-- Cost of base lines the base engine decodes to serve the requests of one page line, passed lines included (R83). -/
def baseCost (base : List NLine) : Option (Nat × Nat × Nat) → Nat → List Nat → Nat
  | _, _, [] => 0
  | p, id, l :: t =>
    match (base.getD l {}).chunk with
    | none => baseCost base p id t
    | some c =>
      let start := base.findIdx (fun x => x.chunk == some c)
      let from' := match p with
        | some (b, k, n) => if b = id ∧ k = c ∧ n ≤ l + 1 then n else start
        | none => start
      let here := ((List.range (l + 1 - from')).map (fun i => (base.getD (from' + i) {}).cost)).foldl (· + ·) 0
      here + baseCost base (some (id, c, l + 1)) id t

/-- Add a line to a decode summary (R94): its blank, and the errors met on it, the first 16 of which are kept. -/
def Summary.add (m : Summary) (blank : Nat) (es : List NErr) : Summary :=
  { blanked := m.blanked + b2n (blank != 0),
    errs := (m.errs ++ es.map (fun e => DecErr.mk e.code e.chunk e.first e.last)).take 16 }

/-- NORREK_ERROR (R75, Table 3.6), its counter and the job's mark. -/
def State.norrekError (s : State) (j : Job) (b : Nat) (e : NErr) : State :=
  let s := s.event (24 + j.cls) 0x0301
    [(12, 4, j.id), (16, 1, b + 128 * b2n e.inBase), (17, 1, e.code), (18, 2, e.chunk), (20, 4, e.offset),
     (24, 2, e.first), (26, 2, e.last)]
  (s.count (Obj.SCB_CHUNK_ERR b) 1).markJob j.id markChunk

/-- The next line a fire lane decodes: jobs in print order, past what each has had decoded (R84, R87). -/
def State.nextFireLine (s : State) (b : Nat) : Option Job :=
  s.hq.jobs.find? (fun j => (j.st == .accepted || j.st == .fired) && decide ((j.bar b).decoded < j.lines))

/-- FIRE_DECODE_LINE (R79 to R87): a line already departed is finished and dropped (R86). -/
def State.fireDecode (s : State) (b : Nat) : State :=
  let lane := s.fireLane b
  match s.nextFireLine b with
  | none => s
  | some j =>
    if !s.ready (4 + b / 2) || !s.dramReady || decide (64 ≤ lane.buf.length) then s
    else
      let l := (j.bar b).decoded
      let r := s.jobDecode j b
      let x := r.1.getD l {}
      let base := (s.baseDecode j b).getD []
      let adv := baseAdvance j.baseId base lane.basePos x.reqs
      let cost := if s.barPrints j b then max x.cost (baseCost base lane.basePos j.baseId x.reqs) else 0
      let late := decide (l < (j.bar b).departed)
      let buf := if late then lane.buf else lane.buf ++ [⟨j.id, l, x.dots, x.blank⟩]
      let s := s.setFireLane b { lane with basePos := adv.1, buf := buf, cost := cost }
      let s := s.count (Obj.SCB_BASE_RESTART b) adv.2
      let s := s.mapJob j.id (fun j => j.setBar b (fun y => { y with decoded := y.decoded + 1 }))
      (r.2.filter (fun e => e.line == l)).foldl (fun s e => s.norrekError j b e) s

/-- A fired line enters the fire lane's decode summary. -/
def State.fireSummary (s : State) (j : Job) (b l : Nat) : State :=
  let r := s.jobDecode j b
  let x := r.1.getD l {}
  s.mapJob j.id (fun j => j.setBar b (fun y => { y with fire := y.fire.add x.blank (r.2.filter (fun e => e.line == l)) }))

/-- Lines of a job discarded from the lead buffer of every bar at its abort (R87). -/
def State.dropLead (s : State) (id : Nat) : State :=
  (List.range 8).foldl (fun s b =>
    let l := s.fireLane b
    s.setFireLane b { l with buf := l.buf.filter (fun x => x.job ≠ id) }) s

/-! ### The check path (R88 to R94) -/

/-- Cameras that take part: enabled and neither off nor refused. -/
def State.camOn (s : State) (c : Nat) : Bool := s.obj (Obj.CAM_ENABLE c) == 1 && s.obj (Obj.CAM_STATE c) != 5

/-- CAM_OFFSET of the first camera, Q32: the least among the enabled cameras, or among all four where none is enabled.
DESIGN CHOICE: the spec does not say where the first camera is when none is enabled. -/
def State.firstCam (s : State) : Int :=
  let o := fun (c : Nat) => s.obj (Obj.CAM_OFFSET c)
  match (List.range 4).filter s.camOn with
  | c :: l => l.foldl (fun m d => min m (o d)) (o c)
  | [] => min (min (o 0) (o 1)) (min (o 2) (o 3))

/-- Web position (Q32) at which page line i of a job reaches the first camera (R88, R232). -/
def State.camPos (s : State) (j : Job) (i : Nat) : Option Int :=
  (j.bar 0).start.map (fun st => st + (i : Int) * s.pitchR + s.firstCam)

/-- The next line the check lanes deliver. -/
def State.nextCheckLine (s : State) : Option Job :=
  s.hq.jobs.find? (fun j => j.onWeb && (j.st != .landing) && decide ((j.bar 0).checked < j.lines))

/-- Web position, Q32. -/
def State.webQ (s : State) : Int := s.web.pos * 2 ^ 32

/-- Bars on which page line l of a job is decoded by the check lanes: printing and, for an aborted job, fired. -/
def State.checkedOn (s : State) (j : Job) (b l : Nat) : Bool :=
  s.barPrints j b && (j.st != .aborted || decide (l < (j.bar b).fired))

/-- One bar's check line: dots, mark and code (R91, R93). -/
def State.checkBar (s : State) (j : Job) (b l : Nat) : List (BitVec 2) × Nat × Nat :=
  if j.st = .aborted ∧ (j.bar b).fired ≤ l then ([], 2, 0)
  else if !s.barPrints j b then ([], 0, 0)
  else
    let x := (s.jobDecode j b).1.getD l {}
    if x.blank = 0 then (x.dots, 0, 0) else ([], 1, x.blank)

/-- Bars on which the check line just decoded is the last fired one (R94). -/
def Job.lastChecked (j : Job) (b l : Nat) : Bool :=
  (j.st == .fired || j.st == .aborted) && decide ((j.bar b).fired = l + 1)

/-- First page line on which two summaries differ, or 0xFFFF (Table 4.4). -/
def firstDiff : List DecErr → List DecErr → Nat
  | a :: t, b :: u => if a = b then firstDiff t u else min a.first b.first
  | a :: _, [] => a.first
  | [], b :: _ => b.first
  | [], [] => 0xFFFF

/-- Compare the two decode summaries of a job on a bar (R94). -/
def State.compareSummaries (s : State) (id b : Nat) : State :=
  match s.job? id with
  | none => s
  | some j =>
    let x := j.bar b
    if x.fire = x.check then s
    else
      let s := s.event (24 + j.cls) 0x0302 [(12, 4, id), (16, 1, b), (18, 2, firstDiff x.fire.errs x.check.errs),
        (20, 2, x.fire.blanked), (22, 2, x.check.blanked)]
      let s := s.count (Obj.SCB_DIVERGE b) 1
      let s := s.mapJob id (fun j => { j with unverified := true, diverged := true })
      s.latch 0x0302 serviceF b [] false false none

/-- The check lane of one bar decodes a line: base engine, restarts and summary. -/
def State.checkLaneLine (s : State) (j : Job) (l : Nat) (b : Nat) : State :=
  if !s.checkedOn j b l then s
  else
    let lane := s.checkLane b
    let r := s.jobDecode j b
    let x := r.1.getD l {}
    let base := (s.baseDecode j b).getD []
    let adv := baseAdvance j.baseId base lane.basePos x.reqs
    let cost := max x.cost (baseCost base lane.basePos j.baseId x.reqs)
    let s := s.setCheckLane b { lane with basePos := adv.1, cost := cost }
    let s := s.count (Obj.SCB_BASE_RESTART b) adv.2
    let s := s.mapJob j.id (fun j => j.setBar b (fun y =>
      { y with check := y.check.add x.blank (r.2.filter (fun e => e.line == l)) }))
    if j.lastChecked b l then s.compareSummaries j.id b else s

/-- The eight check lines of a page line pass to Nimbus, as decoded or marked CHECK_LATE. -/
def State.deliverCheck (s : State) (j : Job) (late : Bool) : State :=
  let l := (j.bar 0).checked
  let bars := (List.range 8).map (fun b => if late && s.checkedOn j b l then ([], 3, 0) else s.checkBar j b l)
  let s := (List.range 8).foldl (fun s b => s.checkLaneLine j l b) s
  let s := { s with scarab := { s.scarab with delivered := s.scarab.delivered ++ [CheckLine.mk j.id l bars] } }
  s.mapJob j.id (fun j => j.setBar 0 (fun y => { y with checked := y.checked + 1 }))

/-- CHECK_DECODE_LINE (R88): once the line's web position is within 64 raster lines of the first camera. -/
def State.checkDecode (s : State) : State :=
  match s.nextCheckLine with
  | none => s
  | some j =>
    match s.camPos j (j.bar 0).checked with
    | none => s
    | some p => if s.ready 8 ∧ s.dramReady ∧ p - 64 * s.pitchR ≤ s.webQ then s.deliverCheck j false else s

/-- CHECK_LATE (R90): the line reaches the first camera without its check line delivered. While PD8
is off no check line is delivered and the page ends UNVERIFIED. -/
def State.checkIsLate (s : State) : State :=
  match s.nextCheckLine with
  | none => s
  | some j =>
    let l := (j.bar 0).checked
    match s.camPos j l with
    | none => s
    | some p =>
      if s.webQ < p then s
      else
        let lateBars := (List.range 8).filter (fun b => s.checkedOn j b l)
        if !s.ready 8 then
          s.mapJob j.id (fun j => { j.setBar 0 (fun y => { y with checked := y.checked + 1 }) with unverified := true })
        else if lateBars.isEmpty then s.deliverCheck j false
        else
          let s := lateBars.foldl (fun s b => s.count (Obj.SCB_CHECK_LATE b) 1) s
          let s := if j.checkLate then s else
            s.event (24 + j.cls) 0x0303 [(12, 4, j.id), (16, 1, lateBars.foldl (fun v b => v + 2 ^ b) 0), (18, 2, l)]
          let s := s.mapJob j.id (fun j => { j with checkLate := true, unverified := true })
          s.deliverCheck j true

def execFireDecodeLine (b : Bar) (s : State) : Outcome := .next (s.fireDecode b.val)
def execCheckDecodeLine (s : State) : Outcome := .next s.checkDecode
def execCheckLate (s : State) : Outcome := .next s.checkIsLate

end Sys2Proof.Machine
end

