-- ==== Sys2Proof/Machine/HeadTx.lean ====
section
/-! DEFINITION. What the device sends to the heads (chapter 08): frames, CONTROL frames with their acknowledgement,
fire authority, and tables. -/

namespace Sys2Proof.Machine

/-- A head is in service: HL_STATE 5 (Table 8.11). -/
def State.inService (s : State) (h : Nat) : Bool := s.obj (Obj.HL_STATE h) == 5

/-- A head is in service, or SERVICE has named a line of its bar that has departed (R209). A card without fire
authority reads it from the head's TELEMETRY (R428). -/
def State.serving (s : State) (h : Nat) : Bool :=
  if s.hasAuthority then s.inService h || (s.headDev h).service.isSome else s.objBit (Obj.HL_HEAD_STATE h) 1

/-- A head that takes tables and bank switches with the heads in service: one that is READY (R209). -/
def State.loadable (s : State) (h : Nat) : Bool := s.serving h || s.obj (Obj.HL_STATE h) == 4

def State.hlTx (s : State) (h kind : Nat) (body : Bytes) : State := s.emit (.arrum h kind body)

/-- A body followed by its CRC-32C (R187). -/
def withCrc (body : Bytes) : Bytes := body ++ le 4 (crc32c body)

/-! ### CONTROL frames (R195) -/

/-- CONTROL body (Table 8.5). -/
def ctlBody (c : Ctl) (cseq : Nat) : Bytes :=
  withCrc (layout 12 [(0, 1, c.op), (2, 2, cseq), (4, 4, c.arg0), (8, 4, c.arg1)])

/-- ASSIGN and TIME_ACQUIRE are the operations a device without fire authority sends (R202). -/
def ctlAllowed (auth : Bool) (op : Nat) : Bool := auth || op == 1 || op == 7

/-- Send a CONTROL operation: at once, or behind the one that waits for its acknowledgement. -/
def State.ctlSend (s : State) (h : Nat) (c : Ctl) : State :=
  let d := s.headDev h
  if !ctlAllowed s.hasAuthority c.op then s
  else
    match d.cur with
    | some _ => s.setHeadDev h { d with queue := d.queue ++ [c] }
    | none =>
      let q := (d.cseq + 1) % 2 ^ 16
      let bound := if 3 ≤ c.op ∧ c.op ≤ 5 then some c else d.bound
      let d := { d with cur := some (c, q), cseq := q, sends := 1, sentNs := s.aclkNs, bound := bound }
      (s.setHeadDev h d).hlTx h 5 (ctlBody c q)

/-- The next queued operation, once none is outstanding. -/
def State.ctlNext (s : State) (h : Nat) : State :=
  let d := s.headDev h
  match d.cur, d.queue with
  | none, c :: t => (s.setHeadDev h { d with queue := t }).ctlSend h c
  | _, _ => s

/-- HOT_LIMIT (Table 8.6). -/
def State.ctlHotLimit (s : State) (h : Nat) : Ctl := ⟨2, bitsOf 16 (s.obj (Obj.FFY_HOT_LIMIT h)), 0⟩

/-- SLOTS (Table 8.6). -/
def State.ctlSlots (s : State) : Ctl :=
  ⟨8, if s.obj Obj.FFY_ROTATE = 1 then s.objN Obj.FFY_SLOT_NS else 0, 0⟩

/-- LSEQ of the next line to depart on a bar: a wrapping count of the lines departed (Table 8.3). -/
def State.nextLseq (s : State) (b : Nat) : Nat := Tab.get 0 s.ffy.lseq b

/-! ### Fire authority (R202) -/

/-- P_lease in whole ns. -/
def State.pLease (s : State) : Nat :=
  let mx := s.objN Obj.HL_LEASE_PMAX
  let p := s.period
  if p = 0 then mx else min mx (max 4167 p.floor.toNat)

/-- The level of TWIN_ROLE, 0 outside a twin (Table 8.5). -/
def State.chip (s : State) : Nat := if s.twinState = twSolo then 0 else Config.twinRole % 2

/-- AUTH or HEARTBEAT body (Table 8.5). -/
def State.authBody (s : State) (auth : Bool) : Bytes :=
  withCrc (layout 12 [(0, 4, s.objN Obj.TWIN_EPOCH), (4, 4, if auth then 4 * s.pLease else 0), (8, 1, s.chip)])

/-- A head that takes AUTH or HEARTBEAT: trained, and past enumeration so that it can come into service. -/
def State.takesAuth (s : State) (h : Nat) : Bool :=
  let st := s.objN (Obj.HL_STATE h)
  (s.headDev h).trained && decide (2 ≤ st) && decide (st ≤ 5)

/-- Send AUTH, or HEARTBEAT without fire authority. -/
def State.sendAuth (s : State) (h : Nat) : State :=
  if s.takesAuth h then
    let d := s.headDev h
    let s := s.setHeadDev h { d with authNs := s.aclkNs }
    s.hlTx h (if s.hasAuthority then 3 else 4) (s.authBody s.hasAuthority)
  else s

/-! ### Tables (R177, R197) -/

/-- TABLE body (Table 8.7). -/
def tableBody (table chunk : Nat) (data : Bytes) (tcrc : Nat) : Bytes :=
  let part := slice data (128 * chunk) 128
  let used := min 128 (data.length - 128 * chunk)
  withCrc (layout 8 [(0, 1, table), (2, 2, chunk), (4, 2, used)] ++ part ++ le 4 tcrc)

/-- Send a whole table to a head. -/
def State.sendTable (s : State) (h table : Nat) (data : Bytes) : State :=
  (List.range ((data.length + 127) / 128)).foldl
    (fun s c => s.hlTx h 6 (tableBody table c data (crc32c data))) s

/-- The trim table of a nozzle parameter table (R197): TIME_TRIM and AMP_TRIM, every other bit zero. -/
def trimWord (w : Nat) : Nat := field w 12 8 * 2 ^ 12 + field w 20 12 * 2 ^ 20

def wordsOf : Nat → Bytes → List Nat
  | 0, _ => []
  | n + 1, b => unle (b.take 4) :: wordsOf n (b.drop 4)

def trimTable (params : Bytes) : Bytes := ((wordsOf 8192 params).map (fun w => le 4 (trimWord w))).flatten

/-- The active trims of a head. -/
def State.activeTrims (s : State) (h : Nat) : Bytes := trimTable (s.blob (Obj.NOZZLE_PARAM h) 0 32768)

/-- Load a waveform table or trims into the staged bank of a head. -/
def State.loadWave (s : State) (h : Nat) (data : Bytes) : State :=
  let d := s.headDev h
  (s.setHeadDev h { d with waveLoad := some (crc32c data) }).sendTable h 0 data

def State.loadTrims (s : State) (h : Nat) (data : Bytes) : State :=
  let d := s.headDev h
  (s.setHeadDev h { d with trimLoad := some (crc32c data) }).sendTable h 1 data

/-! ### Line data (Table 8.3) -/

/-- LINE_DATA body. `dots` are the 2,048 bytes of nozzle values. -/
def State.lineData (s : State) (h lseq line : Nat) (dots : Bytes) : Bytes :=
  let d := s.headDev h
  withCrc (layout 28 [(0, 4, lseq), (4, 2, line), (6, 1, b2n (line == 0)), (7, 1, h),
    (8, 4, s.objN Obj.TWIN_EPOCH), (12, 1, d.waveGen + 16 * d.trimGen)]) ++ dots

end Sys2Proof.Machine
end

