-- ==== Sys2Proof/Machine/Lacewing.lean ====
section
/-! DEFINITION. Lacewing (chapter 07): which nozzle places each dot of a line (R162 to R168), defect changes, and wear
(R179 to R181). A nozzle of a bar is named by 8192 * (head position) + nozzle; 131072 names none. -/

namespace Sys2Proof.Machine

/-! ### Nozzle words (R159) -/

def State.nozWord (s : State) (h n : Nat) : Nat := s.blobN (Obj.NOZZLE_PARAM h) (4 * n) 4

/-- STATUS of a nozzle: 0 GOOD, 1 SUSPECT, 2 DEAD, 3 RETIRED_BY_HOST. -/
def State.nozStatus (s : State) (h n : Nat) : Nat := field (s.nozWord h n) 10 2

def nozGood : Nat := 0
def nozSuspect : Nat := 1
def nozDead : Nat := 2
def nozRetired : Nat := 3

def State.setNozStatus (s : State) (h n st : Nat) : State :=
  s.setBlob (Obj.NOZZLE_PARAM h) (4 * n) (le 4 (putField (s.nozWord h n) 10 2 st))

/-- The ring of an event of a job: Q24 + class while the device holds the job, Q24 once it has retired (R182). -/
def State.jobRing (s : State) (id : Nat) : Nat := match s.job? id with | some j => 24 + j.cls | none => 24

/-- DEFECT_CHANGE (Table 7.7), journaled. -/
def State.defectChange (s : State) (h n old new : Nat) (overruled host : Bool) (job loss : Nat) : State :=
  s.eventJ (s.jobRing job) 0x0701 8
    [(12, 1, h), (13, 1, old + 4 * new + 16 * b2n overruled + 32 * b2n host), (14, 2, n), (16, 4, job), (20, 1, loss)]

/-- Key of the pair of head column c of head h. -/
def pairKey (h c : Nat) : Nat := h * 4096 + c

def State.pair (s : State) (h c : Nat) : Pair := Tab.get {} s.lcw.pairs (pairKey h c)

def State.setPair (s : State) (h c : Nat) (p : Pair) : State :=
  ({ s with lcw := { s.lcw with pairs := Tab.set {} s.lcw.pairs (pairKey h c) p } }).forward
    (.pair (pairKey h c) p.state p.probe p.pages)

/-! ### Mapping a line (R162 to R168) -/

def noServer : Nat := 131072
def barCols : Nat := 64576

/-- What Lacewing reads to build one line. -/
structure LineEnv where
  line : Nat
  partnerOk : Bool
  avail : Nat → Bool
  dark : Nat → Bool
  hot : Nat → Bool
  mask : Nat → Nat → Bool
  row : Nat → Nat

/-- The nozzle of head position p serving bar column C on line i. -/
def nozOf (i p col : Nat) : Nat :=
  let c := col - 4032 * p
  8192 * p + 2 * c + (i + c) % 2

/-- The joint of a bar column, 0 for none. -/
def jointOf (col : Nat) : Nat := if 4032 ≤ col ∧ col / 4032 ≤ 15 ∧ col % 4032 < 64 then col / 4032 else 0

/-- The primary nozzle of a bar column (R162). -/
def LineEnv.primary (e : LineEnv) (col : Nat) : Nat :=
  let j := jointOf col
  if j = 0 then nozOf e.line (min 15 (col / 4032)) col
  else nozOf e.line (if e.mask j (col - 4032 * j) then j else j - 1) col

/-- joint_alt(C, i). -/
def LineEnv.jointAlt (e : LineEnv) (col : Nat) : Nat :=
  let j := jointOf col
  if j = 0 then noServer
  else nozOf e.line (if e.mask j (col - 4032 * j) then j - 1 else j) col

/-- partner(s). -/
def partnerOf (n : Nat) : Nat := if n % 2 = 0 then n + 1 else n - 1

/-- Server of a column and the cause of its mark: 0 none, 1 joint takeover, 2 partner, 4 probe, 5 HOT, 6 lost or left
to the neighbours. -/
def LineEnv.server (e : LineEnv) (col : Nat) : Nat × Nat :=
  let s := e.primary col
  if e.dark s then (noServer, if e.hot s then 5 else 4)
  else if e.avail s then (s, 0)
  else
    let alt := e.jointAlt col
    if alt ≠ noServer ∧ e.avail alt then (alt, 1)
    else if e.partnerOk ∧ e.avail (partnerOf s) then (partnerOf s, 2)
    else (noServer, 6)

/-- sub(s, side, d, n) of R167: a missing dot d beside a neighbour of value n. -/
def LineEnv.sub (e : LineEnv) (s : Nat) (left : Bool) (d n : Nat) : Nat :=
  let w := e.row s
  if d = 0 ∨ (bitAt w 63 ∧ left ≠ (e.line % 2 == 0)) then n
  else field w ((if left then 0 else 24) + 2 * (4 * (d - 1) + n)) 2

/-- What a mapped line is: the dots as raised, each column's server, the marks (column, cause) and the sides lost. -/
structure Mapped where
  dots : Array Nat
  servers : Array Nat
  marks : List (Nat × Nat) := []
  lost : Nat := 0

/-- One side of a missing column. -/
def LineEnv.side (e : LineEnv) (m : Mapped) (col : Nat) (left : Bool) : Mapped :=
  let d := m.dots.getD col 0
  let nb := if left then col - 1 else col + 1
  let inside := if left then decide (0 < col) else decide (col + 1 < barCols)
  if inside ∧ m.servers.getD nb noServer ≠ noServer then
    let n := m.dots.getD nb 0
    let v := e.sub (e.primary col) left d n
    if v = n then m else { m with dots := m.dots.setIfInBounds nb v, marks := (nb, 3) :: m.marks }
  else if 0 < d then { m with lost := m.lost + 1 }
  else m

/-- R165 on a whole line. -/
def LineEnv.map (e : LineEnv) (dots : List (BitVec 2)) : Mapped :=
  let da := ((dots.map BitVec.toNat) ++ List.replicate (barCols - dots.length) 0).toArray
  let x := (List.range barCols).map e.server
  let marks := ((List.range barCols).zip x).filter (fun y => y.2.2 ≠ 0 && da.getD y.1 0 != 0)
  let m : Mapped :=
    { dots := da, servers := (x.map (·.1)).toArray, marks := (marks.map (fun y => (y.1, y.2.2))).reverse }
  ((List.range barCols).zip x).foldl
    (fun m y => if y.2.2 = 6 then e.side (e.side m y.1 true) y.1 false else m) m

/-- Values of the 16 heads' nozzles. -/
def Mapped.values (m : Mapped) : Array Nat :=
  (List.range barCols).foldl
    (fun (a : Array Nat) col =>
      let n := m.servers.getD col noServer
      if n = noServer then a else a.setIfInBounds n (m.dots.getD col 0))
    (Array.replicate noServer 0)

/-- DOTS of one head (Table 8.3). -/
def packDots (v : Array Nat) (p : Nat) : Bytes :=
  (List.range 2048).map (fun k =>
    let x := fun (i : Nat) => v.getD (8192 * p + 4 * k + i) 0
    BitVec.ofNat 8 (x 0 + 4 * x 1 + 16 * x 2 + 64 * x 3))

/-- Raster lines per second (R136, R166). -/
def State.lineRate (s : State) : Rat :=
  let p := q32Val s.pitchR
  if p = 0 then 0 else s.ffy.v * (10 ^ 9 : Nat) / p

/-- A pair under probe on the page of a job: its row B nozzle is dark in band 0 (R164, R171). -/
def State.probing (s : State) (job h n line : Nat) : Bool :=
  n % 2 == 1 && decide (line < 2048) && decide (s.pair h (n / 2) = ⟨3, job, (s.pair h (n / 2)).pages⟩)

/-- What Lacewing reads for line `line` of a job on bar b. -/
def State.lineEnv (s : State) (b job line : Nat) (partnerOk : Bool) : LineEnv :=
  let hd := fun (n : Nat) => headOf b (n / 8192)
  let hot := fun (n : Nat) => s.obj (Obj.FFY_HOT_STATE (hd n)) == 1
  { line := line
    partnerOk := partnerOk
    avail := fun n => decide (s.nozStatus (hd n) (n % 8192) ≤ 1) && s.serving (hd n) && !hot n
    dark := fun n => hot n || s.probing job (hd n) (n % 8192) line
    hot := hot
    mask := fun j k => bitAt (s.blobN (Obj.LCW_STITCH_MASK b) (128 * (j - 1) + 8 * (line % 16) + k / 8) 1) (k % 8)
    row := fun n => s.blobN (Obj.LCW_SUB_TABLE b) (8 * field (s.nozWord (hd n) (n % 8192)) 6 4) 8 }

/-! ### Wear (R179 to R181) -/

/-- Add one to the entries of a list of rising keys. -/
def bump : Nat → List Nat → Tab Nat → Tab Nat
  | 0, _, t => t
  | _, [], t => t
  | f + 1, k :: ks, [] => (k, 1) :: bump f ks []
  | f + 1, k :: ks, e :: t =>
    if k < e.1 then (k, 1) :: bump f ks (e :: t)
    else if k = e.1 then (k, e.2 + 1) :: bump f ks t
    else e :: bump f (k :: ks) t

/-- Count the drops of a line sent to a bar (R179). -/
def State.countDrops (s : State) (b : Nat) (v : Array Nat) : State :=
  let ks := (List.range noServer).filter (fun n => v.getD n 0 != 0)
  let keys := ks.map (fun n => 131072 * b + n)
  let heads := (List.range 16).filter (fun p => ks.any (fun n => n / 8192 == p))
  let s := { s with lcw := { s.lcw with
    wearAcc := bump (keys.length + s.lcw.wearAcc.length + 1) keys s.lcw.wearAcc } }
  heads.foldl (fun s p => s.setHeadDev (headOf b p) { s.headDev (headOf b p) with drops := true }) s

/-- Wear counter (COUNT with OVF in bit 63) and accumulator of a nozzle. -/
def wearKey (h n : Nat) : Nat := 8192 * h + n

def wearMax : Nat := 2 ^ 48 - 1

/-- WEAR_FLUSH (R179, R180): the accumulator is added into the counter, which saturates. -/
def State.flushWear (s : State) (h n : Nat) : State :=
  let k := wearKey h n
  let acc := Tab.get 0 s.lcw.wearAcc k
  let w := Tab.get 0 s.lcw.wear k
  let c := min wearMax (w % 2 ^ 48 + acc)
  let sat := decide (c = wearMax) && decide (w % 2 ^ 48 < wearMax)
  let ovf := if sat then 2 ^ 63 else w / 2 ^ 63 * 2 ^ 63
  let s := { s with lcw := { s.lcw with
    wearAcc := Tab.set 0 s.lcw.wearAcc k 0, wear := Tab.set 0 s.lcw.wear k (c + ovf) } }
  if sat then s.counterOvf (Obj.WEAR h / 256) (Obj.WEAR h % 256) n 0 0 0 else s

/-- One WEAR element as read (R180). -/
def State.wearElem (s : State) (h n : Nat) : Nat :=
  let k := wearKey h n
  let w := Tab.get 0 s.lcw.wear k
  min wearMax (w % 2 ^ 48 + Tab.get 0 s.lcw.wearAcc k) + w / 2 ^ 63 * 2 ^ 63

/-- WEAR as read. -/
def State.wearTable (s : State) (h : Nat) : Bytes := ((List.range 8192).map (fun n => le 8 (s.wearElem h n))).flatten

/-- LCW_WEAR_MAX (Table 7.5). -/
def State.wearMaxOf (s : State) (h : Nat) : Nat :=
  (List.range 8192).foldl (fun m n => max m (s.wearElem h n % 2 ^ 48)) 0

/-- Clear a range of wear elements (R180). -/
def State.clearWear (s : State) (h first count : Nat) : State :=
  let out := fun (e : Nat × Nat) => !(decide (wearKey h first ≤ e.1) && decide (e.1 < wearKey h (first + count)))
  { s with lcw := { s.lcw with wear := s.lcw.wear.filter out, wearAcc := s.lcw.wearAcc.filter out } }

/-- WEAR_RESTORE of elements from `first` on (R181). -/
def State.restoreWear (s : State) (h first : Nat) (words : List Nat) : State :=
  let set1 := fun (x : State × Nat) (w : Nat) =>
    let s := x.1
    let k := wearKey h x.2
    ({ s with lcw := { s.lcw with
      wear := Tab.set 0 s.lcw.wear k (w % 2 ^ 48 + w / 2 ^ 63 * 2 ^ 63), wearAcc := Tab.set 0 s.lcw.wearAcc k 0 } }, x.2 + 1)
  (words.foldl set1 (s, first)).1

/-! ### Status changes -/

/-- LCW_SUSPECT_COUNT, LCW_DEAD_COUNT and LCW_RETIRED_COUNT. -/
def State.countStatus (s : State) (h st : Nat) : Nat := (List.range 8192).foldl (fun m n => m + b2n (s.nozStatus h n == st)) 0

/-- DEFECT_MAP (Table 7.6). -/
def State.defectMap (s : State) (h : Nat) : Bytes :=
  (List.range 2048).map (fun k =>
    let x := fun (i : Nat) => s.nozStatus h (4 * k + i)
    BitVec.ofNat 8 (x 0 + 4 * x 1 + 16 * x 2 + 64 * x 3))

/-- A status change the device makes at once (R170). -/
def State.deviceStatus (s : State) (h n new job loss : Nat) : State :=
  let old := s.nozStatus h n
  if old = new then s
  else ((s.setNozStatus h n new).defectChange h n old new false false job loss).forward (.nozStatus h n new job loss)

/-- A nozzle is to become DEAD at its page boundary. -/
def State.deadDue (s : State) (h n old job loss : Nat) : State :=
  ({ s with lcw := { s.lcw with dead := s.lcw.dead ++ [DeadChange.mk h n old job loss true] } }).forward (.dead h n old job loss)

/-- Changes to DEAD that take effect at the departure of line 0 of a job's page on bar b (R17, R170, R172). A change
that meets a host write of the same nozzle at this boundary is overruled; `host` names those nozzles. -/
def State.takeDead (s : State) (b : Nat) (host : List (Nat × Nat)) : State :=
  let mine := fun (c : DeadChange) => c.approved && c.head / 16 == b
  let due := s.lcw.dead.filter mine
  let s := { s with lcw := { s.lcw with dead := s.lcw.dead.filter (fun c => !mine c) } }
  due.foldl (fun s c =>
    if host.contains (c.head, c.noz) then s.defectChange c.head c.noz c.old nozDead true false c.job c.loss
    else if s.nozStatus c.head c.noz = nozRetired then s
    else (s.setNozStatus c.head c.noz nozDead).defectChange c.head c.noz (s.nozStatus c.head c.noz) nozDead false false c.job c.loss) s

/-- A committed nozzle parameter table takes effect (R161, R172). `data` are 32,768 bytes of words and 8,192 bytes of
flags: bit 0 the element was written, bit 1 the write was a host write of STATUS. -/
def State.applyParams (s : State) (h job : Nat) (data : Bytes) : State :=
  let ws := (wordsOf 8192 (data.take 32768)).zip (data.drop 32768)
  (ws.zip (List.range 8192)).foldl (fun s x =>
    let w := x.1.1
    let fl := x.1.2.toNat
    let n := x.2
    if fl % 2 = 0 then s
    else
      let old := s.nozStatus h n
      let host := fl / 2 % 2 == 1
      let st := if host then field w 10 2 else old
      let s := s.setBlob (Obj.NOZZLE_PARAM h) (4 * n) (le 4 (putField w 10 2 st))
      if host then
        let s := if (s.pair h (n / 2)).state = 2 then s.setPair h (n / 2) {} else s
        if st = old then s else s.defectChange h n old st false true job 0
      else s) s

/-- Nozzles whose STATUS the host writes in a staged parameter table of head h. -/
def hostNozzles (h : Nat) (data : Bytes) : List (Nat × Nat) :=
  (((data.drop 32768).zip (List.range 8192)).filter (fun x => x.1.toNat / 2 % 2 == 1)).map (fun x => (h, x.2))

/-! ### Probes (R171) -/

/-- Take the pairs pending a probe on bar b for the page of a job: at most LCW_PROBE_MAX, none within 8 head columns of
another of the same head. -/
def State.startProbes (s : State) (b job : Nat) : State :=
  let mx := s.objN (Obj.LCW_PROBE_MAX b)
  let cand := s.lcw.pairs.filter (fun e => (e.2.state == 2 || e.2.state == 3 && (s.job? e.2.probe).isNone) && e.1 / 4096 / 16 == b)
  let x := cand.foldl (fun (acc : List Nat) e =>
    let clash := acc.any (fun k => k / 4096 == e.1 / 4096 && decide ((max k e.1) - (min k e.1) ≤ 8))
    if acc.length < mx ∧ !clash then acc ++ [e.1] else acc) []
  x.foldl (fun s k =>
    let p := Tab.get {} s.lcw.pairs k
    { s with lcw := { s.lcw with pairs := Tab.set {} s.lcw.pairs k { p with state := 3, probe := job } } }) s

/-! ### Method (R166) -/

/-- Fix the method of a page at the departure of its line 0: 0 PARTNER, 1 NEIGHBOUR. -/
def State.fixMethod (s : State) (b job : Nat) : State × Nat :=
  let m := if s.lineRate ≤ ((s.objN (Obj.LCW_PARTNER_MAX b) : Nat) : Rat) then 0 else 1
  let prev := Tab.get 0 s.lcw.method b
  let s := { s with lcw := { s.lcw with method := Tab.set 0 s.lcw.method b (m + 1) } }
  let s := s.setObj (Obj.LCW_METHOD b) (m : Nat)
  if prev = 0 ∨ prev = m + 1 then (s, m)
  else (s.event (s.jobRing job) 0x0704 [(12, 1, b), (13, 1, m), (16, 4, job)], m)

/-- A line of a PARTNER page above the threshold (R166). -/
def State.crossLine (s : State) (b job line : Nat) : State :=
  let s := s.count (Obj.LCW_SUB_LINES b) 1
  if s.lcw.crossed.contains (job, b) then s
  else
    let s := { s with lcw := { s.lcw with crossed := s.lcw.crossed ++ [(job, b)] } }
    s.event (s.jobRing job) 0x0705 [(12, 1, b), (16, 4, job), (20, 2, line)]

/-! ### Building a line -/

/-- Build line `line` of a job on bar b from its composed dots (R158, R165): the values of the bar's nozzles, with the
marks, lost sides and drops counted. -/
def State.buildLine (s : State) (b job line method : Nat) (dots : List (BitVec 2)) (send : Bool) : State × Array Nat :=
  let below := decide (s.lineRate ≤ ((s.objN (Obj.LCW_PARTNER_MAX b) : Nat) : Rat))
  let s := if method = 0 ∧ !below then s.crossLine b job line else s
  if dots.all (· == 0) then (s, #[])
  else
    let m := (s.lineEnv b job line (method == 0 && below)).map dots
    let v := m.values
    let s := s.count (Obj.LCW_LOST_DOTS b) m.lost
    let s := { s with lcw := { s.lcw with
      marks := s.lcw.marks ++ m.marks.reverse.map (fun x => ⟨job, b, line, x.1, x.2⟩) } }
    (if send then s.countDrops b v else s, v)

def execWearFlush (h : Head) (n : Fin 8192) (s : State) : Outcome := .next (s.flushWear h.val n.val)

end Sys2Proof.Machine
end

