-- ==== Sys2Proof/Machine/CalBase.lean ====
section
/-! DEFINITION. What the commit sets, Lacewing and Nimbus use of calibration (chapter 12): settling, proposals (R280)
and the corrections staged for a page boundary (R278, R279). -/

namespace Sys2Proof.Machine

def State.calBar (s : State) (b : Nat) : CalBar := Tab.get {} s.cal.bars b

def State.setCalBar (s : State) (b : Nat) (x : CalBar) : State := { s with cal := { s.cal with bars := Tab.set {} s.cal.bars b x } }

def State.calUnit (s : State) (cls inst : Nat) : CalUnit := Tab.get {} s.cal.units (cls * 65536 + inst)

def State.setCalUnit (s : State) (cls inst : Nat) (x : CalUnit) : State :=
  { s with cal := { s.cal with units := Tab.set {} s.cal.units (cls * 65536 + inst) x } }

/-- CAL_STATE of a unit: class 1 lane, 2 subchannel, 3 head. -/
def calStateKey (cls inst : Nat) : Nat :=
  if cls = 1 then Obj.CAL_STATE_N inst else if cls = 2 then Obj.CAL_STATE_D inst else Obj.CAL_STATE_H inst

/-- 0 not due, 1 due, 2 run, 3 repeat. -/
def State.calState (s : State) (cls inst : Nat) : Nat := field (s.objN (calStateKey cls inst)) 0 2

def State.setCalState (s : State) (cls inst st : Nat) : State :=
  s.setObj (calStateKey cls inst) (putField (s.objN (calStateKey cls inst)) 0 2 st : Nat)

/-- A pair that a retrain, a lost lock or an off domain interrupts is discarded; the unit stays due (R274). -/
def State.calInterrupt (s : State) (cls inst : Nat) : State :=
  if s.calState cls inst < 2 then s
  else (s.setCalState cls inst 1).setCalUnit cls inst { s.calUnit cls inst with first := none, tiles := [], pages := 0 }

/-- CAL_APPLIED, journaled. -/
def State.calApplied (s : State) (cls inst job flags : Nat) (change : Int) : State :=
  s.eventJ 24 0x0C02 8 [(12, 1, cls), (13, 1, flags), (14, 2, inst), (16, 4, job), (20, 4, bitsOf 32 change)]

/-! ### Lane phases (Table 12.1) -/

/-- The phase of a lane takes one step toward its accepted or restored value. -/
def State.stepPhase (s : State) (n : Nat) : State :=
  let u := s.calUnit 1 n
  match u.target with
  | none => s
  | some t =>
    let p := s.obj (Obj.CAL_PHASE n)
    let p := if p < t then p + 1 else if t < p then p - 1 else p
    let s := s.setObj (Obj.CAL_PHASE n) p
    if p = t then (s.setCalUnit 1 n { u with target := none }).calApplied 1 n 0 (4 * b2n u.restoring) (t - u.base) else s

/-- The lanes of a bar's heads step at each of its line boundaries. -/
def State.stepBarPhases (s : State) (b : Nat) : State := (List.range 16).foldl (fun s i => s.stepPhase (16 * b + i)) s

/-- The whole change at once. -/
def State.jumpPhase (s : State) (n : Nat) : State := (List.range 16).foldl (fun s _ => s.stepPhase n) s

/-! ### Proposals (R280) -/

/-- The unit or nozzle two proposals share. -/
def sameUnit (p : Proposal) (cls inst : Nat) (value : Int) : Bool :=
  p.cls == cls && p.inst == inst && (cls != 5 || p.value == value)

/-- Enter a proposal; it supersedes an older one of the same unit or nozzle. -/
def State.propose (s : State) (cls inst : Nat) (value : Int) (job loss : Nat) : State :=
  let q := if s.cal.seq + 1 = 2 ^ 32 then 1 else s.cal.seq + 1
  let old := s.cal.props.filter (fun p => !sameUnit p cls inst value)
  let s := { s with cal := { s.cal with seq := q, props := old ++ [Proposal.mk q cls inst value job s.now loss] } }
  s.event 24 0x0C03 [(12, 1, cls), (14, 2, inst), (16, 4, q), (20, 4, bitsOf 32 value)]

/-- Drop the proposals a test names. -/
def State.withdraw (s : State) (f : Proposal → Bool) : State :=
  { s with cal := { s.cal with props := s.cal.props.filter (fun p => !f p) } }

/-- A nozzle's pair returns to GOOD: its proposal is withdrawn. -/
def State.withdrawNozzle (s : State) (h n : Nat) : State :=
  s.withdraw (fun p => p.cls == 5 && p.inst == h && p.value == (n : Int))

/-- The bar a proposal or correction moves. -/
def unitBar (cls inst : Nat) : Nat := if cls = 3 then inst / 16 else inst

/-! ### Settling (R277) -/

/-- Settling restarts on a bar at the job at which its bar offset or a row offset changed; every bar is measured against
the reference bar, so a change there restarts every bar. Runs in progress on the bar's heads begin again. -/
def State.restartSettling (s : State) (b job psn : Nat) : State :=
  let ref := s.objN Obj.CAL_REG_REF
  let s := s.setObj (Obj.CAL_SETTLED_JOB b) (job : Nat)
  let s := s.setCalBar b { s.calBar b with settled := some psn }
  let hit := (List.range 8).filter (fun x => x == b || b == ref)
  let s := hit.foldl (fun s x => s.setCalBar x { s.calBar x with first := none, results := [] }) s
  let s := hit.foldl (fun s x => (List.range 16).foldl (fun s p =>
    let h := 16 * x + p
    if 2 ≤ s.calState 3 h then
      (s.setCalState 3 h 2).setCalUnit 3 h { s.calUnit 3 h with first := none, tiles := [], pages := 0 }
    else s) s) s
  s.withdraw (fun p => (p.cls == 3 || p.cls == 4) && hit.contains (unitBar p.cls p.inst))

/-- The key sets bar b's offset or a row offset of one of its heads. -/
def registersBar (k b : Nat) : Bool :=
  k == Obj.FFY_BAR_OFFSET b ||
    (List.range 16).any (fun p => k == Obj.FFY_ROW_OFFSET_A (headOf b p) || k == Obj.FFY_ROW_OFFSET_B (headOf b p))

/-! ### Corrections (R278) -/

/-- Objects a correction moves. -/
def Correction.keys (c : Correction) : List Nat :=
  if c.cls = 3 then [Obj.FFY_ROW_OFFSET_A c.inst, Obj.FFY_ROW_OFFSET_B c.inst] else [Obj.FFY_BAR_OFFSET c.inst]

/-- A change of 0.01 um as Q32 counts: lambda stands for one 1,200th of an inch; halves go toward the value in force. -/
def State.umToQ32 (s : State) (v : Int) : Int :=
  let q : Rat := ((v.natAbs : Nat) : Rat) * ((s.obj Obj.FFY_LINE_PITCH : Int) : Rat) * 6 / 12700
  let f := q.floor
  let n := if (1 : Rat) / 2 < q - (f : Rat) then f + 1 else f
  if v < 0 then -n else n

/-- The corrections of a bar take effect at line 0 of a job on it; where a host set moved the same object at this
boundary, the host's value stands (Table 12.5). -/
def State.applyCorrections (s : State) (b job psn : Nat) (host : List Nat) : State :=
  let mine := s.cal.staged.filter (fun c => unitBar c.cls c.inst == b)
  let s := { s with cal := { s.cal with staged := s.cal.staged.filter (fun c => unitBar c.cls c.inst ≠ b) } }
  mine.foldl (fun s c =>
    if c.keys.any host.contains then s.calApplied c.cls c.inst job (b2n c.approved + 2) c.change
    else
      let d := s.umToQ32 c.change
      let s := c.keys.foldl (fun s k => s.setObj k (s.obj k + d)) s
      let s := (s.count (Obj.CAL_CORR_CNT b) 1).restartSettling b job psn
      s.calApplied c.cls c.inst job (b2n c.approved) c.change) s

end Sys2Proof.Machine
end

