-- ==== Sys2Proof/Machine/DramMap.lean ====
section
/-! DEFINITION. DRAM as the blocks see it (chapter 18): its bytes by device address, and where the regions of Table 18.2
lie. -/

namespace Sys2Proof.Machine

/-! ### Bytes -/

/-- What a byte of DRAM that nothing has written reads as. -/
def dramEmpty : Byte := 0

def State.dramByte (s : State) (a : Nat) : Byte := Tab.get dramEmpty s.dram a

def State.dramSet (s : State) (a : Nat) (v : Byte) : State := { s with dram := Tab.set dramEmpty s.dram a v }

def State.dramGet (s : State) (a n : Nat) : Bytes := (List.range n).map (fun i => s.dramByte (a + i))

def State.dramPut (s : State) (a : Nat) : Bytes → State
  | [] => s
  | b :: t => (s.dramSet a b).dramPut (a + 1) t

/-- The canonical form of DRAM: addresses strictly rising, no byte listed that reads as an unlisted one. -/
def Memory.wf (m : List Host.Cell) : Bool := Tab.wf (fun _ => dramEmpty) m

/-! ### Regions (R374, Table 18.2) -/

def mib : Nat := 2 ^ 20
def gib : Nat := 2 ^ 30

/-- Sizes of the regions that precede the general one. -/
def State.regionSizes (s : State) : List Nat :=
  [65536 * 8 * (1 + Config.dramTwoRanks.toNat), 8 * mib, s.objN Obj.JNL_STORE_MIB * mib, gib, s.objN Obj.NIM_EVID_SIZE * gib,
   s.objN Obj.DRAM_POOL_GIB * gib]

/-- Usable bytes (R373). -/
def State.usable (s : State) : Nat := s.objN Obj.DRAM_USABLE_MIB * mib

/-- The regions are laid out once DRAM has become READY. -/
def State.laidOut (s : State) : Bool := s.obj Obj.DRAM_STATE == 3 || s.obj Obj.DRAM_STATE == 4

def sumTo (l : List Nat) (n : Nat) : Nat := (l.take n).foldl (· + ·) 0

/-- Offset and size of region r in the order of Table 18.2. -/
def State.region (s : State) (r : Nat) : Nat × Nat :=
  let z := s.regionSizes
  if r < 6 then (sumTo z r, z.getD r 0) else (sumTo z 6, s.usable - sumTo z 6)

/-- DRAM_REGIONS: 7 entries of offset and size. -/
def State.dramRegions (s : State) : Bytes :=
  if s.laidOut then ((List.range 7).map (fun r => le 8 (s.region r).1 ++ le 8 (s.region r).2)).flatten else zeros 112

/-- Regions of Table 18.2 by number. -/
def regTraining : Nat := 0
def regJournal : Nat := 2
def regTwin : Nat := 3
def regEvidence : Nat := 4
def regPool : Nat := 5
def regGeneral : Nat := 6

/-- Bytes of the evidence region from an offset on (R35). -/
def State.evidGet (s : State) (off n : Nat) : Bytes :=
  let r := s.region regEvidence
  (List.range n).map (fun i => if s.laidOut ∧ off + i < r.2 then s.dramByte (r.1 + off + i) else 0xFF)

end Sys2Proof.Machine
end

