-- ==== Sys2Proof/Machine/Commit.lean ====
section
/-! DEFINITION. Commit sets (R17 to R19, R321 to R323, R332, R333): what they touch, how they load, bind to a page job
and take effect, and their outcomes. -/

namespace Sys2Proof.Machine

/-! ### Values of objects -/

/-- The number a value's bytes stand for (Table 14.1). -/
def Obj.decode (ty : Nat) (b : Bytes) : Int := if Obj.tySigned ty then getI b 0 (Obj.tyBytes ty) else (unle b : Nat)

/-- The bytes of a number of a type. -/
def Obj.encode (ty : Nat) (v : Int) : Bytes := leInt (Obj.tyBytes ty) v

/-- Set the value of an object from its bytes: STR and BLOB objects byte by byte, with their length where it varies. -/
def State.setValue (s : State) (k : Nat) (b : Bytes) : State :=
  match Obj.find k with
  | none => s
  | some (r, _) =>
    if 12 ≤ r.ty then
      let s := s.setBlob k 0 b
      if r.len = 0 then s.setObj k (b.length : Nat) else s
    else s.setObj k (Obj.decode r.ty b)

/-! ### What a set touches (R321, Table 15.5) -/

def maskOf (f : Nat → Bool) (n : Nat) : Nat := (List.range n).foldl (fun v i => v + b2n (f i) * 2 ^ i) 0

/-- Bars an object touches. -/
def keyBars (k : Nat) : Nat :=
  let idx := k / 256
  if 0x2000 ≤ idx ∧ idx < 0x3000 then 255
  else if 0x3000 ≤ idx ∧ idx < 0x3800 then 2 ^ ((idx - 0x3000) / 0x100)
  else if 0x4000 ≤ idx ∧ idx < 0x5000 then 2 ^ ((idx - 0x4000) / 0x20 / 16)
  else if 0x8000 ≤ idx ∧ idx < 0x8080 then 2 ^ ((idx - 0x8000) / 16)
  else if 0x8100 ≤ idx ∧ idx < 0x8108 then 2 ^ (idx - 0x8100)
  else 0

/-- Nimbus objects apply to whole pages on every camera (R269). -/
def isNimbusKey (k : Nat) : Bool := 0x6500 ≤ k / 256 && k / 256 < 0x6600

/-- Cameras an object touches. -/
def keyCams (k : Nat) : Nat :=
  let idx := k / 256
  if 0x6400 ≤ idx ∧ idx < 0x6500 then 2 ^ ((idx - 0x6400) / 0x40) else if isNimbusKey k then 15 else 0

/-- Compare outputs an object touches. -/
def keyOuts (k : Nat) : Nat :=
  let idx := k / 256
  if 0x6300 ≤ idx ∧ idx < 0x6380 then 2 ^ ((idx - 0x6300) / 8) else 0

def itemsMask (f : Nat → Nat) (l : List Staged) : Nat := l.foldl (fun v x => v ||| f x.key) 0

/-- The lowest bar of a mask: the most upstream one (R18). -/
def lowBar (m : Nat) : Nat := (List.range 8).find? (fun b => bitAt m b) |>.getD 8

/-! ### Gains (R136) and registration moves (R156) -/

def gainsOk (a b g : Rat) : Bool :=
  decide (0 < a) && decide (a < 2) && decide (0 < b) && decide (b < 4 - 2 * a) && decide (0 < g) &&
    decide (g * (2 - a) < 4 * a * b)

/-- The value of an F32 object, from a list of staged values where it holds one. -/
def State.gainOf (s : State) (l : List Staged) (k : Nat) : Nat :=
  match l.find? (fun x => x.key == k) with
  | some x => unle x.bytes
  | none => s.objN k

def isGain (k : Nat) : Bool := k == Obj.FFY_ALPHA || k == Obj.FFY_BETA || k == Obj.FFY_GAMMA

/-- The three gains as they would stand with a list of staged values meet R136. A gain that is not finite never does. -/
def State.gainsMeet (s : State) (l : List Staged) : Bool :=
  let a := s.gainOf l Obj.FFY_ALPHA
  let b := s.gainOf l Obj.FFY_BETA
  let g := s.gainOf l Obj.FFY_GAMMA
  f32Finite a && f32Finite b && f32Finite g && gainsOk (f32Val a) (f32Val b) (f32Val g)

/-- The list breaks a condition of R136. -/
def State.gainsBad (s : State) (l : List Staged) : Bool := l.any (fun x => isGain x.key) && !s.gainsMeet l

def State.qOf (s : State) (l : List Staged) (k : Nat) : Int :=
  match l.find? (fun x => x.key == k) with
  | some x => getI x.bytes 0 8
  | none => s.obj k

/-- The set moves some row fire position by more than half a raster pitch (R156). -/
def State.movesFar (s : State) (l : List Staged) (bars : Nat) : Bool :=
  (List.range 8).any (fun b => bitAt bars b &&
    (let d := s.qOf l (Obj.FFY_BAR_OFFSET b) - s.obj (Obj.FFY_BAR_OFFSET b)
     (List.range 16).any (fun p =>
       let h := headOf b p
       let far := fun (k : Nat) => decide (s.pitchR < 2 * ((s.qOf l k - s.obj k + d).natAbs : Int))
       far (Obj.FFY_ROW_OFFSET_A h) || far (Obj.FFY_ROW_OFFSET_B h))))

/-- Bars on which no job other than `job` has lines left. -/
def State.idleBut (s : State) (bars job : Nat) : Bool :=
  s.hq.jobs.all (fun j => j.id == job || (List.range 8).all (fun b => !bitAt bars b || !j.busyOn b))

/-! ### Loading tables into heads (R161, R177) -/

/-- The nozzle parameter table of a head as it would stand after a staged table. -/
def State.mergedParams (s : State) (h : Nat) (data : Bytes) : Bytes :=
  (((wordsOf 8192 (data.take 32768)).zip (data.drop 32768)).zip (List.range 8192)).map
    (fun x => if x.1.2.toNat % 2 = 1 then le 4 x.1.1 else s.blob (Obj.NOZZLE_PARAM h) (4 * x.2) 4) |>.flatten

/-- The trims a staged parameter table needs in the staged bank of its head: none where no trim changes. -/
def State.trimsFor (s : State) (h : Nat) (data : Bytes) : Option Bytes :=
  let t := trimTable (s.mergedParams h data)
  if t = s.activeTrims h then none else some t

/-- Head of a nozzle parameter key. -/
def paramHead (k : Nat) : Option Nat :=
  let idx := k / 256
  if 0x8000 ≤ idx ∧ idx < 0x8080 ∧ k % 256 = 1 then some (idx - 0x8000) else none

/-- Bar of a waveform table key. -/
def waveBar (k : Nat) : Option Nat :=
  let idx := k / 256
  if 0x8100 ≤ idx ∧ idx < 0x8108 ∧ k % 256 = 1 then some (idx - 0x8100) else none

def barHeads (b : Nat) : List Nat := (List.range 16).map (headOf b)

/-- Every head concerned has reported the staged CRC of an item's table. -/
def State.itemLoaded (s : State) (x : Staged) : Bool :=
  match waveBar x.key with
  | some b => (barHeads b).all (fun h => !s.serving h || s.obj (Obj.LCW_WAVE_STAGED h) == (crc32c x.bytes : Int))
  | none =>
    match paramHead x.key with
    | some h =>
      match s.trimsFor h x.bytes with
      | none => true
      | some t => !s.serving h || (s.headDev h).trimCrc == crc32c t
    | none => true

def CommitSet.loads (c : CommitSet) : Bool := c.items.any (fun x => (waveBar x.key).isSome || (paramHead x.key).isSome)

/-- The items of a set that have not taken effect yet. -/
def CommitSet.waiting (c : CommitSet) : List Staged := c.items.filter (fun x => decide (keyBars x.key &&& c.doneBars = 0))

def State.mapPending (s : State) (f : CommitSet → CommitSet) : State :=
  { s with toa := { s.toa with pending := s.toa.pending.map f } }

/-- STATE of the pending sets, and WAVE_LOAD_STATE of the bars: 0 nothing staged, 1 loading, 2 staged. -/
def State.refreshSets (s : State) : State :=
  let s := s.mapPending (fun c =>
    if c.cls = 1 ∧ c.loads then { c with state := if c.waiting.all s.itemLoaded then 2 else 1 } else c)
  (List.range 8).foldl (fun s b =>
    let x := (s.toa.pending.map CommitSet.waiting).flatten.find? (fun x => waveBar x.key == some b)
    s.setObj (Obj.WAVE_LOAD_STATE b) (match x with | none => 0 | some x => if s.itemLoaded x then 2 else 1)) s

/-- Start the loads the first pending set of each table still needs; a load a head already holds is not sent again. -/
def State.startLoads (s : State) : State :=
  if !s.hasAuthority then s
  else
    let items := (s.toa.pending.map CommitSet.waiting).flatten
    let s := items.foldl (fun s x =>
      match waveBar x.key with
      | some b =>
        if items.find? (fun y => y.key == x.key) ≠ some x then s
        else (barHeads b).foldl (fun s h =>
          if s.loadable h ∧ (s.headDev h).waveLoad ≠ some (crc32c x.bytes) then s.loadWave h x.bytes else s) s
      | none =>
        match paramHead x.key with
        | some h =>
          if items.find? (fun y => y.key == x.key) ≠ some x then s
          else
            match s.trimsFor h x.bytes with
            | none => s
            | some t => if s.loadable h ∧ (s.headDev h).trimLoad ≠ some (crc32c t) then s.loadTrims h t else s
        | none => s) s
    s.refreshSets

/-! ### Outcomes (R323, R332) -/

/-- Commit entry (Table 15.5). -/
def CommitSet.entry (c : CommitSet) : Bytes :=
  layout 32 [(0, 4, c.number), (4, 1, c.cls), (5, 1, c.state), (6, 2, min c.slips 0xFFFF), (8, 4, c.sess),
    (12, 1, c.bars), (13, 1, c.cams), (14, 2, c.outs), (16, 4, c.jobId), (20, 4, c.stampCommit), (24, 4, c.stampEnd),
    (28, 2, c.items.length), (30, 1, c.refusal)]

/-- One object of a COMMIT-style object list (Table 22.1). -/
def objListEntry (k ty : Nat) (b : Bytes) : Bytes :=
  layout 8 [(0, 2, k / 256), (2, 1, k % 256), (3, 1, ty), (4, 4, b.length)] ++ (if b.length ≤ 8 then b else sha384 b)

def keyType (k : Nat) : Nat := match Obj.find k with | some (r, _) => r.ty | none => 0

/-- The bytes a staged value stands for: a nozzle parameter table without its write flags. -/
def Staged.value (x : Staged) : Bytes := if (paramHead x.key).isSome then x.bytes.take 32768 else x.bytes

/-- A set leaves COMMIT_TABLE for COMMIT_HISTORY with an outcome: 3 TOOK_EFFECT, 4 REFUSED, 5 CANCELLED. -/
def State.finishSet (s : State) (number outcome : Nat) : State :=
  match s.toa.pending.find? (fun c => c.number == number) with
  | none => s
  | some c =>
    let c := { c with
      state := outcome, stampEnd := s.stamp, refusal := if outcome = 4 then 4 else 0,
      jobId := if outcome = 3 then c.boundJob.getD 0 else 0 }
    let s := { s with toa := { s.toa with
      pending := s.toa.pending.filter (fun x => x.number ≠ number), history := (c :: s.toa.history).take 16 } }
    let s := if outcome = 5 then s else
      s.event 24 0x0E01 [(12, 1, c.cls), (13, 1, c.refusal), (14, 2, min c.slips 0xFFFF), (16, 4, c.number),
        (20, 4, c.jobId), (24, 4, c.sess)]
    let s := s.journal 7 (c.entry ++ (c.items.map (fun x => objListEntry x.key (keyType x.key) x.value)).flatten)
    let s := if outcome = 3 then s.forward (.tookEffect c.number c.jobId) else s
    s.startLoads.refreshSets

def State.slipSet (s : State) (number : Nat) : State :=
  s.mapPending (fun c => if c.number = number then { c with slips := min (c.slips + 1) 0xFFFF } else c)

/-! ### IDLE class (R19) -/

/-- Earlier pending sets of a class that touch a common bar. -/
def State.earlierOverlap (s : State) (c : CommitSet) : Bool :=
  s.toa.pending.any (fun d => d.cls == c.cls && decide (d.number ≠ c.number) &&
    decide (d.bars &&& c.bars ≠ 0 ∨ d.cams &&& c.cams ≠ 0 ∨ d.outs &&& c.outs ≠ 0) &&
    decide ((s.toa.pending.takeWhile (fun e => e.number ≠ c.number)).any (fun e => e.number == d.number)))

/-- Group slots have changed: every head in service is told (Table 8.6). -/
def State.sendSlots (s : State) : State :=
  (List.range 128).foldl (fun s h => if s.serving h then s.ctlSend h s.ctlSlots else s) s

/-- An IDLE set takes effect when every touched bar is idle together, no earlier overlapping set is pending and its
gains meet R136; otherwise it is refused or stays. -/
def State.idleSet (s : State) (c : CommitSet) : State :=
  if !((List.range 8).all (fun b => !bitAt c.bars b || s.barIdle b)) || s.earlierOverlap c then s
  else if s.gainsBad c.items then s.finishSet c.number 4
  else
    let s := c.items.foldl (fun s x => s.setValue x.key x.bytes) s
    let s := if c.items.any (fun x => x.key == Obj.FFY_SLOT_NS || x.key == Obj.FFY_ROTATE) then s.sendSlots else s
    let enabled := c.items.filter (fun x => x.key % 256 == 1 && x.key / 256 % 0x100 == 0 && decide (x.key / 256 / 0x1000 = 3))
    let s := enabled.foldl (fun s x =>
      { s with lcw := { s.lcw with method := Tab.set 0 s.lcw.method ((x.key / 256 - 0x3000) / 0x100) 0 } }) s
    s.finishSet c.number 3

/-! ### PAGE class (R17, R18) -/

/-- A head still LOADING its active tables starts the load anew when one of them changes (R209). -/
def State.reload (s : State) (h : Nat) : State :=
  if s.obj (Obj.HL_STATE h) = 3 then
    (s.setHeadDev h { s.headDev h with stage := 2, waveLoad := none, trimLoad := none }).setObj (Obj.HL_STATE h) 2
  else s

/-- A waveform table takes effect on its bar at line `lseq` of a job (R177). -/
def State.applyWave (s : State) (b lseq job slips : Nat) (data : Bytes) : State :=
  let s := (barHeads b).foldl (fun s h =>
    if s.loadable h then
      let d := s.headDev h
      let s := s.setHeadDev h { d with waveGen := (d.waveGen + 1) % 16, waveLoad := none }
      s.ctlSend h ⟨4, lseq, 1⟩
    else s) s
  let s := s.setBlob (Obj.WAVE_TABLE b) 0 data
  let s := (barHeads b).foldl (fun s h => s.reload h) s
  let id := getN data 4 4
  let s := s.setObj (Obj.WAVE_ACTIVE_ID b) (id : Nat)
  s.eventJ (s.jobRing job) 0x0703 8 [(12, 1, b), (16, 4, job), (20, 4, id), (24, 2, min slips 0xFFFF)]

/-- Nozzle parameters take effect at line `lseq` of a job; changed trims switch the head's trim bank. -/
def State.applyNozzles (s : State) (h lseq job : Nat) (data : Bytes) : State :=
  let sw := (s.trimsFor h data).isSome
  let s := s.applyParams h job data
  if sw ∧ s.loadable h then
    let d := s.headDev h
    let s := s.setHeadDev h { d with trimGen := (d.trimGen + 1) % 16, trimLoad := none }
    s.ctlSend h ⟨4, lseq, 2⟩
  else if sw then s.reload h
  else s

/-- The items of a set that touch bar b take effect at the departure of line 0 of a job (R155, R161, R177). -/
def State.applyBar (s : State) (c : CommitSet) (b lseq job : Nat) : State :=
  let mine := c.items.filter (fun x => bitAt (keyBars x.key) b)
  let s := if mine.any (fun x => registersBar x.key b) then
      s.restartSettling b job (match s.job? job with | some j => j.psn | none => 0)
    else s
  mine.foldl (fun s x =>
    match waveBar x.key with
    | some w => s.applyWave w lseq job c.slips x.bytes
    | none =>
      match paramHead x.key with
      | some h => s.applyNozzles h lseq job x.bytes
      | none => s.setValue x.key x.bytes) s

/-- What binding has done so far at one departure: the state, the bars of earlier sets that have not bound, and the
nozzles whose STATUS the host writes at this boundary. -/
structure BindAcc where
  st : State
  held : Nat := 0
  host : List (Nat × Nat) := []

/-- One pending PAGE set at the departure of line 0 of a job on bar b. -/
def bindOne (b job lseq : Nat) (acc : BindAcc) (c : CommitSet) : BindAcc :=
  let s := acc.st
  let apply := fun (_ : Unit) =>
    let host := (c.items.filter (fun x => bitAt (keyBars x.key) b)).map (fun x =>
      match paramHead x.key with | some h => hostNozzles h x.bytes | none => [])
    let s := s.applyBar c b lseq job
    { acc with
      st := s.mapPending (fun d => if d.number = c.number then
        { d with boundJob := some job, doneBars := d.doneBars ||| 2 ^ b } else d)
      host := acc.host ++ host.flatten : BindAcc }
  match c.boundJob with
  | some j => if j = job ∧ !bitAt c.doneBars b then apply () else acc
  | none =>
    let leftElsewhere := (List.range 8).any (fun x => decide (x ≠ b) && bitAt c.bars x &&
      (s.job? job).any (fun j => decide (0 < (j.bar x).departed)))
    if lowBar c.bars ≠ b ∨ acc.held &&& c.bars ≠ 0 then { acc with held := acc.held ||| c.bars }
    else if c.state = 1 then
      let waves := c.items.filterMap (fun x => waveBar x.key)
      let s := waves.foldl (fun s w => s.count (Obj.WAVE_SLIP_CNT w) 1) (s.slipSet c.number)
      { acc with st := s, held := acc.held ||| c.bars }
    else if s.movesFar c.items c.bars ∧ !s.idleBut c.bars job then { acc with st := s.finishSet c.number 4 }
    else if leftElsewhere then { acc with held := acc.held ||| c.bars }
    else apply ()

/-- Bind and apply the pending PAGE sets at the departure of line 0 of a job on bar b. -/
def State.bindPage (s : State) (b job lseq : Nat) : State × List (Nat × Nat) :=
  let sets := s.toa.pending.filter (fun c => c.cls == 1 && bitAt c.bars b)
  let r := sets.foldl (bindOne b job lseq) { st := s }
  let moved := ((r.st.toa.pending.filter (fun c => c.boundJob == some job && bitAt c.doneBars b)).map
    (fun c => c.items.map (·.key))).flatten
  let psn := match s.job? job with | some j => j.psn | none => 0
  ((r.st.applyCorrections b job psn moved).startLoads.refreshSets, r.host)

/-- The page boundary of a job has come on bar b. -/
def State.passBoundary (s : State) (b job : Nat) : State :=
  s.mapPending (fun c => if c.boundJob = some job ∧ bitAt c.doneBars b then { c with passedBars := c.passedBars ||| 2 ^ b } else c)

/-- A job that loses its space on the web gives back the sets bound to it (R18). -/
def State.unbind (s : State) (job : Nat) : State :=
  s.mapPending (fun c => if c.boundJob = some job then { c with boundJob := none, doneBars := 0, passedBars := 0 } else c)

/-! ### FRAME class (R244, R269) -/

/-- Values of a FRAME set take effect; NIM_PRIMARIES counts as committed from then on (R250). -/
def State.applyFrame (s : State) (l : List Staged) : State :=
  let s := l.foldl (fun s x => s.setValue x.key x.bytes) s
  if l.any (fun x => x.key == Obj.NIM_PRIMARIES) then { s with nim := { s.nim with primaries := true } } else s

/-! ### COMMIT_TAKE_EFFECT, COMMIT_CANCEL -/

/-- The first job on the web whose check lines have not begun to pass the cameras. -/
def State.unseenJob (s : State) : Option Job :=
  s.hq.jobs.find? (fun j => j.onWeb && decide (0 < (j.bar 0).passed) && decide ((j.bar 0).checked = 0))

/-- COMMIT_TAKE_EFFECT: a PAGE set once its page boundary has passed on every bar it touches, an IDLE set under R19, a
FRAME set of Nimbus objects while no camera is in ACQUIRING at the next page. Other FRAME sets and LIST sets take effect
with their frames and lists. -/
def State.takeEffect (s : State) (number : Nat) : State :=
  match s.toa.pending.find? (fun c => c.number == number) with
  | none => s
  | some c =>
    if c.cls = 1 then if c.passedBars = c.bars ∧ c.boundJob.isSome then s.finishSet number 3 else s
    else if c.cls = 2 then s.idleSet c
    else if c.cls = 3 then
      if c.items.all (fun x => isNimbusKey x.key) ∧ !s.earlierOverlap c ∧
          (List.range 4).all (fun i => s.obj (Obj.CAM_STATE i) != 3) then
        match s.unseenJob with
        | none => s
        | some j =>
          let s := s.applyFrame c.items
          (s.mapPending (fun d => if d.number = number then { d with boundJob := some j.id } else d)).finishSet number 3
      else s
    else s

/-- A write of COMMIT_CANCEL (R333): the status of Table 14.3. A set that has taken effect on some bar is past its
completion point. -/
def State.cancelSet (s : State) (number : Nat) (super : Bool) : State × Nat :=
  match s.toa.pending.find? (fun c => c.number == number) with
  | some c =>
    if c.super ∧ !super then (s, 0x07)
    else if c.doneBars ≠ 0 ∨ c.doneCams ≠ 0 then (s, 0x0B)
    else (s.finishSet number 5, 0)
  | none =>
    match s.toa.history.find? (fun c => c.number == number) with
    | some c => (s, if c.state = 5 then 0x01 else 0x0B)
    | none => (s, 0x01)

def execCommitTakeEffect (number : Nat) (s : State) : Outcome := .next (s.takeEffect number)

end Sys2Proof.Machine
end

