-- ==== Sys2Proof/Machine/Firefly.lean ====
section
/-! DEFINITION. Firefly's line schedulers (chapter 06): where pages start (R142 to R147), departures (R137, R138, R140)
and aborts (R30, R31, R56, R57). -/

namespace Sys2Proof.Machine

/-! ### Where pages start -/

/-- S_{j,b}: the bar's own start, or the start on bar 0 (R146). -/
def Job.startOn (j : Job) (b : Nat) : Option Int :=
  match (j.bar b).start with
  | some x => some x
  | none => (j.bar 0).start

/-- The raster pitch a job's page is laid out with on a bar. -/
def State.pitchOf (s : State) (j : Job) (b : Nat) : Int :=
  match (j.bar b).snap with
  | some n => n.pitch
  | none => s.pitchR

/-- Jobs before a job in print order that occupy space on the web. -/
def State.before (s : State) (id : Nat) : List Job :=
  (s.hq.jobs.takeWhile (fun k => k.id ≠ id)).filter (fun k => k.onWeb)

/-- E_{(j-1),b}: the end on bar b of the last job that occupies space before a job, none before the first. -/
def State.prevEnd (s : State) (id b : Nat) : Option Int :=
  match ((s.before id).filter (fun k => (k.startOn b).isSome)).getLast? with
  | some k => (k.startOn b).map (fun st => st + (k.lines : Int) * s.pitchOf k b)
  | none => Tab.get none s.ffy.barEnd b

/-- A preceding job has lines left on bar 0 (R142). -/
def State.leftBefore (s : State) (id : Nat) : Bool := (s.before id).any (fun k => k.busyOn 0)

def msNs : Nat := 1000000

/-- Tpred(S + D_0) lies at least 2 ms ahead, or is HOLD (R142, R143). -/
def State.farEnough (s : State) (st : Int) : Bool :=
  match s.tpredQ (st + s.obj (Obj.FFY_BAR_OFFSET 0)) with
  | none => true
  | some t => decide (s.now + 2 * msNs ≤ t)

/-- Fix S_j of a job by position (R142, R143), never before the end of the page before it (R147). -/
def State.placeJob (s : State) (id : Nat) : State :=
  match s.job? id with
  | none => s
  | some j =>
    let here := s.ffy.hwm * 2 ^ 32 - s.obj (Obj.FFY_BAR_OFFSET 0)
    let gap := (j.gap : Int) * s.pitchR
    let left := s.leftBefore id
    let n := (match s.prevEnd id 0 with
      | some e => if left then e else max e here
      | none => here) + gap
    let k := leastNat (fun k => s.farEnough (n + (k : Int) * s.pitchR)) 24 0
    let s := s.mapJob id (fun j => j.setBar 0 (fun x => { x with start := some (n + (k : Int) * s.pitchR) }))
    if 0 < k ∧ left then
      (s.event (24 + j.cls) 0x0604 [(12, 4, id), (16, 4, k)]).count (Obj.FFY_LATE_START_CNT 0) 1
    else s

/-- A job waits for a mark on bar 0 (R144). -/
def State.markMode (s : State) (j : Job) : Bool := j.mark && s.obj (Obj.FFY_TOF_SEL 0) != 0xFF

/-- JOB_STAGED (Table 2.12, R49, R142): every earlier job in print order is FIRING on the bar or done with it, and no
other is STAGED there. After a step none is STAGED until every head in service has reported TIME_LOCK again (R296). -/
def State.stageJob (s : State) (b id : Nat) : State :=
  match s.job? id with
  | none => s
  | some j =>
    let earlier := s.hq.jobs.takeWhile (fun k => k.id ≠ id)
    let free := earlier.all (fun k => (k.bar b).firing || (k.bar b).done || k.st == .aborted)
    let taken := s.hq.jobs.any (fun k => (k.bar b).staged)
    let x := j.bar b
    if (j.st = .accepted ∨ j.st = .fired) ∧ free ∧ !taken ∧ !x.staged ∧ !x.firing ∧ !x.done ∧
        s.time.stepHeads.all (fun h => !s.inService h) then
      let s := (s.mapJob id (fun j => j.setBar b (fun x => { x with staged := true }))).readyReturn
      if b = 0 ∧ !s.markMode j then s.placeJob id else s
    else s

/-! ### Departure conditions (R137) -/

/-- Row offsets of a bar's heads by position: rows A and B. -/
def State.rowOffsets (s : State) (b : Nat) : List (Int × Int) :=
  (barHeads b).map (fun h => (s.obj (Obj.FFY_ROW_OFFSET_A h), s.obj (Obj.FFY_ROW_OFFSET_B h)))

/-- The settings a page takes when its line 0 departs (R155). -/
def State.snapNow (s : State) (b method : Nat) : Snap :=
  { pitch := s.pitchR, offset := s.obj (Obj.FFY_BAR_OFFSET b), flight := s.objN (Obj.FFY_FLIGHT_NS b),
    rows := s.rowOffsets b, method := method
    stitch := s.blob (Obj.LCW_STITCH_MASK b) 0 1920 }

/-- The settings of a job's page on a bar: fixed at its line 0, the present ones before. -/
def State.snapOf (s : State) (j : Job) (b : Nat) : Snap :=
  match (j.bar b).snap with
  | some n => n
  | none => s.snapNow b 0

/-- T_min of a line of a job on a bar with a given start: the earliest of its row fire times, none for HOLD. -/
def State.tMin (s : State) (n : Snap) (start : Int) (line : Nat) : Option Nat :=
  let e := n.rows.foldl (fun (m : Int) r => min m (min r.1 r.2)) (match n.rows with | r :: _ => r.1 | [] => 0)
  s.fireAt (n.pos start line e) (n.flight + s.sigma)

/-- The departure condition of a line holds. -/
def State.departDue (s : State) (n : Snap) (start : Int) (line : Nat) : Bool :=
  match s.tMin n start line with
  | none => false
  | some t =>
    decide (((t : Rat) - (s.now : Rat)) ≤
      (s.objN Obj.FFY_LINE_LEAD : Rat) * s.period + (s.objN Obj.FFY_LINK_GUARD : Rat))

/-! ### Marks (R144 to R146) -/

/-- A mark at web position m (Q32) on a top-of-form input reaches bar 0. -/
def State.markBar0 (s : State) (t : Nat) (m : Int) : State :=
  if s.obj (Obj.FFY_TOF_SEL 0) ≠ (t : Int) then s
  else
    let st := m + s.obj (Obj.FFY_TOF_OFFSET 0)
    let skip := s.count (Obj.FFY_MARK_SKIP_CNT 0) 1
    match s.hq.jobs.find? (fun j => j.mark && (j.bar 0).staged) with
    | none => skip
    | some j =>
      let after : Bool := match s.prevEnd j.id 0 with
        | some e => decide (e + (j.gap : Int) * s.pitchR ≤ st)
        | none => true
      if (j.bar 0).start.isNone ∧ after ∧ !s.departDue (s.snapOf j 0) st 0 then
        s.mapJob j.id (fun j => j.setBar 0 (fun x => { x with start := some st }))
      else skip

/-- A mark reaches a bar b >= 1 (R146). -/
def State.markBar (s : State) (t : Nat) (m : Int) (b : Nat) : State :=
  if s.obj (Obj.FFY_TOF_SEL b) ≠ (t : Int) then s
  else
    let own := m + s.obj (Obj.FFY_TOF_OFFSET b)
    match s.hq.jobs.find? (fun j => s.markMode j && j.st == .accepted && j.onWeb && (j.bar 0).start.isSome &&
        (j.bar b).start.isNone && decide ((j.bar b).departed = 0)) with
    | none => s
    | some j =>
      match (j.bar 0).start with
      | none => s
      | some st =>
        let near := decide (((own - st).natAbs : Int) ≤ s.obj (Obj.FFY_MARK_WINDOW b) * 2 ^ 32)
        let after : Bool := match s.prevEnd j.id b with
          | some e => decide (e ≤ own)
          | none => true
        if near ∧ after ∧ !s.departDue (s.snapOf j b) st 0 then
          s.mapJob j.id (fun j => j.setBar b (fun x => { x with start := some own }))
        else s

/-- An accepted mark, or an expected one (R115), reaches Firefly. -/
def State.useMark (s : State) (t : Nat) (m : Int) : State :=
  (List.range 7).foldl (fun s i => s.markBar t m (i + 1)) (s.markBar0 t m)

/-! ### Departures -/

/-- The job whose line departs next on a bar. -/
def State.departJob (s : State) (b : Nat) : Option Job :=
  match s.hq.jobs.find? (fun j => j.onWeb && (j.st == .accepted || j.st == .fired) && decide ((j.bar b).departed < j.lines)) with
  | some j => if (j.bar b).staged || (j.bar b).firing then some j else none
  | none => none

/-- Some bar is FIRING or holds departed lines (R412). -/
def State.barActive (s : State) : Bool :=
  (List.range 8).any (fun b => (s.firingJob b).isSome || !(s.departed b).isEmpty)

/-- The condition of SF4 ends once no bar is active (R412). -/
def State.sf4End (s : State) : State := if s.barActive then s else (s.condEnd 0x1406 0).condEnd 0x1406 1

/-- SERVICE to the heads of a bar that are READY, at line 0 of a job (R209). -/
def State.sendService (s : State) (b lseq job : Nat) : State :=
  (barHeads b).foldl (fun s h =>
    let d := s.headDev h
    if s.obj (Obj.HL_STATE h) = 4 ∧ d.service.isNone then
      (s.setHeadDev h { d with service := some (lseq, job) }).ctlSend h ⟨5, lseq, 0⟩
    else s) s

/-- HEAD_HOT: named page line and head; the page is marked and counted (R153). -/
def State.headHot (s : State) (h job line : Nat) : State :=
  let s := s.event (s.jobRing job) 0x0603
    [(12, 4, job), (16, 1, h), (18, 2, line), (20, 2, bitsOf 16 (s.obj (Obj.HL_TEMP h)))]
  (s.markJob job markThermal).count (Obj.FFY_HOT_CNT h) 1

/-- HOT heads at line 0 of a page: cleared when cool enough, HOT for the page otherwise (R154). -/
def State.hotAtLine0 (s : State) (b lseq job : Nat) : State :=
  (barHeads b).foldl (fun s h =>
    if s.obj (Obj.FFY_HOT_STATE h) = 1 ∧ s.serving h then
      if s.obj (Obj.HL_TEMP h) ≤ s.obj (Obj.FFY_HOT_LIMIT h) - s.obj (Obj.FFY_HOT_HYST h) then
        let s := s.setHeadDev h { s.headDev h with clearLseq := some lseq }
        (s.setObj (Obj.FFY_HOT_STATE h) 0).ctlSend h ⟨3, lseq, 0⟩
      else s.headHot h job 0
    else s) s

/-- What happens at the departure of line 0 of a job's page on a bar before its data is built: bound sets, defect
changes, heads entering service, HOT heads, probes, the page's method, and the bar's release after a safety reaction. -/
def State.departPage (s : State) (b lseq : Nat) (j : Job) : State :=
  let r := s.bindPage b j.id lseq
  let s := r.1.takeDead b r.2
  let s := s.sendService b lseq j.id
  let s := s.hotAtLine0 b lseq j.id
  let s := s.startProbes b j.id
  let m := s.fixMethod b j.id
  let s := m.1
  let s := if s.hvHeld b then s else
    { s with halo := { s.halo with blankBars := s.halo.blankBars.filter (fun x => x ≠ b) } }
  let s := match (j.bar b).start, (j.bar 0).start with
    | none, some st =>
      let s := s.mapJob j.id (fun j => j.setBar b (fun x => { x with start := some st }))
      if s.markMode j ∧ 0 < b ∧ s.obj (Obj.FFY_TOF_SEL b) ≠ 0xFF then
        (s.event (24 + j.cls) 0x0605 [(12, 4, j.id), (16, 1, b)]).count (Obj.FFY_MARK_FALLBACK_CNT b) 1
      else s
    | _, _ => s
  let n := s.snapNow b m.2
  s.mapJob j.id (fun j => j.setBar b (fun x => { x with snap := some n }))

/-- Row fire times of a line at its departure: raised to the guard (R138) and spaced from the line before (R140). The
flags say a row was raised, and a row was moved by the spacing. -/
def State.rowTimes (s : State) (n : Snap) (start : Int) (line h : Nat) (prev : Option Nat × Option Nat) :
    RowTimes × Bool × Bool :=
  let e := n.rows.getD (h % 16) (0, 0)
  let least := s.now + s.objN Obj.FFY_LINK_GUARD
  let one := fun (off : Int) (pv : Option Nat) =>
    let t := s.fireAt (n.pos start line off) (n.flight + s.sigma)
    let u := t.map (fun t => max t least)
    let v := spaced pv u
    (v, u != t, v != u)
  let a := one e.1 prev.1
  let b := one e.2 prev.2
  ({ head := h, tA := a.1, tB := b.1 }, a.2.1 || b.2.1, a.2.2 || b.2.2)

/-- Row times of the last line departed on a bar, by position. -/
def State.prevRows (s : State) (b : Nat) : List (Option Nat × Option Nat) :=
  match (s.departed b).getLast? with
  | some d => d.byPos
  | none => (List.range 16).map (fun p =>
      (Tab.get none s.ffy.lastRow (2 * headOf b p), Tab.get none s.ffy.lastRow (2 * headOf b p + 1)))

/-- The composed dots of a line in the lead buffer, taken from it with every earlier line. -/
def State.takeLead (s : State) (b job line : Nat) : State × Option DecLine × Nat :=
  let lane := s.fireLane b
  let x := lane.buf.find? (fun x => x.job == job && x.line == line)
  let rest := lane.buf.filter (fun x => !(x.job == job && decide (x.line ≤ line)))
  (s.setFireLane b { lane with buf := rest }, x, rest.length)

/-- A line that is not composed at its departure (R13, R86). -/
def State.lateLine (s : State) (b : Nat) (j : Job) (line : Nat) : State :=
  let s := s.count (Obj.SCB_LATE_LINES b) 1
  let s := if (j.bar b).lateRaised then s else s.event (24 + j.cls) 0x0304 [(12, 4, j.id), (16, 1, b), (18, 2, line)]
  let s := s.mapJob j.id (fun j => { j.setBar b (fun x => { x with late := x.late + 1, lateRaised := true }) with
    marks := j.marks ||| markLate })
  { s with lcw := { s.lcw with lateLines := s.lcw.lateLines ++ [(j.id, b, line)] } }

/-- The frames of a departing line for one head (R188). -/
def State.sendLine (s : State) (lseq line : Nat) (v : Array Nat) (r : RowTimes) : State :=
  let s := s.hlTx r.head 2 (fireTimeBody lseq r.head 3 (s.encodeFt r.tA) (s.encodeFt r.tB))
  let dots := if v.isEmpty then zeros 2048 else packDots v (r.head % 16)
  s.hlTx r.head 1 (s.lineData r.head lseq line dots)

/-- SCB_LEAD_MIN. -/
def State.leadMin (s : State) (b lead : Nat) : State :=
  if (lead : Int) < s.obj (Obj.SCB_LEAD_MIN b) then s.setObj (Obj.SCB_LEAD_MIN b) (lead : Nat) else s

/-- Line `line` of a job departs on a bar. `send` is false on a standby, which builds the line and sends nothing
(R426). -/
def State.departLine (s : State) (b : Nat) (j : Job) (line : Nat) (send : Bool) : State :=
  let lseq := s.nextLseq b
  let active := s.barActive
  let s := if line = 0 then s.departPage b lseq j else s
  let j := (s.job? j.id).getD j
  let n := s.snapOf j b
  let start := (j.startOn b).getD 0
  let x := s.takeLead b j.id line
  let s := x.1.leadMin b x.2.2
  let s := if x.2.1.isNone ∧ s.barPrints j b then s.lateLine b j line else s
  let blanked := s.hvHeld b || s.halo.blankBars.contains b || !s.barPrints j b
  let dots := match x.2.1 with
    | some d => if blanked then [] else d.dots
    | none => []
  let r := s.buildLine b j.id line n.method dots send
  let s := r.1
  let prev := s.prevRows b
  let rows := ((barHeads b).filter s.serving).map (fun h => s.rowTimes n start line h (prev.getD (h % 16) (none, none)))
  let s := if rows.any (·.2.1) then s.count Obj.FFY_CLAMP_CNT 1 else s
  let tooFast := rows.any (·.2.2)
  let s := if tooFast then s.count Obj.FFY_OVERSPEED_CNT 1 else s
  let s := if tooFast ∧ !j.overspeed then
      (s.event (24 + j.cls) 0x0606 [(12, 4, j.id), (16, 1, b), (18, 2, line)]).mapJob j.id
        (fun j => { j with overspeed := true })
    else s
  let d : Departed :=
    { lseq := lseq, job := j.id, line := line, late := x.2.1.isNone,
      barTime := s.fireAt (n.pos start line 0) n.flight, rows := rows.map (·.1), vals := if send then [] else r.2.toList }
  let s := if send then d.rows.foldl (fun s t => s.sendLine lseq line r.2 t) s else s
  let s := if send then (barHeads b).foldl State.sendAuth s else s
  let s := s.setDeparted b (s.departed b ++ [d])
  let s := { s with ffy := { s.ffy with lseq := Tab.set 0 s.ffy.lseq b ((lseq + 1) % 2 ^ 32) } }
  let s := s.mapJob j.id (fun j => j.setBar b (fun x => { x with departed := x.departed + 1 }))
  let s := if active then s else { s with halo := { s.halo with webActiveSince := s.now } }
  s.forward (.marker b lseq j.id line)

/-- LINE_DEPART (R137): the departure condition of the next line of a bar holds. -/
def State.depart (s : State) (b : Nat) : State :=
  if !s.hasAuthority || !s.ffy.track || s.ffy.suspended || !s.ready (4 + b / 2) || !s.ready 11 then s
  else
    match s.departJob b with
    | none => s
    | some j =>
      match j.startOn b with
      | none => s
      | some st =>
        let line := (j.bar b).departed
        if s.departDue (s.snapOf j b) st line then s.departLine b j line true else s

/-! ### Aborts (R30, R31, R56, R57, R147) -/

/-- A departed line on HOLD: its bar fire time or a row fire time is HOLD. -/
def Departed.onHold (d : Departed) : Bool := d.barTime.isNone || d.rows.any (fun r => r.tA.isNone || r.tB.isNone)

/-- Cancel the departed lines of a job that are on HOLD on one bar. -/
def State.cancelHeld (s : State) (id b : Nat) : State :=
  let l := s.departed b
  let held := l.filter (fun d => d.job == id && d.onHold)
  let s := held.foldl (fun s d => d.rows.foldl (fun s r =>
    s.hlTx r.head 2 (fireTimeBody d.lseq r.head 7 ftCancel ftCancel)) s) s
  s.setDeparted b (l.filter (fun d => !(d.job == id && d.onHold)))

/-- Lines of a job that have fired or will fire on a bar, for FIRE_DONE. -/
def State.firedLines (s : State) (j : Job) (b : Nat) : Nat :=
  if s.barPrints j b then (j.bar b).fired + ((s.departed b).filter (fun d => d.job == j.id)).length else 0

/-- FIRE_DONE, posted and journaled. -/
def State.fireDone (s : State) (j : Job) (status : Nat) : State :=
  let r := s.completion 2 j.marks status 0 j.id ((List.range 8).map (fun b => min (s.firedLines j b) 0xFFFF))
  (s.journal 4 r).complete j.cls r

/-- Abort a page job: the status of the write. -/
def State.abortJob (s : State) (id : Nat) : State × Nat :=
  match s.job? id with
  | none => (s, 0x01)
  | some j =>
    if j.st = .fired ∨ j.st = .aborted then (s, 0x0B)
    else
      let landing := j.st = .landing
      let keeps := decide (0 < (j.bar 0).passed)
      let s := (List.range 8).foldl (fun s b => s.cancelHeld id b) s
      let s := s.mapJob id (fun j => { j with
        st := .aborted, onWeb := keeps,
        bars := j.bars.map (fun x => { x with staged := false, firing := false }) })
      let s := s.dropLead id
      let s := if keeps then s else s.unbind id
      let s := s.fireDone ((s.job? id).getD j) 1
      let s := if landing then (s.decideAccept id none).dropStreams false id else s
      (s.sf4End, 0)

/-- HQ_ABORT (R56, Table 2.6): outcomes other than an abort are answered by ABORT_RESULT. -/
def State.hqAbort (s : State) (id : Nat) : State :=
  let cls := match s.job? id with | some j => j.cls | none => 0
  let r := s.abortJob id
  if r.2 = 0 then r.1.forward (.objWrite Obj.JOB_ABORT (le 4 id))
  else if r.2 = 0x0B then r.1.complete cls (r.1.completion 5 0 2 0 id [])
  else r.1.complete 0 (r.1.completion 5 0 3 1 id [])

/-! ### Resumption (R150, R413) -/

/-- A fault holds firing suspended: one of SF4 or SF5 is latched (R413). -/
def State.firingHeld (s : State) : Bool :=
  s.halo.faults.any (fun f => faultSf f.code == 4 || faultSf f.code == 5)

/-- Resume firing once the predictor is in TRACK, the faults that suspended it are cleared and, in resume mode 1, the
host has written FFY_RESUME. -/
def State.tryResume (s : State) : State :=
  let f := s.ffy
  if !f.suspended || !f.track || (f.susSafety && s.firingHeld) || (s.obj Obj.FFY_RESUME_MODE == 1 && !f.resumed) then s
  else
    let s := { s with ffy := { f with susDir := false, susSafety := false, resumed := false } }
    (s.event 24 0x0602 [(16, 8, bitsOf 64 s.ffy.hwm)]).resendAll false

/-- A write of FFY_RESUME (R150). -/
def State.resume (s : State) : State :=
  if s.ffy.suspended then ({ s with ffy := { s.ffy with resumed := true } }).tryResume else s

def execJobStaged (b : Bar) (id : Nat) (s : State) : Outcome := .next (s.stageJob b.val id)
def execLineDepart (b : Bar) (s : State) : Outcome := .next (s.depart b.val)
def execHqAbort (id : BitVec 32) (s : State) : Outcome :=
  .next (s.onBar 3 0x200000 0 (fun s => s.hqAbort id.toNat))

end Sys2Proof.Machine
end

