-- ==== Sys2Proof/Machine/Boundary.lean ====
section
/-! DEFINITION. Line boundaries (R15 to R18, R31): what the fire time of a line on a bar does to its job. -/

namespace Sys2Proof.Machine

/-- The row fire times a line leaves behind for the spacing of the next one (R140). -/
def State.keepRows (s : State) (d : Departed) : State :=
  d.rows.foldl (fun s r => { s with ffy := { s.ffy with
    lastRow := Tab.set none (Tab.set none s.ffy.lastRow (2 * r.head) r.tA) (2 * r.head + 1) r.tB } }) s

/-- The page boundary of a job on a bar (R15): FIRING begins for a job that is not aborted. -/
def State.pageBoundary (s : State) (j : Job) (b : Nat) : State :=
  let live := decide (j.st ≠ .aborted)
  let s := if s.sf1On b ∧ live then s.markJob j.id markThermal else s
  let s := s.mapJob j.id (fun j => j.setBar b (fun x => { x with staged := false, firing := live }))
  let s := match j.startOn b with
    | some st => if !j.onWeb then s else { s with ffy := { s.ffy with
        barEnd := Tab.set none s.ffy.barEnd b (some (st + (j.lines : Int) * s.pitchOf j b)) } }
    | none => s
  s.passBoundary b j.id

/-- A job has passed its last boundary on a bar; with the last bar it is FIRED, unless it was aborted (R31). -/
def State.barDone (s : State) (id b : Nat) : State :=
  let s := s.mapJob id (fun j => j.setBar b (fun x => { x with firing := false, done := true }))
  match s.job? id with
  | none => s
  | some j =>
    let m := (j.bar b).fire
    let s := s.forward (.summary id b m.blanked (m.errs.map (fun e => (e.code, e.chunk, e.first, e.last))))
    let s := s.summaryCheck id b
    if j.st = .accepted ∧ j.bars.all (·.done) then
      let s := s.mapJob id (fun j => { j with st := .fired })
      s.fireDone j 0
    else s

/-- The boundary of line `line` of a job on a bar; `fires` says the line fires there. -/
def State.passLine (s : State) (id b line : Nat) (fires : Bool) : State :=
  match s.job? id with
  | none => s
  | some j =>
    let s := if line = 0 then s.pageBoundary j b else s
    let s := if fires ∧ s.barPrints j b then
        let s := (s.mapJob id (fun j => j.setBar b (fun x => { x with fired := x.fired + 1 }))).count (Obj.BAR_LINES b) 1
        s.fireSummary j b line
      else s
    let s := (s.mapJob id (fun j => j.setBar b (fun x => { x with passed := x.passed + 1 }))).stepBarPhases b
    if line + 1 = j.lines then s.barDone id b else s

/-- Bar fire time of a line that an aborted job keeps on a bar (R15). -/
def State.virtualTime (s : State) (j : Job) (b line : Nat) : Option Nat :=
  let n := s.snapOf j b
  match j.startOn b with
  | some st => s.fireAt (n.pos st line 0) n.flight
  | none => none

/-- LINE_BOUNDARY: the bar fire time of the next line of a bar has come. -/
def State.lineBoundary (s : State) (b : Nat) : State :=
  let l := s.departed b
  let ghost := s.hq.jobs.find? (fun j => j.st == .aborted && j.onWeb && decide ((j.bar b).passed < j.lines))
  let earlier := fun (a c : Nat) => (s.hq.jobs.takeWhile (fun k => k.id ≠ c)).any (fun k => k.id == a)
  let takeDeparted := fun (d : Departed) (t : List Departed) =>
    match d.barTime with
    | none => s
    | some u =>
      if s.now < u then s
      else ((((s.keepRows d).setDeparted b t).passLine d.job b d.line true)).sf4End
  let takeGhost := fun (j : Job) =>
    let line := (j.bar b).passed
    match s.virtualTime j b line with
    | none => s
    | some u =>
      if s.now < u then s
      else
        let s := if line = 0 then (s.bindPage b j.id (s.nextLseq b)).1 else s
        (s.passLine j.id b line false).sf4End
  match l, ghost with
  | d :: t, none => takeDeparted d t
  | d :: t, some j => if earlier j.id d.job then takeGhost j else takeDeparted d t
  | [], some j => takeGhost j
  | [], none => s

def execLineBoundary (b : Bar) (s : State) : Outcome := .next (s.lineBoundary b.val)

end Sys2Proof.Machine
end

