-- ==== Sys2Proof/Machine/Web.lean ====
section
/-! DEFINITION. Web and axis feedback (chapter 05): counting channels, direction and speed, the index, the web position,
top-of-form marks and compare outputs. Positions are unwrapped; marks and origins are Q32 or 2^-16 count as their rules
say. -/

namespace Sys2Proof.Machine

/-- Where a counting channel keeps its registers: a web channel or an axis in quadrature mode. -/
structure ChanKeys where
  status : Nat
  speed : Nat
  speedEdges : Nat
  filter : Nat
  fallback : Bool
  irq : Option (Nat × Nat)
  name : Nat
  illegalCnt : Nat
  doubleCnt : Nat

def State.webKeys (s : State) (w : Nat) : ChanKeys :=
  { status := Obj.ENC_STATUS w, speed := Obj.ENC_SPEED w, speedEdges := s.objN (Obj.ENC_SPEED_EDGES w),
    filter := if s.obj (Obj.ENC_PATH w) = 1 then 0 else s.objN (Obj.ENC_FILTER w),
    fallback := s.obj (Obj.ENC_PATH w) == 1,
    irq := some (Obj.ENC_IRQ_MASK w, Obj.ENC_IRQ_VEC w), name := w,
    illegalCnt := Obj.ENC_ILLEGAL_CNT w, doubleCnt := Obj.ENC_DOUBLE_CNT w }

def State.axisKeys (s : State) (x : Nat) : ChanKeys :=
  { status := Obj.AXE_STATUS x, speed := Obj.AXE_SPEED x, speedEdges := 16, filter := s.objN (Obj.AXE_FILTER x),
    fallback := false, irq := none, name := 0x10 + x, illegalCnt := Obj.AXE_ERR_CNT x, doubleCnt := Obj.AXE_ERR_CNT x }

/-- Set the status of a channel; the vector fires for a bit enabled in the mask that goes from 0 to 1 (R105). -/
def State.setStatus (s : State) (k : ChanKeys) (v : Nat) : State :=
  let old := s.objN k.status
  let s := s.setObj k.status (v : Nat)
  match k.irq with
  | none => s
  | some (m, vec) =>
    let rise := (List.range 32).any (fun i => bitAt v i && !bitAt old i && s.objBit m i)
    if rise then s.msix (s.objN vec) else s

/-- Web channels and axes are kept alike. -/
inductive ChanId
  | web (w : Nat)
  | axis (x : Nat)
  deriving DecidableEq, Repr

def State.chan (s : State) : ChanId → Chan
  | .web w => Tab.get {} s.web.chans w
  | .axis x => Tab.get {} s.web.axes x

def State.setChan (s : State) (i : ChanId) (c : Chan) : State :=
  match i with
  | .web w => { s with web := { s.web with chans := Tab.set {} s.web.chans w c } }
  | .axis x => { s with web := { s.web with axes := Tab.set {} s.web.axes x c } }

def State.chanKeys (s : State) : ChanId → ChanKeys
  | .web w => s.webKeys w
  | .axis x => s.axisKeys x

def bDir : Nat := 0
def bSelected : Nat := 1
def bStandstill : Nat := 2
def bPending : Nat := 3
def bReversing : Nat := 4
def bIndexSeen : Nat := 7
def bDirChg : Nat := 28
def bIndexMiss : Nat := 29
def bDouble : Nat := 30
def bIllegal : Nat := 31

/-- ENC_SPEED from the edges since the last standstill or reversal (R106), rounded toward zero. Two edges on one stamp
leave the speed open: a free value. -/
def State.edgeSpeed (s : State) (n : Nat) (edges : List (Int × Nat)) : State × Int :=
  match edges.head?, edges[min (n - 1) (edges.length - 1)]? with
  | some (p1, t1), some (p0, t0) =>
    if edges.length < 2 then (s, 0)
    else if t1 ≤ t0 then let x := s.drawInt; (x.2, x.1)
    else (s, Int.tdiv ((p1 - p0) * 1000000000) ((t1 : Int) - (t0 : Int)))
  | _, _ => (s, 0)

/-- One accepted edge of a channel (R96, R105 to R109). -/
def State.chanEdge (s : State) (i : ChanId) (fwd : Bool) (t : Nat) : State :=
  let k := s.chanKeys i
  let c := s.chan i
  let st := s.objN k.status
  let still := bitAt st bStandstill
  let turn := fwd != c.fwd
  let run := if still || turn then 1 else c.run + 1
  let pos := if fwd then c.pos + 1 else c.pos - 1
  let edges := if still || turn then [(pos, t)] else ((pos, t) :: c.edges).take 256
  let pending := still || (bitAt st bPending && decide (run < 2))
  let reversing := turn || (bitAt st bReversing && decide (run < 2))
  let chg := fwd != bitAt st bDir
  let st := putBit st bDir fwd
  let st := if chg then putBit st bDirChg true else st
  let st := putBit (putBit (putBit st bStandstill false) bPending pending) bReversing reversing
  let x := if pending || reversing then (s, 0) else s.edgeSpeed k.speedEdges edges
  let s := x.1
  let s := s.setChan i { c with pos := pos, any := true, fwd := fwd, lastNs := s.now, edges := edges, run := run }
  (s.setObj k.speed x.2).setStatus k st

/-! ### Compare outputs (R117 to R121) -/

def State.cmp (s : State) (k : Nat) : Cmp := Tab.get {} s.web.cmps k

def State.setCmp (s : State) (k : Nat) (c : Cmp) : State :=
  { s with web := { s.web with cmps := Tab.set {} s.web.cmps k c } }

/-- Position of the source of an output, counts (R117). -/
def State.cmpSource (s : State) (k : Nat) : Int :=
  let src := s.objN (Obj.CMP_SOURCE k)
  if src = 0 then s.web.pos else (s.chan (.axis (src - 0x10))).pos

def State.listLen (s : State) (k : Nat) : Nat := s.blobLen (Obj.CMP_LIST k) / 8

/-- A list entry: ACT and STEP in 2^-16 count (Table 5.6). -/
def State.listEntry (s : State) (k i : Nat) : Nat × Nat :=
  let w := s.blobN (Obj.CMP_LIST k) (8 * i) 8
  (field w 62 2, field w 0 48)

/-- The first pending LIST set that holds the list of output k takes effect there (R121); the set ends with its last
output. -/
def State.takeList (s : State) (k : Nat) : State :=
  match s.toa.pending.find? (fun c => c.cls == 4 && bitAt c.outs k && !bitAt c.doneBars k) with
  | none => s
  | some c =>
    let s := (c.items.filter (fun x => x.key == Obj.CMP_LIST k)).foldl (fun s x => s.setValue x.key x.bytes) s
    let done := c.doneBars ||| 2 ^ k
    let s := s.mapPending (fun d => if d.number = c.number then { d with doneBars := done } else d)
    if done = c.outs then s.finishSet c.number 3 else s

/-- What passing targets up to a position has done: the output, the state, targets passed and the last ACT. -/
structure CmpWalk where
  st : State
  c : Cmp
  passed : Nat := 0
  act : Nat := 0

/-- The list moves past every entry whose target the source has reached. -/
def cmpWalk (k : Nat) (p16 : Int) : Nat → CmpWalk → CmpWalk
  | 0, w => w
  | fuel + 1, w =>
    if !w.c.armed then w
    else
      let e := w.st.listEntry k w.c.entry
      let target := w.c.last + (e.2 : Int)
      if p16 < target then w
      else
        let c := { w.c with last := target, entry := w.c.entry + 1 }
        let x : CmpWalk :=
          if c.entry < w.st.listLen k then { w with c := c }
          else
            let s := w.st.takeList k
            if bitAt (s.objN (Obj.CMP_MODE k)) 0 then { w with st := s, c := { c with entry := 0 } }
            else { w with st := s, c := { c with entry := 0, armed := false } }
        cmpWalk k p16 fuel { x with passed := w.passed + 1, act := e.1 }

/-- Entries the walk may take: those the distance admits, and one pass of a list whose steps are all zero. -/
def State.cmpFuel (s : State) (k : Nat) (p16 last : Int) : Nat :=
  let n := s.listLen k
  let total := ((List.range n).map (fun i => (s.listEntry k i).2)).foldl (· + ·) 0
  if total = 0 then n else n * ((p16 - last).toNat / total + 2)

/-- CMP_TARGET (R119, R120): the count that reached a target acts. -/
def State.cmpAct (s : State) (k : Nat) : State :=
  let c := s.cmp k
  match c.due with
  | none => s
  | some p16 =>
    let w := cmpWalk k p16 (s.cmpFuel k p16 c.last) { st := s, c := { c with due := none } }
    let s := w.st
    let c := w.c
    let s := if c.armed then s else s.setObj (Obj.CMP_ARM k) 0
    let s := if w.passed = 0 then s else s.forward (.cmpEntry k c.entry)
    if w.passed = 0 then s.setCmp k c
    else
      let skipped := w.passed - 1
      let first := decide (0 < skipped) && decide (s.objN (Obj.CMP_MISSED_CNT k) = 0)
      let s := s.count (Obj.CMP_MISSED_CNT k) skipped
      let s := if first then s.event 24 0x0507 [(12, 1, k), (16, 4, skipped)] else s
      if w.act = 1 then
        let s := if c.active ∧ c.pulseEnd.isSome then s.count (Obj.CMP_OVERLAP_CNT k) 1 else s
        s.setCmp k { c with active := true, pulseEnd := some (s.now + s.objN (Obj.CMP_WIDTH k)) }
      else if w.act = 2 then s.setCmp k { c with active := true, pulseEnd := none }
      else if w.act = 3 then s.setCmp k { c with active := false, pulseEnd := none }
      else s.setCmp k c

/-- A forward count of a source brings it to a position: an output whose target it reaches is due to act. -/
def State.cmpForward (s : State) (src : Nat) (pos : Int) : State :=
  (List.range 16).foldl (fun s k =>
    if s.objN (Obj.CMP_SOURCE k) ≠ src then s
    else
      let s := s.cmpAct k
      let c := s.cmp k
      if c.armed ∧ c.last + ((s.listEntry k c.entry).2 : Int) ≤ pos * 65536 then
        s.setCmp k { c with due := some (pos * 65536) }
      else s) s

/-- The unwrapped position nearest a source that a 64-bit position names. -/
def nearest64 (src : Int) (v : Nat) : Int := src + sext 64 (bitsOf 64 ((v : Int) - src))

/-- CMP_ARM (R117). -/
def State.cmpArm (s : State) (k v : Nat) : State :=
  let s := s.setObj (Obj.CMP_ARM k) (v : Nat)
  let c := s.cmp k
  if v = 0 then s.setCmp k { c with armed := false, waitMark := false, due := none }
  else
    let s := s.takeList k
    if v = 1 then
      s.setCmp k { c with
        armed := true, waitMark := false, entry := 0, due := none
        last := nearest64 (s.cmpSource k) (s.objN (Obj.CMP_START k)) * 65536 }
    else s.setCmp k { c with armed := false, waitMark := true, entry := 0, due := none }

/-- An accepted mark gives the origin to the outputs that wait for it, CMP_START added as a signed offset. -/
def State.cmpMark (s : State) (t : Nat) (m : Int) : State :=
  (List.range 16).foldl (fun s k =>
    let c := s.cmp k
    if c.waitMark ∧ s.objN (Obj.CMP_TOF k) = t then
      s.setCmp k { c with
        armed := true, waitMark := false, last := m / 65536 + sext 64 (s.objN (Obj.CMP_START k)) * 65536 }
    else s) s

/-- CMP_PULSE_END (R120). -/
def State.pulseEnd (s : State) (k : Nat) : State :=
  let c := s.cmp k
  match c.pulseEnd with
  | some t => if t ≤ s.now then s.setCmp k { c with active := false, pulseEnd := none } else s
  | none => s

/-- The level of a compare output. -/
def State.cmpLevel (s : State) (k : Nat) : Bool := (s.cmp k).active != bitAt (s.objN (Obj.CMP_MODE k)) 1

/-! ### Top-of-form marks (R114, R115) -/

def State.tof (s : State) (t : Nat) : Tof := Tab.get {} s.web.tofs t

def State.setTof (s : State) (t : Nat) (x : Tof) : State :=
  { s with web := { s.web with tofs := Tab.set {} s.web.tofs t x } }

/-- A mark at position m (Q32) with its stamp is latched: rejected by gap or pitch, or accepted. -/
def State.latchMark (s : State) (t : Nat) (m : Int) (stamp : Nat) : State :=
  let x := s.tof t
  let q := fun (k : Nat) => s.obj k * 2 ^ 32
  let tooNear : Bool := match x.lastAcc with
    | some a => decide (m < a + q (Obj.TOF_MIN_GAP t))
    | none => false
  let outside := s.obj (Obj.TOF_PITCH t) != 0 &&
    (match x.ref with
     | some r => decide (q (Obj.TOF_TOL t) < ((m - (r + q (Obj.TOF_PITCH t))).natAbs : Int))
     | none => false)
  if tooNear ∨ outside then s.count (Obj.TOF_REJECT_CNT t) 1
  else
    let s := s.setTof t { x with lastAcc := some m, ref := some m }
    let s := (s.setObj (Obj.TOF_POS t) (sext 64 (bitsOf 64 m))).setObj (Obj.TOF_STAMP t) ((stamp % 2 ^ 32 : Nat) : Int)
    (s.useMark t m).cmpMark t m

/-- Latch every pending mark: interpolated at the next forward edge, or at p0 (R114). -/
def State.latchPending (s : State) (next : Option (Int × Nat)) : State :=
  (List.range 8).foldl (fun s t =>
    let x := s.tof t
    match x.pend with
    | none => s
    | some (tm, p0, t0) =>
      let s := s.setTof t { x with pend := none }
      match next with
      | some (p1, t1) =>
        let m := if t0 < t1 then p0 * 2 ^ 32 + (((tm : Int) - (t0 : Int)) * (p1 - p0) * 2 ^ 32) / ((t1 : Int) - (t0 : Int)) else p0 * 2 ^ 32
        s.latchMark t m tm
      | none => s.latchMark t (p0 * 2 ^ 32) tm) s

/-- DIR of the channel that drives WEB_POS is forward. -/
def State.webForward (s : State) : Bool := s.objBit (Obj.ENC_STATUS s.web.driver) bDir

/-- TOF_MARK: an edge of a top-of-form input after its filter. -/
def State.tofMark (s : State) (t : Nat) (rising : Bool) : State :=
  if !s.ready 11 ∨ s.objN (Obj.TOF_EDGE t) ≠ (if rising then 1 else 2) then s
  else if !s.webForward then s.count (Obj.TOF_REJECT_CNT t) 1
  else
    let tm := s.now - 2 - s.objN (Obj.TOF_FILTER t)
    let before := s.web.recent.find? (fun e => decide (e.2 ≤ tm))
    let after := (s.web.recent.takeWhile (fun e => decide (tm < e.2))).getLast?
    let still := s.objBit (Obj.ENC_STATUS s.web.driver) bStandstill
    match before with
    | none => s.latchMark t (s.web.pos * 2 ^ 32) tm
    | some (p0, t0) =>
      let s := s.setTof t { s.tof t with pend := some (tm, p0, t0) }
      match after with
      | some e => s.latchPending (some e)
      | none => if still then s.latchPending none else s

/-- TOF_MISSING. -/
def State.tofMissing (s : State) (t : Nat) : State :=
  let x := s.tof t
  let pitch := s.obj (Obj.TOF_PITCH t)
  match x.ref with
  | none => s
  | some r =>
    let m := r + pitch * 2 ^ 32
    if pitch = 0 ∨ !s.ready 11 ∨ s.webQ ≤ m + s.obj (Obj.TOF_TOL t) * 2 ^ 32 then s
    else
      let s := (s.event 24 0x0506 [(12, 1, t), (16, 8, bitsOf 64 (m / 2 ^ 32))]).count (Obj.TOF_MISSING_CNT t) 1
      (s.setTof t { x with ref := some m }).useMark t m

/-! ### The web position (R111, R132 to R134, R148, R149) -/

/-- The predictor's state is forwarded to a standby (Table 21.3). -/
def State.forwardPredictor (s : State) : State :=
  s.forward (.predictor s.ffy.track s.ffy.p s.ffy.v s.ffy.a s.ffy.tLast s.ffy.hwm)

/-- Firefly takes an accepted edge of the selected channel. -/
def State.fireflyEdge (s : State) (t : Nat) : State :=
  let pos := s.web.pos
  let h := s.ffy.hwm
  if h < pos then ((s.predict pos t).tryResume.resendAll false).forwardPredictor
  else if pos < h then
    let s := s.enterHold false
    if s.obj Obj.FFY_HYST < h - pos ∧ !s.ffy.susDir then
      let s := s.event 24 0x0601 [(16, 8, bitsOf 64 h), (24, 4, bitsOf 32 (h - pos))]
      ((s.count Obj.FFY_DIRCHG_CNT 1).suspend false).forwardPredictor
    else s.forwardPredictor
  else s

/-- A change of WEB_SEL takes effect at the first accepted edge of the channel it names (R111). -/
def State.splice (s : State) (w : Nat) : State :=
  let old := s.web.driver
  let s := { s with web := { s.web with driver := w } }
  (s.setBit (Obj.ENC_STATUS old) bSelected false).setBit (Obj.ENC_STATUS w) bSelected true

/-- One count of a web channel. -/
def State.webCount (s : State) (w : Nat) (fwd : Bool) (t : Nat) : State :=
  let s := s.chanEdge (.web w) fwd t
  let c := s.chan (.web w)
  let r := s.objN (Obj.ENC_REV_COUNTS w)
  let rev := if r = 0 then c.rev else if fwd then (c.rev + 1) % r else (c.rev + r - 1) % r
  let s := s.setChan (.web w) { c with rev := rev }
  let s := s.setObj (Obj.ENC_LAST_EDGE w) ((t % 2 ^ 32 : Nat) : Int)
  let switch := decide (s.web.driver ≠ w) && (s.objN Obj.WEB_SEL == w)
  let s := if switch then s.splice w else s
  if s.web.driver ≠ w then s
  else
    let pos := if fwd then s.web.pos + 1 else s.web.pos - 1
    let s := { s with web := { s.web with pos := pos, recent := ((pos, t) :: s.web.recent).take 1024 } }
    let s := if switch then s.event 24 0x0503 [(12, 1, w), (16, 8, bitsOf 64 pos)] else s
    let s := (s.condEnd 0x1406 0).condEnd 0x1406 1
    let s := s.latchPending (if fwd then some (pos, t) else none)
    let s := if fwd then s.cmpForward 0 pos else s
    s.fireflyEdge t

/-- Both lines change on the fall-back path (R98). -/
def State.encIllegal (s : State) (k : ChanKeys) : State :=
  let was := s.objBit k.status bIllegal
  let s := s.count k.illegalCnt 1
  let s := s.setStatus k (putBit (s.objN k.status) bIllegal true)
  if was then s else s.event 24 0x0504 [(12, 1, k.name)]

/-- New levels of A and B after filtering reach a counting channel: `count` counts one edge with its stamp. -/
def State.levels (s : State) (i : ChanId) (on a b : Bool) (count : State → Bool → Nat → State) : State :=
  let k := s.chanKeys i
  let c := s.chan i
  let s := s.setChan i { c with a := a, b := b }
  let t := s.now - 2 - k.filter
  if !on || !s.ready 11 then s
  else if a ≠ c.a ∧ b ≠ c.b then
    if k.fallback then s.encIllegal k
    else
      let s := count (count s c.fwd t) c.fwd t
      let s := s.setStatus k (putBit (s.objN k.status) bDouble true)
      s.count k.doubleCnt 1
  else if a ≠ c.a then count s (b == c.a) t
  else if b ≠ c.b then count s (b == a) t
  else s

def State.encLevels (s : State) (w : Nat) (a b : Bool) : State :=
  s.levels (.web w) (s.obj (Obj.ENC_ENABLE w) == 1) a b (fun s f t => s.webCount w f t)

/-- ENC_INDEX (R102 to R104). -/
def State.encIndex (s : State) (w : Nat) : State :=
  let k := s.webKeys w
  let st := s.objN k.status
  if s.obj (Obj.ENC_ENABLE w) ≠ 1 ∨ !s.ready 11 ∨ !bitAt st bDir then s
  else
    let r := s.obj (Obj.ENC_REV_COUNTS w)
    let ip := s.objN (Obj.ENC_INDEX_POS w)
    let c := s.chan (.web w)
    let stamp : Int := (((s.now - 2 - k.filter) % 2 ^ 32 : Nat) : Int)
    if r = 0 then (s.setObj (Obj.ENC_INDEX_STAMP w) stamp).setStatus k (putBit st bIndexSeen true)
    else if !bitAt st bIndexSeen then
      (s.setChan (.web w) { c with rev := ip }).setStatus k (putBit st bIndexSeen true)
    else
      let raw := ((c.rev : Int) - (ip : Int)) % r
      let d := if r < 2 * raw then raw - r else raw
      let s := (s.setObj (Obj.ENC_INDEX_DEV w) d).setObj (Obj.ENC_INDEX_STAMP w) stamp
      if (d.natAbs : Int) ≤ s.obj (Obj.ENC_INDEX_TOL w) then s
      else
        let mode := s.objN (Obj.ENC_INDEX_MODE w)
        let s := s.setStatus k (putBit st bIndexMiss true)
        let s := s.count (Obj.ENC_INDEX_MISS_CNT w) 1
        let s := s.event 24 0x0501 [(12, 1, w), (13, 1, mode), (16, 4, bitsOf 32 d), (20, 4, c.rev)]
        if mode = 1 then s.setChan (.web w) { c with rev := ip } else s

/-- ENC_STANDSTILL (R107, R114, R134). -/
def State.encStandstill (s : State) (w : Nat) : State :=
  let k := s.webKeys w
  let st := s.objN k.status
  let c := s.chan (.web w)
  if s.obj (Obj.ENC_ENABLE w) ≠ 1 ∨ !s.ready 11 ∨ bitAt st bStandstill ∨
      s.now < c.lastNs + s.objN (Obj.ENC_STANDSTILL_MS w) * msNs then s
  else
    let s := (s.setObj k.speed 0).setStatus k (putBit st bStandstill true)
    if s.web.driver = w then ((s.latchPending none).enterHold false).forwardPredictor else s

/-- A span of the comparison starts here (R112). -/
def State.startSpan (s : State) : State :=
  { s with web := { s.web with
    spanStart := s.web.pos, span0 := (s.chan (.web 0)).pos, span1 := (s.chan (.web 1)).pos } }

/-- WEB_SPAN_END. -/
def State.spanEnd (s : State) : State :=
  if s.obj (Obj.ENC_ENABLE 0) ≠ 1 ∨ s.obj (Obj.ENC_ENABLE 1) ≠ 1 ∨ !s.ready 11 ∨
      s.web.pos < s.web.spanStart + s.obj Obj.WEB_CMP_SPAN then s
  else
    let d0 := (s.chan (.web 0)).pos - s.web.span0
    let d1 := (s.chan (.web 1)).pos - s.web.span1
    let off := decide (s.obj Obj.WEB_CMP_WINDOW < ((d0 - d1).natAbs : Int))
    let was := s.objBit Obj.WEB_DISAGREE 0
    let s := s.setBit Obj.WEB_DISAGREE 0 off
    let s := if off then s.count Obj.WEB_DISAGREE_CNT 1 else s
    let s := if off ∧ !was then s.event 24 0x0502
        [(12, 1, s.objN Obj.WEB_SEL), (16, 4, bitsOf 32 d0), (20, 4, bitsOf 32 d1)] else s
    s.startSpan

/-! ### Enables (R96, R111) -/

/-- A channel starts anew: position 0, forward, at standstill. -/
def State.resetChan (s : State) (i : ChanId) : State :=
  let k := s.chanKeys i
  let c := s.chan i
  let s := s.setChan i { a := c.a, b := c.b, lastNs := s.now }
  let keep := s.objN k.status / 2 ^ 23 * 2 ^ 23 + (if s.objBit k.status bSelected then 2 else 0)
  (s.setObj k.speed 0).setStatus k (keep + 5)

/-- A write of ENC_ENABLE: its status of Table 14.3. -/
def State.encEnable (s : State) (w v : Nat) : State × Nat :=
  let on := s.obj (Obj.ENC_ENABLE w) == 1
  if v = 1 then
    if on then (s, 0)
    else
      let s := (s.setObj (Obj.ENC_ENABLE w) 1).resetChan (.web w)
      let s := if s.web.driver = w then
          ({ s with ffy := { s.ffy with hwm := s.web.pos } }).enterHold false
        else s
      (s.startSpan, 0)
  else if !on then (s, 0)
  else if s.web.driver = w then (s, 0x0A)
  else
    let s := s.setObj (Obj.ENC_ENABLE w) 0
    (if s.objN Obj.WEB_SEL = w then s.setObj Obj.WEB_SEL (s.web.driver : Nat) else s, 0)

/-- A write of WEB_SEL. -/
def State.selectWeb (s : State) (v : Nat) : State × Nat :=
  if s.obj (Obj.ENC_ENABLE v) ≠ 1 then (s, 0x04) else (s.setObj Obj.WEB_SEL (v : Nat), 0)

/-! ### Axis encoders (R123 to R125) -/

def State.axisCount (s : State) (x : Nat) (fwd : Bool) (t : Nat) : State :=
  let s := s.chanEdge (.axis x) fwd t
  if fwd then s.cmpForward (0x10 + x) (s.chan (.axis x)).pos else s

def State.axeLevels (s : State) (x : Nat) (a b : Bool) : State :=
  s.levels (.axis x) (s.obj (Obj.AXE_MODE x) == 1) a b (fun s f t => s.axisCount x f t)

/-- AXE_INDEX (R123). -/
def State.axeIndex (s : State) (x : Nat) : State :=
  let k := s.axisKeys x
  let st := s.objN k.status
  if s.obj (Obj.AXE_MODE x) ≠ 1 ∨ !s.ready 11 ∨ !bitAt st bDir then s
  else
    (s.setObj (Obj.AXE_INDEX_LATCH x) ((bitsOf 64 (s.chan (.axis x)).pos : Nat) : Int)).setStatus k (putBit st bIndexSeen true)

def bitsToNat (l : List Bool) : Nat := l.foldl (fun v b => 2 * v + b2n b) 0

/-- The number a Gray code of n bits stands for. -/
def grayToNat (n g : Nat) : Nat :=
  ((List.range n).foldl (fun (acc : Nat × Bool) i =>
    let b := bitAt g (n - 1 - i) != acc.2
    (2 * acc.1 + b2n b, b)) (0, false)).1

def bSsiInvalid : Nat := 22
def bSsiFault : Nat := 23

/-- A bad SSI sample with its cause (R125). -/
def State.ssiBadSample (s : State) (x cause : Nat) : State :=
  let k := s.axisKeys x
  let c := s.chan (.axis x)
  let n := c.ssiBad + 1
  let s := (s.setChan (.axis x) { c with ssiBad := n }).count (Obj.AXE_ERR_CNT x) 1
  if n = s.objN (Obj.AXE_SSI_ERRMAX x) then
    let s := s.setStatus k (putBit (putBit (s.objN k.status) bSsiInvalid true) bSsiFault true)
    let s := s.event 24 0x0505 [(12, 1, 0x10 + x), (13, 1, cause), (16, 4, n)]
    s.latch 0x0505 serviceF x (le 4 n) true false none
  else s

/-- AXE_SSI_SAMPLE: `bits` are the bits the encoder presents, first one first. -/
def State.ssiSample (s : State) (x : Nat) (busy : Bool) (bits : List Bool) : State :=
  if s.obj (Obj.AXE_MODE x) ≠ 2 ∨ !s.ready 11 then s
  else
    let f := s.objN (Obj.AXE_SSI_FRAME x)
    let n := field f 0 6
    let lead := field f 16 4
    let errs := field f 20 2
    let par := bitAt f 22
    let total := lead + n + errs + b2n par
    let w := (bits ++ List.replicate total false).take total
    let raw := bitsToNat ((w.drop lead).take n)
    let v := if bitAt f 23 then grayToNat n raw else raw
    let oddParity := (w.map b2n).foldl (· + ·) 0 % 2 == 1
    let k := s.axisKeys x
    let c := s.chan (.axis x)
    let invalid := s.objBit k.status bSsiInvalid
    let delta := match c.ssiGood with
      | some (r, _, _) => sext n (bitsOf n ((v : Int) - (r : Int)))
      | none => 0
    let jump := s.obj (Obj.AXE_SSI_JUMP x)
    if busy then s.ssiBadSample x 1
    else if par ∧ oddParity then s.ssiBadSample x 2
    else if ((w.drop (lead + n)).take errs).any (fun b => b) then s.ssiBadSample x 3
    else if c.ssiGood.isSome ∧ jump ≠ 0 ∧ !invalid ∧ jump < (delta.natAbs : Int) then s.ssiBadSample x 4
    else
      let pos := if c.ssiGood.isSome then c.pos + delta else (v : Int)
      let speed := match c.ssiGood with
        | some (_, _, t) => if t < s.now then Int.tdiv (delta * 1000000000) ((s.now : Int) - (t : Int)) else 0
        | none => 0
      let s := s.setChan (.axis x) { c with pos := pos, any := true, ssiBad := 0, ssiGood := some (v, pos, s.now) }
      let s := s.setObj (Obj.AXE_SPEED x) speed
      let s := if invalid then (s.setStatus k (putBit (s.objN k.status) bSsiInvalid false)).condEnd 0x0505 x else s
      if 0 < delta then s.cmpForward (0x10 + x) pos else s

/-- A write of AXE_MODE: a channel that is switched on starts anew. -/
def State.setAxeMode (s : State) (x v : Nat) : State :=
  let was := s.objN (Obj.AXE_MODE x)
  let s := s.setObj (Obj.AXE_MODE x) (v : Nat)
  if v ≠ 0 ∧ v ≠ was then s.resetChan (.axis x) else s

def execEncEdge (w : WebNo) (a b : Bool) (s : State) : Outcome := .next (s.encLevels w.val a b)
def execEncIllegal (w : WebNo) (a b : Bool) (s : State) : Outcome :=
  let c := s.chan (.web w.val)
  .next (if (s.webKeys w.val).fallback ∧ a ≠ c.a ∧ b ≠ c.b then s.encLevels w.val a b else s)
def execEncIndex (w : WebNo) (s : State) : Outcome := .next (s.encIndex w.val)
def execEncStandstill (w : WebNo) (s : State) : Outcome := .next (s.encStandstill w.val)
def execWebSpanEnd (s : State) : Outcome := .next s.spanEnd
def execTofMark (t : Fin 8) (rising : Bool) (s : State) : Outcome := .next (s.tofMark t.val rising)
def execTofMissing (t : Fin 8) (s : State) : Outcome := .next (s.tofMissing t.val)
def execCmpTarget (k : CmpNo) (s : State) : Outcome := .next (s.cmpAct k.val)
def execCmpPulseEnd (k : CmpNo) (s : State) : Outcome := .next (s.pulseEnd k.val)
def execAxeEdge (x : Axis) (a b : Bool) (s : State) : Outcome := .next (s.axeLevels x.val a b)

end Sys2Proof.Machine
end

