-- ==== Sys2Proof/Machine/Arrum.lean ====
section
/-! DEFINITION. The device's end of the head links (chapter 08): lock and training, telemetry, enumeration and bring-up,
delay measurement, time frames and fire authority. -/

namespace Sys2Proof.Machine

def lnSignal : Nat := 1
def lnCdr : Nat := 2
def lnLocked : Nat := 3
def lnTrained : Nat := 4
def lnAdapting : Nat := 5
def lnTest : Nat := 7

def headDomain (h : Nat) : Nat := 4 + h / 32

/-- LANE_STATUS bits of a head's lane. -/
def State.laneBits (s : State) (n : Nat) (on off : List Nat) : State :=
  let s := on.foldl (fun s i => s.setBit (Obj.LANE_STATUS n) i true) s
  off.foldl (fun s i => s.setBit (Obj.LANE_STATUS n) i false) s

/-- A head's link is let up: HL_ENABLE is 1, its lane is in function mode and its domain is ready. -/
def State.hlOn (s : State) (h : Nat) : Bool :=
  s.obj (Obj.HL_ENABLE h) == 1 && s.obj (Obj.LANE_MODE h) == 0 && s.ready (headDomain h)

/-- The module of head h. -/
def State.headSide (s : State) (h : Nat) : HeadSide := Tab.get {} s.headSides h

def State.setHeadSide (s : State) (h : Nat) (x : HeadSide) : State := { s with headSides := Tab.set {} s.headSides h x }

/-- The head's port towards this device loses its link: after training anew it sends ENUM again (R207). -/
def State.headPortDown (s : State) (h : Nat) : State :=
  let x := s.headSide h
  s.setHeadSide h { x with ports := upd x.ports s.chip (fun p => { p with asn := false, enumNs := none }) }

def State.lane (s : State) (n : Nat) : LaneSt := Tab.get {} s.lanes n

def State.setLane (s : State) (n : Nat) (x : LaneSt) : State := { s with lanes := Tab.set {} s.lanes n x }

/-- A running eye scan ends ABORTED (R221). -/
def State.eyeAbort (s : State) (n : Nat) : State :=
  if s.obj (Obj.LANE_EYE_STATE n) = 1 then
    ((s.setLane n { s.lane n with eye := 0 }).setObj (Obj.LANE_EYE_STATE n) 3).setObj (Obj.LANE_EYE_STAMP n) ((s.stamp : Nat) : Int)
  else s

/-- The device's end of a link starts from bit-slip. -/
def State.hlDown (s : State) (h : Nat) : State :=
  let d := s.headDev h
  let s := s.setHeadDev h { signal := d.signal, retryAt := d.retryAt, cseq := d.cseq, drops := d.drops, keep := d.keep }
  let s := (((s.headPortDown h).eyeAbort h).calInterrupt 1 h).calInterrupt 3 h
  let s := (s.setBit (Obj.HL_LINK_STATUS h) 0 false).setBit (Obj.HL_LINK_STATUS h) 1 false
  let s := (s.setObj (Obj.FFY_HOT_STATE h) 0).setObj (Obj.LCW_WAVE_STAGED h) 0
  s.laneBits h [] [lnCdr, lnLocked, lnTrained, lnAdapting]

/-- A head is LOST (R210): causes 1 block lock, 2 telemetry, 3 control. -/
def State.headLost (s : State) (h cause : Nat) : State :=
  let s := s.event 24 0x0804 [(12, 1, h), (13, 1, cause)]
  let s := (s.setObj (Obj.HL_STATE h) 0).hlDown h
  s.refreshSets

/-- A head is refused (R189, R208): its lane stays idle until HL_ENABLE is written. -/
def State.headRefused (s : State) (h cause : Nat) : State :=
  let s := (s.setObj (Obj.HL_STATE h) 6).setObj (Obj.HL_REFUSE_CAUSE h) (cause : Nat)
  let s := s.event 24 0x0802 [(12, 1, h), (13, 1, cause)]
  s.hlDown h

/-! ### Lock and training (R185, R186, R215, R216) -/

/-- LANE_SIGNAL_DETECT. -/
def State.signalDetect (s : State) (h : Nat) : State :=
  if !s.ready (headDomain h) then s
  else (s.setHeadDev h { s.headDev h with signal := true }).laneBits h [lnSignal] []

/-- BLOCK_LOCK: the head enters TRAINING. -/
def State.blockLock (s : State) (h : Nat) : State :=
  let d := s.headDev h
  if !s.hlOn h || d.lock || s.obj (Obj.HL_STATE h) != 0 || decide (s.aclkNs < d.retryAt) then s
  else
    let s := s.setHeadDev h { d with lock := true, trainSince := s.aclkNs, rdySent := 0, rdyRecv := 0, stat := 0 }
    let s := (s.setObj (Obj.HL_STATE h) 1).setBit (Obj.HL_LINK_STATUS h) 0 true
    s.laneBits h [lnSignal, lnCdr, lnLocked, lnAdapting] []

/-- BLOCK_LOCK_LOSS. -/
def State.blockLockLoss (s : State) (h : Nat) : State :=
  if !(s.headDev h).lock then s
  else (s.count (Obj.LANE_LOCK_LOSS_CNT h) 1).headLost h 1

/-- The link is trained once RX_READY has gone and come in 8 consecutive TRAIN frames. -/
def State.trainDone (s : State) (h : Nat) : State :=
  let d := s.headDev h
  if 8 ≤ d.rdySent ∧ 8 ≤ d.rdyRecv ∧ !d.trained then
    let s := s.setHeadDev h { d with trained := true, teleNs := s.aclkNs }
    (s.setBit (Obj.HL_LINK_STATUS h) 1 true).laneBits h [lnTrained] [lnAdapting]
  else s

/-- TRAIN_FRAME_SEND. What the receiver asks for and whether its eye satisfies it are measured on the wire (R216): free
values. RX_READY stays set once it is. -/
def State.trainSend (s : State) (h : Nat) : State :=
  let d := s.headDev h
  if !d.lock || d.trained || s.obj (Obj.HL_STATE h) != 1 then s
  else
    let x := s.drawNat
    let s := x.2
    let was := bitAt d.stat 6
    let now := was || x.1 % 8 == 0
    let tap := x.1 / 8 % 3
    let req := fun (i : Nat) => if now || tap != i then 0 else 1 + x.1 / 24 % 2
    let stat := putBit d.stat 6 now
    let s := s.setHeadDev h { d with stat := stat, rdySent := if now then d.rdySent + 1 else 0 }
    let s := s.hlTx h 11 (withCrc (layout 12 [(0, 1, req 0), (1, 1, req 1), (2, 1, req 2), (3, 1, stat)]))
    s.trainDone h

/-- One tap request (R215): the tap's range, its value, the sum of the other taps, and the request; the new value and
its status. -/
def tapStep (lo hi full v others req : Nat) : Nat × Nat :=
  if req = 1 then
    if hi ≤ v ∨ full < v + 1 + others then (v, 3) else (v + 1, if v + 1 = hi ∨ full ≤ v + 1 + others then 3 else 1)
  else if req = 2 then if v ≤ lo then (v, 2) else (v - 1, if v - 1 = lo then 2 else 1)
  else (v, 0)

/-- Carry out the tap requests of a TRAIN frame on an M lane: LANE_TX_TAPS and the status bits to report. -/
def tapRequests (taps pre main post : Nat) : Nat × Nat :=
  if pre = 3 ∨ main = 3 ∨ post = 3 then (32 * 256, 1 + 4 * 3 + 16)
  else
    let a := field taps 0 8
    let m := field taps 8 8
    let c := field taps 16 8
    let x := tapStep 0 8 32 a (m + c) pre
    let y := tapStep 20 32 32 m (x.1 + c) main
    let z := tapStep 0 12 32 c (x.1 + y.1) post
    (x.1 + 256 * y.1 + 65536 * z.1, x.2 + 4 * y.2 + 16 * z.2)

/-- A frame's CRC-32C over all body bytes before it matches (R187). -/
def frameOk (n : Nat) (body : Bytes) : Bool := body.length == n && getN body (n - 4) 4 == crc32c (body.take (n - 4))

/-- A frame from a head that fails its check is discarded and counted. -/
def State.hlFrame (s : State) (h n : Nat) (body : Bytes) (f : State → State) : State :=
  if !(s.headDev h).lock then s
  else if frameOk n body then f s
  else s.count (Obj.HL_FRAME_ERR h) 1

/-- TRAIN_FRAME_RECEIVE. -/
def State.trainReceive (s : State) (h : Nat) (body : Bytes) : State :=
  s.hlFrame h 16 body (fun s =>
    let d := s.headDev h
    if d.trained then s
    else
      let t := tapRequests (s.objN (Obj.LANE_TX_TAPS h)) (byteAt body 0) (byteAt body 1) (byteAt body 2)
      let s := s.setObj (Obj.LANE_TX_TAPS h) (t.1 : Nat)
      let ready := bitAt (byteAt body 3) 6
      let s := s.setHeadDev h { d with
        stat := t.2 + (if bitAt d.stat 6 then 64 else 0), rdyRecv := if ready then d.rdyRecv + 1 else 0 }
      s.trainDone h)

/-- TRAIN_FAIL. -/
def State.trainFail (s : State) (h : Nat) : State :=
  let d := s.headDev h
  if s.obj (Obj.HL_STATE h) ≠ 1 ∨ d.trained ∨ s.aclkNs < d.trainSince + s.objN Obj.HL_TRAIN_TIMEOUT * msNs then s
  else
    let s := s.event 24 0x0807 [(12, 1, h)]
    let s := (s.setObj (Obj.HL_STATE h) 0).hlDown h
    s.setHeadDev h { s.headDev h with retryAt := s.aclkNs + 10 * msNs }

/-! ### CONTROL acknowledgement (R195) -/

/-- CONTROL_RESEND. -/
def State.ctlResend (s : State) (h : Nat) : State :=
  let d := s.headDev h
  match d.cur with
  | none => s
  | some (c, q) =>
    if s.aclkNs < d.sentNs + 20000 then s
    else if 50 ≤ d.sends then s.headLost h 3
    else (s.setHeadDev h { d with sends := d.sends + 1, sentNs := s.aclkNs }).hlTx h 5 (ctlBody c q)

/-! ### Step down (R433) -/

/-- e is the higher epoch (R203). -/
def epochHigher (e f : Nat) : Bool := decide (0 < fwd32 f e) && decide (fwd32 f e < 2 ^ 31)

/-- A planned hand-over ends: the old active chip stops (R432). -/
def State.plannedStop (s : State) : State :=
  ({ s with twin := { s.twin with handing := false, stop := none } }).setTwinState twFaulted 1

/-- A head obeys a higher epoch: the card stops all head traffic but HEARTBEAT and gives up fire authority. While it
hands over it goes on until every head in service reports the new epoch, for 20 us at most (R432). -/
def State.stepDown (s : State) (epoch : Nat) : State :=
  if !s.hasAuthority || !epochHigher epoch (s.objN Obj.TWIN_EPOCH) then s
  else if s.twin.handing then
    if (List.range 128).all (fun h => !s.inService h || epochHigher (s.headDev h).epoch (s.objN Obj.TWIN_EPOCH)) then s.plannedStop
    else { s with twin := { s.twin with stop := some (s.twin.stop.getD (s.now + 20000)) } }
  else
    let s := s.eventJ 24 0x1505 0x0C [(16, 4, epoch), (20, 4, s.objN Obj.TWIN_EPOCH)]
    s.setTwinState twFaulted 1

/-! ### Bring-up (R208, R209) -/

/-- ENUM_RECEIVE: the cause of a refusal, if any. -/
def enumCause (e : Bytes) : Option Nat :=
  if byteAt e 12 ≠ 1 then some 1
  else if getN e 16 2 ≠ 8192 ∨ byteAt e 18 ≠ 16 then some 2
  else if getN e 14 2 < 72 then some 3
  else if getN e 20 2 < 1 then some 4
  else if 1 < byteAt e 13 then some 5
  else none

/-- A head's nozzle parameters, wear and observed pairs start anew at enumeration (R181). -/
def State.freshHead (s : State) (h : Nat) : State :=
  let s := s.setBlob (Obj.NOZZLE_PARAM h) 0 (zeros 32768)
  let s := s.clearWear h 0 8192
  let s := { s with lcw := { s.lcw with
    pairs := s.lcw.pairs.filter (fun e => e.1 / 4096 ≠ h), dead := s.lcw.dead.filter (fun c => c.head ≠ h) } }
  s.setHeadDev h { s.headDev h with drops := false }

/-- ENUM_RECEIVE. A head that comes up again after a power state keeps its tables where its SERIAL is the same (R463). -/
def State.enumReceive (s : State) (h : Nat) (body : Bytes) : State :=
  s.hlFrame h 48 body (fun s =>
    let d := s.headDev h
    if !d.trained ∨ s.obj (Obj.HL_STATE h) ≠ 1 ∨ d.stage ≠ 0 then s
    else
      match enumCause body with
      | some c => s.headRefused h c
      | none =>
        let same := d.keep && s.blob (Obj.HL_IDENTITY h) 4 8 == slice body 4 8
        let s := s.setBlob (Obj.HL_IDENTITY h) 0 (body.take 44)
        let s := if same then s else s.freshHead h
        let s := s.setHeadDev h { s.headDev h with stage := 1, keep := false }
        let s := s.ctlSend h ⟨1, h, 0⟩
        ((s.ctlSend h (s.ctlHotLimit h)).ctlSend h s.ctlSlots).ctlSend h ⟨7, 0, 0⟩)

/-- Tables of pending sets that a head has still to load: its bar's first waveform table and its first trims. -/
def State.pendLoads (s : State) (h : Nat) : Option Bytes × Option Bytes :=
  let items := (s.toa.pending.map CommitSet.waiting).flatten
  let w := (items.find? (fun x => waveBar x.key == some (h / 16))).map (·.bytes)
  let t := match items.find? (fun x => paramHead x.key == some h) with
    | some x => s.trimsFor h x.bytes
    | none => none
  (w, t)

def State.crcOf : Option Bytes → Nat
  | none => 0
  | some b => crc32c b

/-- Move a head's bring-up on after a report (R209). `lock` is TIME_LOCK as reported, `gen` the active generations. -/
def State.bringUp (s : State) (h : Nat) (lock : Bool) (waveCrc trimCrc gen : Nat) : State :=
  let d := s.headDev h
  if d.stage = 1 ∧ d.cur.all (fun x => x.1.op != 1) then
    let s := (s.setObj (Obj.HL_STATE h) 2).setHeadDev h { d with stage := 2 }
    s.event 24 0x0801 [(12, 1, h), (16, 8, s.blobN (Obj.HL_IDENTITY h) 4 8)]
  else if d.stage = 2 ∧ lock ∧ s.hasAuthority ∧ d.cur.isNone ∧ s.obj Obj.PWR_STATE ≠ 3 then
    let s := (s.setObj (Obj.HL_STATE h) 3).setHeadDev h { d with stage := 3 }
    (s.loadWave h (s.blob (Obj.WAVE_TABLE (h / 16)) 0 140)).loadTrims h (s.activeTrims h)
  else if d.stage = 3 ∧ d.waveLoad = some waveCrc ∧ d.trimLoad = some trimCrc then
    let s := s.setHeadDev h { d with
      stage := 4, waveGen := (field gen 0 4 + 1) % 16, trimGen := (field gen 4 4 + 1) % 16, waveLoad := none, trimLoad := none }
    let s := s.ctlSend h ⟨4, s.nextLseq (h / 16), 3⟩
    let p := s.pendLoads h
    let s := match p.1 with | some w => s.loadWave h w | none => s
    match p.2 with | some t => s.loadTrims h t | none => s
  else if d.stage = 4 ∧ d.cur.isNone then
    let p := s.pendLoads h
    if waveCrc = State.crcOf p.1 ∧ trimCrc = State.crcOf p.2 then
      (s.setObj (Obj.HL_STATE h) 4).setHeadDev h { d with stage := 5 }
    else s
  else s

/-! ### Telemetry (R198, R199) -/

/-- Add the modular increase of an 8-bit count. -/
def State.addMod8 (s : State) (k prev new : Nat) : State := s.count k ((new + 256 - prev % 256) % 256)

/-- The page line after the last committed one: its job and page line, where that line is known (R153). -/
def State.lineAfter (s : State) (b lseq : Nat) : Option (Nat × Nat) :=
  match (s.departed b).find? (fun d => d.lseq == (lseq + 1) % 2 ^ 32) with
  | some d => some (d.job, d.line)
  | none =>
    match s.firingJob b with
    | some j => if 0 < (j.bar b).departed ∧ (j.bar b).departed < j.lines then some (j.id, (j.bar b).departed) else none
    | none => none

/-- HOT handling of an in-service head (R153). -/
def State.hotReport (s : State) (h lseq : Nat) (hot : Bool) : State :=
  let d := s.headDev h
  let waiting := match d.clearLseq with
    | some l => !(decide (fwd32 l lseq < 2 ^ 31))
    | none => false
  if waiting then s
  else
    let s := s.setHeadDev h { d with clearLseq := none }
    if !hot || s.obj (Obj.FFY_HOT_STATE h) == 1 then s
    else
      let s := s.setObj (Obj.FFY_HOT_STATE h) 1
      match s.lineAfter (h / 16) lseq with
      | some (job, line) => s.headHot h job line
      | none => s

/-- SF1 (Table 20.4): the reported temperature of an in-service head against HALO_HEAD_ABS. -/
def State.sf1Report (s : State) (h : Nat) (temp : Int) : State :=
  if s.obj Obj.HALO_HEAD_ABS ≤ temp then
    match s.fault? 0x1401 h with
    | some f => if f.cond then s else s.latch 0x1401 safety h [] true false none
    | none =>
      let job := match s.firingJob (h / 16) with | some j => j.id | none => 0
      s.latch 0x1401 safety h (leInt 2 temp ++ le 4 job) true false none
  else s.condEnd 0x1401 h

/-- A head reports that it is in service: the SERVICE line has been committed (Table 8.11). -/
def State.serviceReport (s : State) (h : Nat) (inService : Bool) : State :=
  let d := s.headDev h
  match d.service with
  | some (_, job) =>
    if inService then
      let s := (s.setObj (Obj.HL_STATE h) 5).setHeadDev h { d with service := none }
      s.event 24 0x0803 [(12, 1, h), (16, 4, job)]
    else s
  | none => s

/-- HEAD_PORT: the obeyed port, 0xFF for none, and its epoch have changed. -/
def State.portReport (s : State) (h port epoch : Nat) : State :=
  let d := s.headDev h
  let s := s.setHeadDev h { d with port := port, epoch := epoch }
  if port = d.port then s else s.event 24 0x0805 [(12, 1, h), (13, 1, port), (16, 4, epoch)]

/-- TELEMETRY_RECEIVE. -/
def State.telemetry (s : State) (h : Nat) (body : Bytes) : State :=
  s.hlFrame h 32 body (fun s =>
    let d := s.headDev h
    if !d.trained then s
    else
      let lseq := getN body 0 4
      let temp := getI body 4 2
      let st := byteAt body 6
      let c0 := byteAt body 24
      let c1 := byteAt body 25
      let c2 := byteAt body 26
      let c3 := byteAt body 27
      let s := s.setObj (Obj.HL_TEMP h) temp
      let s := s.setObj (Obj.HL_HEAD_STATE h) ((st + 256 * (byteAt body 7 / 2 % 2) : Nat) : Int)
      let s := match d.counts with
        | some (a, b, c, e) =>
          (((s.addMod8 (Obj.HL_HDR_ERR h) a c0).addMod8 (Obj.HL_LATE h) b c1).addMod8 (Obj.HL_BUSY h) c c2).addMod8
            (Obj.HL_HEAD_DISCARD h) e c3
        | none => s
      let acked := match d.cur with | some (_, q) => q == getN body 12 2 | none => false
      let s := s.setHeadDev h { d with
        teleNs := s.aclkNs, counts := some (c0, c1, c2, c3), trimCrc := getN body 20 4
        cur := if acked then none else d.cur }
      let s := (s.setObj (Obj.LCW_WAVE_STAGED h) ((getN body 16 4 : Nat) : Int)).ctlNext h
      let s := s.portReport h (if bitAt st 6 then b2n (bitAt st 2) else 0xFF) (getN body 8 4)
      let s := if s.hasAuthority then s else s.setHeadDev h { s.headDev h with
        waveGen := field (byteAt body 14) 0 4, trimGen := field (byteAt body 14) 4 4 }
      let s := s.bringUp h (bitAt st 5) (getN body 16 4) (getN body 20 4) (byteAt body 14)
      let s := s.serviceReport h (bitAt st 1)
      let s := if bitAt st 5 ∧ !s.time.stepFrames.contains h then
          { s with time := { s.time with stepHeads := s.time.stepHeads.filter (fun x => x ≠ h) } }
        else s
      let s := if s.inService h then (s.hotReport h lseq (bitAt st 0)).sf1Report h temp else s
      let s := if bitAt st 7 then
          let c := (s.headDev h).bound.getD ⟨0, 0, 0⟩
          s.event 24 0x0808 [(12, 1, h), (13, 1, c.op), (16, 4, c.arg0)]
        else s
      (if bitAt st 6 then s.stepDown (getN body 8 4) else s).refreshSets)

/-- TELEMETRY_TIMEOUT. -/
def State.teleTimeout (s : State) (h : Nat) : State :=
  let d := s.headDev h
  let st := s.objN (Obj.HL_STATE h)
  if !d.trained ∨ st < 2 ∨ 5 < st ∨ s.aclkNs < d.teleNs + 1000 * s.objN Obj.HL_TELE_TIMEOUT then s else s.headLost h 2

/-! ### Time frames and delay (R200, R201) -/

/-- Device time a number of ps from now: SEC, NS and FRAC. -/
def State.timeIn (s : State) (ps : Nat) : Nat × Nat × Nat :=
  let t := ((s.devNs + 100 * s.time.dormant) * 2 ^ 32 + s.time.frac) + ps * 2 ^ 32 / 1000
  (t / 2 ^ 32 / 1000000000, t / 2 ^ 32 % 1000000000, t % 2 ^ 32)

/-- TIME_FRAME_SEND. -/
def State.timeSend (s : State) (h : Nat) : State :=
  let d := s.headDev h
  if !d.trained ∨ s.aclkNs < d.timeNs + 1000 * s.objN Obj.HL_TIME_PERIOD then s
  else
    let t := s.timeIn (s.objN (Obj.HL_DELAY h))
    let q := (d.timeSeq + 1) % 2 ^ 16
    let step := s.time.stepFrames.contains h
    let body := layout 20 [(0, 2, q), (2, 1, b2n (s.time.state != 2) + 2 * b2n step), (4, 6, t.1), (10, 4, t.2.1), (14, 4, t.2.2)]
    let s := s.setHeadDev h { d with timeSeq := q, timeNs := s.aclkNs }
    let s := { s with time := { s.time with stepFrames := s.time.stepFrames.filter (fun x => x ≠ h) } }
    s.hlTx h 7 (withCrc body)

/-- The mean of the last accepted delays, ps. -/
def meanDelay (l : List Int) : Int := if l.isEmpty then 0 else l.foldl (· + ·) 0 / (l.length : Int)

/-- HEAD_TIME_ERR of an in-service head, once per excursion (R201). `err` is in 2^-8 ns. -/
def State.timeErrReport (s : State) (h : Nat) (err : Int) : State :=
  let d := s.headDev h
  if s.inService h ∧ 256 < err.natAbs ∧ !d.errHigh then
    (s.setHeadDev h { d with errHigh := true }).event 24 0x0806 [(12, 1, h), (16, 4, bitsOf 32 (err * 1000 / 256))]
  else if err.natAbs ≤ 128 then s.setHeadDev h { d with errHigh := false }
  else s

/-- ECHO_RECEIVE. -/
def State.echo (s : State) (h : Nat) (body : Bytes) (rtt : Int) : State :=
  s.hlFrame h 24 body (fun s =>
    let d := s.headDev h
    if !d.trained ∨ getN body 0 2 ≠ d.timeSeq then s
    else
      let err := getI body 10 4
      let turn : Int := (getN body 4 4 : Nat)
      let one := (rtt * 256 - turn * 1000 + s.obj (Obj.HL_ASYM h) * 256) / 512
      let avg := s.objN Obj.HL_DELAY_AVG
      let s := (s.setObj (Obj.HL_RTT h) ((bitsOf 32 rtt : Nat) : Int)).setObj (Obj.HL_TIME_ERR h) (err * 1000 / 256)
      let s := s.timeErrReport h err
      let far := decide (avg ≤ d.accepted) && decide (1000 < (one - s.obj (Obj.HL_DELAY h)).natAbs)
      if far then s.count (Obj.HL_DELAY_REJECT h) 1
      else
        let l := (one :: d.delays).take avg
        let m := meanDelay l
        let s := s.setHeadDev h { s.headDev h with delays := l, accepted := d.accepted + 1 }
        let s := s.setObj (Obj.HL_DELAY h) (max 0 m)
        if 150000 < m then s.headRefused h 7 else s)

/-! ### HL_ENABLE (R208, Table 8.15) -/

/-- RELEASE to a head, sent once. -/
def State.releaseHead (s : State) (h : Nat) : State :=
  if s.hasAuthority then s.hlTx h 5 (ctlBody ⟨6, 0, 0⟩ (((s.headDev h).cseq + 1) % 2 ^ 16)) else s

/-- A write of HL_ENABLE: its status. A lane in TEST_LOOP is not brought up (R222). -/
def State.hlEnable (s : State) (h v : Nat) : State × Nat :=
  if v = 1 ∧ s.obj (Obj.LANE_MODE h) = 1 then (s, 0x0A)
  else if v = 0 then
    let st := s.objN (Obj.HL_STATE h)
    let s := if 2 ≤ st ∧ st ≤ 5 then s.releaseHead h else s
    let s := (s.setObj (Obj.HL_ENABLE h) 0).setObj (Obj.HL_STATE h) 0
    ((s.hlDown h).refreshSets, 0)
  else
    let s := s.setObj (Obj.HL_ENABLE h) 1
    (if s.obj (Obj.HL_STATE h) = 6 then (s.setObj (Obj.HL_STATE h) 0).hlDown h else s, 0)

/-- A write of FFY_HOT_LIMIT is sent to the head at once. -/
def State.sendHotLimit (s : State) (h : Nat) : State :=
  let st := s.objN (Obj.HL_STATE h)
  if 2 ≤ st ∧ st ≤ 5 then s.ctlSend h (s.ctlHotLimit h) else s

def execLaneSignalDetect (h : Head) (s : State) : Outcome := .next (s.signalDetect h.val)
def execBlockLock (h : Head) (s : State) : Outcome := .next (s.blockLock h.val)
def execBlockLockLoss (h : Head) (s : State) : Outcome := .next (s.blockLockLoss h.val)
def execTrainFrameSend (h : Head) (s : State) : Outcome := .next (s.trainSend h.val)
def execTrainFrameReceive (h : Head) (body : Bytes) (s : State) : Outcome := .next (s.trainReceive h.val body)
def execTrainFail (h : Head) (s : State) : Outcome := .next (s.trainFail h.val)
def execTelemetryReceive (h : Head) (body : Bytes) (s : State) : Outcome := .next (s.telemetry h.val body)
def execTelemetryTimeout (h : Head) (s : State) : Outcome := .next (s.teleTimeout h.val)
def execEnumReceive (h : Head) (body : Bytes) (s : State) : Outcome := .next (s.enumReceive h.val body)
def execControlResend (h : Head) (s : State) : Outcome := .next (s.ctlResend h.val)
def execEchoReceive (h : Head) (body : Bytes) (rttPs : Int) (s : State) : Outcome := .next (s.echo h.val body rttPs)
def execTimeFrameSend (h : Head) (s : State) : Outcome := .next (s.timeSend h.val)
def execAuthSend (h : Head) (s : State) : Outcome := .next (s.sendAuth h.val)

end Sys2Proof.Machine
end

