-- ==== Sys2Proof/Machine/Flags.lean ====
section
/-! DEFINITION. Arithmetic results of the loop engine (R356): IEEE 754 binary32 values as their encodings, the fused
multiply-add with rounding to nearest even, and which results count as not finite (R360). The block has no processor flags;
saturation and OVF bits are kept by the counters (Machine/Ops.lean). -/

namespace Sys2Proof

def f32One : Nat := 0x3F800000

/-- A quiet NaN, which stands for every NaN or infinity that an operation with one yields. -/
def f32QNaN : Nat := 0x7FC00000

def f32Negate (b : Nat) : Nat := if f32Neg b then b - 2 ^ 31 else b + 2 ^ 31

def f32Abs (b : Nat) : Nat := if f32Neg b then b - 2 ^ 31 else b

/-- a * b + c rounded once. An exact zero is negative only where both addends are. -/
def f32Fma (a b c : Nat) : Nat :=
  if !f32Finite a || !f32Finite b || !f32Finite c then f32QNaN
  else
    let q := f32Val a * f32Val b + f32Val c
    if q = 0 then (if f32Neg a != f32Neg b && f32Neg c then 2 ^ 31 else 0) else f32OfRat q

def f32Add (a b : Nat) : Nat := f32Fma f32One a b

def f32Sub (a b : Nat) : Nat := f32Fma f32One a (f32Negate b)

/-- The sum of products of two vectors added to a value, in the order of the index. -/
def f32Dot (acc : Nat) (l : List (Nat × Nat)) : Nat := l.foldl (fun acc (x : Nat × Nat) => f32Fma x.1 x.2 acc) acc

/-- Clip to a range; a value that is not finite stays as it is. -/
def f32Clip (lo hi v : Nat) : Nat :=
  if !f32Finite v then v
  else if f32Val v < f32Val lo then lo
  else if f32Val hi < f32Val v then hi
  else v

end Sys2Proof
end

