-- ==== Sys2Proof/Machine/Heads.lean ====
section
/-! DEFINITION. The head modules (chapter 08, R190 to R207; R141, R152, R160, R176): the two ports, time, line slots,
fire times, table banks and CONTROL operations at the head's end of its links. -/

namespace Sys2Proof.Machine

/-- A head's own device time in whole ns: device time with the head's error (R200). -/
def State.headNs (s : State) (h : Nat) : Nat :=
  (((s.devNs * 1000 + s.time.frac * 1000 / 2 ^ 32 : Nat) : Int) + (s.headSide h).err).toNat / 1000

def HeadSide.port (x : HeadSide) (p : Nat) : HPort := x.ports.getD p {}

def HeadSide.setPort (x : HeadSide) (p : Nat) (f : HPort → HPort) : HeadSide := { x with ports := upd x.ports p f }

/-- Line slots of a head (R192): at least 72. -/
def headSlots (h : Nat) : Nat := 72 + Config.headExtraSlots h % (2 ^ 16 - 72)

/-- Add to an 8-bit wrapping count of Table 8.8. -/
def inc8 (n : Nat) : Nat := (n + 1) % 256

def HeadSide.drop1 (x : HeadSide) : HeadSide := { x with discard := inc8 x.discard }

def HeadSide.late1 (x : HeadSide) : HeadSide := { x with late := inc8 x.late }

/-- a lies before b as LSEQ (R25). -/
def seqBefore (a b : Nat) : Bool := decide (0 < fwd32 a b) && decide (fwd32 a b < 2 ^ 31)

def seqReached (named lseq : Nat) : Bool := decide (fwd32 named lseq < 2 ^ 31)

/-! ### Ports (R203, R206) -/

/-- A port is fresh while its lease runs. -/
def State.portFresh (s : State) (p : HPort) : Bool := p.fresh && decide (s.now < p.authNs + p.lease)

/-- The head obeys a port that is fresh now. -/
def State.obeysFresh (s : State) (x : HeadSide) : Bool :=
  match x.obeyed with
  | some p => s.portFresh (x.port p)
  | none => false

/-- Choose the port to obey. -/
def State.chooseObeyed (s : State) (x : HeadSide) : HeadSide :=
  let f0 := s.portFresh (x.port 0)
  let f1 := s.portFresh (x.port 1)
  let e0 := (x.port 0).epoch
  let e1 := (x.port 1).epoch
  if f0 && f1 then
    if epochHigher e0 e1 then { x with obeyed := some 0 }
    else if epochHigher e1 e0 then { x with obeyed := some 1 }
    else
      match x.obeyed with
      | some _ => x
      | none => { x with obeyed := some 0, epochTie := true }
  else if f0 then { x with obeyed := some 0 }
  else if f1 then { x with obeyed := some 1 }
  else { x with obeyed := none }

/-- HEAD_AUTH_RECEIVE. -/
def State.headAuth (s : State) (h p : Nat) (body : Bytes) : State :=
  let x := s.headSide h
  if !frameOk 16 body then s.setHeadSide h x.drop1
  else
    let x := x.setPort p (fun q => { q with
      fresh := true, epoch := getN body 0 4, lease := getN body 4 4, authNs := s.now })
    s.setHeadSide h (s.chooseObeyed x)

/-- HEAD_PORT_LAPSE. -/
def State.headLapse (s : State) (h p : Nat) : State :=
  let x := s.headSide h
  let q := x.port p
  if !q.fresh ∨ s.portFresh q then s
  else s.setHeadSide h (s.chooseObeyed (x.setPort p (fun q => { q with fresh := false })))

/-! ### Time (R200) -/

/-- ERR in 2^-8 ns from an error in ps. -/
def errField (ps : Int) : Nat := bitsOf 32 (ps * 256 / 1000)

/-- HEAD_TIME_RECEIVE: ECHO on the same port; a step, or a correction of at most 0.25 ns. -/
def State.headTime (s : State) (h p : Nat) (body : Bytes) (errPs : Int) : State :=
  let x := s.headSide h
  if !frameOk 24 body then s.setHeadSide h x.drop1
  else
    let t := s.drawNat
    let s := t.2
    let echo := withCrc (layout 20 [(0, 2, getN body 0 2), (2, 1, p), (4, 4, t.1 % (10000 * 256 + 1)), (10, 4, errField errPs)])
    let s := s.emit (.headTx h p 8 echo)
    if x.obeyed.getD 0 ≠ p then s
    else if !x.synced ∨ bitAt (byteAt body 2) 1 then
      s.setHeadSide h { x with synced := true, err := 0, timeLock := false, good := 0, bad := 0 }
    else
      let good := if errPs.natAbs ≤ 500 then x.good + 1 else 0
      let bad := if 1000 < errPs.natAbs then x.bad + 1 else 0
      let lock := if 8 ≤ good then true else if 4 ≤ bad then false else x.timeLock
      s.setHeadSide h { x with
        err := errPs - clampI (-250) 250 errPs, good := min good 8, bad := min bad 4, timeLock := lock }

/-! ### Line slots (R191, R192, R194) -/

/-- A slot is in use until the last waveform of both rows has ended. -/
def HSlot.inUse (c : HSlot) (ns : Nat) : Bool := !(c.firedA && c.firedB && decide (c.endNs ≤ ns))

def HeadSide.slot? (x : HeadSide) (lseq : Nat) : Option HSlot := x.slots.find? (fun c => c.lseq == lseq)

/-- Free the slots whose waveforms have ended. -/
def HeadSide.reap (x : HeadSide) (ns : Nat) : HeadSide := { x with slots := x.slots.filter (fun c => c.inUse ns) }

/-- Change the slot of a line, or take a free one for it; with none free the frame counts as late. -/
def HeadSide.withSlot (x : HeadSide) (cap lseq : Nat) (f : HSlot → HSlot) : HeadSide :=
  match x.slot? lseq with
  | some _ => { x with slots := x.slots.map (fun c => if c.lseq = lseq then f c else c) }
  | none =>
    if x.slots.length < cap then { x with slots := x.slots ++ [f { lseq := lseq }] } else x.late1

def HeadSide.dropSlot (x : HeadSide) (lseq : Nat) : HeadSide := { x with slots := x.slots.filter (fun c => c.lseq ≠ lseq) }

def HeadSide.isCommitted (x : HeadSide) (lseq : Nat) : Bool := (x.slot? lseq).any (·.committed)

/-- The frame is for this head and from the port it obeys. -/
def HeadSide.takes (x : HeadSide) (p hd : Nat) : Bool := decide (x.assigned = some hd) && decide (x.obeyed = some p)

/-- HEAD_LINE_DATA_RECEIVE. -/
def State.headLineData (s : State) (h p : Nat) (body : Bytes) : State :=
  let x := (s.headSide h).reap (s.headNs h)
  if body.length ≠ 2080 ∨ getN body 28 4 ≠ crc32c (body.take 28) then
    let x := { x with hdrErr := inc8 x.hdrErr }
    let x := match x.lastFt with
      | some l => if x.obeyed = some p ∧ !x.isCommitted l then x.withSlot (headSlots h) l (fun c => { c with hdrBad := true }) else x
      | none => x
    s.setHeadSide h x
  else
    let lseq := getN body 0 4
    if !x.takes p (byteAt body 7) ∨ getN body 8 4 ≠ (x.port p).epoch then s.setHeadSide h x.drop1
    else if x.isCommitted lseq then s.setHeadSide h x
    else s.setHeadSide h (x.withSlot (headSlots h) lseq (fun c => { c with
      line := some (getN body 4 2, byteAt body 12, body.drop 32), hdrBad := false }))

/-- A fire time of R190: valid, and as the head holds it; `sec` is the head's own seconds. -/
def fireTimeOf (sec v : Nat) : Option FireTime :=
  if v = 2 ^ 64 - 1 then some .hold
  else if v = 2 ^ 64 - 2 then some .absent
  else if field v 30 2 ≠ 0 ∨ 1000000000 ≤ field v 0 30 then none
  else some (.at (((sec : Int) + sext 32 (fwd32 sec (v / 2 ^ 32))).toNat * 1000000000 + field v 0 30))

def isCancel (v : Nat) : Bool := v == 2 ^ 64 - 2

/-- HEAD_FIRE_TIME_RECEIVE. -/
def State.headFireTime (s : State) (h p : Nat) (body : Bytes) : State :=
  let ns := s.headNs h
  let x := (s.headSide h).reap ns
  let lseq := getN body 0 4
  let fl := byteAt body 4
  let a := fireTimeOf (ns / 1000000000) (getN body 8 8)
  let b := fireTimeOf (ns / 1000000000) (getN body 16 8)
  let hasA := bitAt fl 0
  let hasB := bitAt fl 1
  if !frameOk 32 body ∨ (hasA && a.isNone) ∨ (hasB && b.isNone) ∨ !x.takes p (byteAt body 5) then s.setHeadSide h x.drop1
  else
    let x := if bitAt fl 2 then x else { x with lastFt := some lseq }
    if x.isCommitted lseq then s.setHeadSide h x
    else if (hasA && isCancel (getN body 8 8)) || (hasB && isCancel (getN body 16 8)) then s.setHeadSide h (x.dropSlot lseq)
    else s.setHeadSide h (x.withSlot (headSlots h) lseq (fun c => { c with
      tA := if hasA then a.getD c.tA else c.tA, tB := if hasB then b.getD c.tB else c.tB }))

/-! ### Bound operations (R196, R197) -/

/-- BANK_SWITCH: staged banks become active, and their generations advance by 1 modulo 16. -/
def HeadSide.switchBanks (x : HeadSide) (which : Nat) : HeadSide :=
  let x := if bitAt which 0 then
      { x with waveActive := x.waveStaged.getD x.waveActive, waveStaged := none, waveGen := (x.waveGen + 1) % 16 }
    else x
  if bitAt which 1 then
    { x with trimActive := x.trimStaged.getD x.trimActive, trimStaged := none, trimGen := (x.trimGen + 1) % 16 }
  else x

def HeadSide.takeBound (x : HeadSide) (c : Ctl) : HeadSide :=
  if c.op = 3 then { x with hot := false }
  else if c.op = 4 then x.switchBanks c.arg1
  else if c.op = 5 then { x with inService := true }
  else x

/-- The bound operations whose line a line has reached take effect, in the order they came. -/
def HeadSide.reach (x : HeadSide) (lseq : Nat) : HeadSide :=
  let due := x.bound.filter (fun c => seqReached c.arg0 lseq)
  due.foldl HeadSide.takeBound { x with bound := x.bound.filter (fun c => !seqReached c.arg0 lseq) }

/-- A bound operation arrives: at once with CTL_LATE when its line has been committed. -/
def HeadSide.bindOp (x : HeadSide) (c : Ctl) : HeadSide :=
  if c.op = 4 ∧ !x.inService then x.takeBound c
  else if x.anyCommit ∧ seqReached c.arg0 x.lastCommit then
    { x.takeBound c with ports := x.ports.map (fun p => { p with ctlLate := true }) }
  else { x with bound := x.bound ++ [c] }

/-! ### Firing a row (R141, R160, R174, R176, R193, R194) -/

/-- Pulse k of entry v of a waveform table: none unless VALID. -/
def pulseWord (table : Bytes) (v k : Nat) : Option Nat :=
  let w := getN table (8 + 32 * v + 8 * k) 8
  if bitAt w 63 then some w else none

/-- End of a pulse in ns from the firing instant. -/
def pulseEnd (w : Nat) : Nat := 10 * (field w 36 12 + field w 28 8 + field w 16 12 + field w 8 8)

def pulsesOf (table : Bytes) (v : Nat) : List Nat := (List.range 4).filterMap (pulseWord table v)

/-- Amplitude of a pulse with a nozzle's AMP_TRIM (R160). -/
def trimAmp (amp trim : Int) : Int := clampI (-2048) 2047 (Int.tdiv (amp * (1000 + trim)) 1000)

/-- Group slot of group g of line i (R141), 0 without rotation. -/
def slotShift (slotNs g i : Nat) : Nat := (g + i) % 16 * slotNs

/-- What firing a row of a line does to the nozzles: the waveforms started, the nozzles' ends, those started and the
waveforms skipped as NOZZLE_BUSY. -/
structure RowRun where
  starts : List (Nat × Nat × Nat × List Int) := []
  ends : Array Nat := #[]
  on : List Nat := []
  busy : Nat := 0
  last : Nat := 0

/-- The value of a nozzle in DOTS (Table 8.3). -/
def dotOf (dots : Array Byte) (n : Nat) : Nat := (dots.getD (n / 4) 0).toNat / 4 ^ (n % 4) % 4

/-- One nozzle of a row. `prev` says that it started a waveform on the row's previous line. -/
def HeadSide.nozzle (x : HeadSide) (ps : Array (List Nat)) (dots trims : Array Byte) (prev : Array Bool) (t i : Nat)
    (m : RowRun) (n : Nat) : RowRun :=
  let v := dotOf dots n
  let pl := ps.getD v []
  if pl.isEmpty ∨ (v = 0 ∧ prev.getD n false = true) then m
  else
    let word := unle ((List.range 4).map (fun k => trims.getD (4 * n + k) 0))
    let start := (((t + slotShift x.slotNs (n / 512) i : Nat) : Int) + sext 12 (field word 20 12)).toNat
    if start < m.ends.getD n 0 then { m with busy := m.busy + 1 }
    else
      let e := start + pl.foldl (fun a w => max a (pulseEnd w)) 0
      let amps := pl.map (fun w => trimAmp (sext 12 (field w 48 12)) (sext 8 (field word 12 8)))
      { m with starts := (n, start, v, amps) :: m.starts, ends := m.ends.setIfInBounds n e, on := n :: m.on, last := max m.last e }

/-- Fire row r (0 A, 1 B) of a committed line whose row fire time is t. -/
def State.fireRow (s : State) (h : Nat) (x : HeadSide) (c : HSlot) (r t : Nat) : State × HeadSide :=
  let earlier := fun (d : HSlot) => seqBefore d.lseq c.lseq && !d.committed && !(if r = 0 then d.firedA else d.firedB)
  let lost := (x.slots.filter earlier).length
  let x := { x with slots := x.slots.filter (fun d => !earlier d), late := (x.late + lost) % 256 }
  let ln := c.line.getD (0, 0, [])
  let last := x.rowPrev.getD r (0, [])
  let prev := (if last.1 + 1 = c.lseq ∨ (last.1 = 2 ^ 32 - 1 ∧ c.lseq = 0) then last.2 else []).foldl
    (fun (a : Array Bool) n => a.setIfInBounds n true) (Array.replicate 8192 false)
  let ps := ((List.range 4).map (pulsesOf x.waveActive)).toArray
  let ends0 := if x.nozEnd.isEmpty then Array.replicate 8192 0 else x.nozEnd.toArray
  let run : RowRun := if ps.all (·.isEmpty) then { ends := ends0 } else
    (List.range 4096).foldl (fun m k => x.nozzle ps ln.2.2.toArray x.trimActive.toArray prev t ln.1 m (2 * k + r))
      { ends := ends0 }
  let rows := if x.rowPrev.isEmpty then [(0, []), (0, [])] else x.rowPrev
  let x := { x with
    nozEnd := if run.on.isEmpty then x.nozEnd else run.ends.toList
    rowPrev := upd rows r (fun _ => (c.lseq, run.on))
    busy := (x.busy + run.busy) % 256
    slots := x.slots.map (fun d => if d.lseq = c.lseq then
      { d with
        firedA := d.firedA || r == 0
        firedB := d.firedB || r == 1
        endNs := max d.endNs run.last } else d) }
  (s.emit (.rowFire h c.lseq r run.starts.reverse), x)

def FireTime.ns? : FireTime → Option Nat
  | .at n => some n
  | _ => none

/-- The row to fire first and its time: the earlier of the row fire times a slot holds, row A at a tie. -/
def HSlot.first (c : HSlot) : Option (Nat × Nat) :=
  match c.tA.ns?, c.tB.ns? with
  | some a, some b => if a ≤ b then some (0, a) else some (1, b)
  | some a, none => some (0, a)
  | none, some b => some (1, b)
  | none, none => none

/-- The conditions of R193 but the header's. -/
def State.mayCommit (s : State) (x : HeadSide) (c : HSlot) : Bool :=
  let gen : Bool := match c.line with
    | some ln => decide (field ln.2.1 0 4 = x.waveGen) && decide (field ln.2.1 4 4 = x.trimGen)
    | none => false
  gen && c.tA.ns?.isSome && c.tB.ns?.isSome && s.obeysFresh x && x.timeLock && x.inService && !x.hot

/-- HEAD_LINE_COMMIT. -/
def State.headCommit (s : State) (h lseq : Nat) : State :=
  let ns := s.headNs h
  let x := (s.headSide h).reap ns
  match x.slot? lseq with
  | none => s
  | some c =>
    match c.first with
    | none => s
    | some (r, t) =>
      if c.committed ∨ ns < t then s
      else
        let x := x.reach lseq
        if c.hdrBad && c.line.isNone then s.setHeadSide h (x.dropSlot lseq)
        else if !s.mayCommit x c then s.setHeadSide h (x.dropSlot lseq).late1
        else
          let x := { x with
            slots := x.slots.map (fun d => if d.lseq = lseq then { d with committed := true } else d)
            lastCommit := lseq
            lastCommitNs := s.now
            anyCommit := true
            ports := x.ports.map (fun p => { p with teleDue := true }) }
          let y := s.fireRow h x c r t
          y.1.setHeadSide h y.2

/-- HEAD_ROW_FIRE. -/
def State.headRowFire (s : State) (h lseq r : Nat) : State :=
  let ns := s.headNs h
  let x := s.headSide h
  match x.slot? lseq with
  | none => s
  | some c =>
    match (if r = 0 then c.tA else c.tB).ns? with
    | none => s
    | some t =>
      if !c.committed ∨ (if r = 0 then c.firedA else c.firedB) = true ∨ ns < t then s
      else
        let y := s.fireRow h x c r t
        y.1.setHeadSide h y.2

/-! ### Tables (R197) -/

/-- The assembled table, once every chunk has arrived. -/
def HLoad.whole (l : HLoad) (n : Nat) : Option Bytes := if l.chunks.length = n then some (l.chunks.map (·.2)).flatten else none

/-- Take a chunk: the load, and the staged bank it completes. -/
def HLoad.take (l : HLoad) (staged : Option Bytes) (n chunk crc : Nat) (d : Bytes) : HLoad × Option Bytes :=
  let l := if chunk = 0 then { chunks := [], crc := crc } else l
  let staged := if chunk = 0 then none else staged
  let l := { l with chunks := Tab.insert chunk d (Tab.erase chunk l.chunks), crc := crc }
  match l.whole n with
  | some b => if crc32c b = crc then (l, some b) else (l, staged)
  | none => (l, staged)

/-- HEAD_TABLE_RECEIVE. -/
def State.headTable (s : State) (h p : Nat) (body : Bytes) : State :=
  let x := s.headSide h
  if !frameOk 144 body ∨ x.obeyed ≠ some p then s.setHeadSide h x.drop1
  else
    let t := byteAt body 0
    let k := getN body 2 2
    let d := (body.drop 8).take (min 128 (getN body 4 2))
    let crc := getN body 136 4
    if t = 0 ∧ k < 2 then
      let y := x.waveLoad.take x.waveStaged 2 k crc d
      s.setHeadSide h { x with waveLoad := y.1, waveStaged := y.2 }
    else if t = 1 ∧ k < 256 then
      let y := x.trimLoad.take x.trimStaged 256 k crc d
      s.setHeadSide h { x with trimLoad := y.1, trimStaged := y.2 }
    else s

/-! ### CONTROL operations (Table 8.6, R195) -/

/-- A CONTROL frame from the obeyed port with the port's next CSEQ is applied. -/
def State.headCtl (s : State) (h p cseq : Nat) (obeyed : Bool) (f : HeadSide → HeadSide) : State :=
  let x := s.headSide h
  if (x.port p).cseq + 1 = cseq ∨ ((x.port p).cseq = 2 ^ 16 - 1 ∧ cseq = 0) then
    if obeyed ∧ x.obeyed ≠ some p then s
    else s.setHeadSide h ((f x).setPort p (fun q => { q with cseq := cseq }))
  else s

/-- ASSIGN. -/
def State.headAssign (s : State) (h p cseq n : Nat) : State :=
  let x := s.headSide h
  if x.assigned.any (fun k => k != n % 128) then s
  else s.setHeadSide h (({ x with assigned := some (n % 128) }).setPort p (fun q => { q with cseq := cseq % 2 ^ 16, asn := true }))

/-- RELEASE: out of service at once; every line not committed is dropped. -/
def HeadSide.release (x : HeadSide) : HeadSide :=
  { x with inService := false, slots := x.slots.filter (·.committed), bound := x.bound.filter (fun c => c.op ≠ 5) }

/-- HEAD_HOT_ENTER. -/
def State.headHotEnter (s : State) (h : Nat) (temp : Int) : State :=
  let x := s.headSide h
  s.setHeadSide h { x with temp := temp, hot := x.hot || x.hotLimit.any (fun l => decide (l ≤ temp)) }

/-! ### What a head sends (R198, R207) -/

/-- A port's link is trained; the other card's port is that card's to know. -/
def State.portTrained (s : State) (h p : Nat) : Bool := p != s.chip || (s.headDev h).trained

/-- ENUM body (Table 8.12). -/
def enumBody (h p : Nat) : Bytes :=
  let own := (List.range 44).map (Config.headEnumByte h)
  let b := [(12, 1, 1), (13, 1, p), (14, 2, headSlots h), (16, 2, 8192), (18, 1, 16), (19, 1, 0), (28, 8, 0), (36, 8, 0)].foldl
    (fun (b : Bytes) (f : Nat × Nat × Nat) => splice b f.1 (le f.2.1 f.2.2)) own
  withCrc b

/-- HEAD_ENUM_SEND. -/
def State.headEnum (s : State) (h p : Nat) : State :=
  let x := s.headSide h
  let q := x.port p
  if !s.portTrained h p ∨ q.asn ∨ q.enumNs.any (fun t => decide (s.now < t + 100000)) then s
  else (s.setHeadSide h (x.setPort p (fun q => { q with enumNs := some s.now }))).emit (.headTx h p 10 (enumBody h p))

/-- CRC-32C of a staged bank, 0 for none. -/
def stagedCrc : Option Bytes → Nat
  | some b => crc32c b
  | none => 0

/-- TELEMETRY body (Table 8.8). -/
def State.teleBody (s : State) (x : HeadSide) (p : Nat) : Bytes :=
  let q := x.port p
  let st := b2n x.hot + 2 * b2n x.inService + 4 * x.obeyed.getD 0 + 8 * b2n (s.portFresh (x.port 0)) +
    16 * b2n (s.portFresh (x.port 1)) + 32 * b2n x.timeLock + 64 * b2n x.obeyed.isSome + 128 * b2n q.ctlLate
  let epoch := match x.obeyed with | some o => (x.port o).epoch | none => 0
  withCrc (layout 28 [(0, 4, x.lastCommit), (4, 2, bitsOf 16 x.temp), (6, 1, st), (7, 1, p + 2 * b2n x.epochTie), (8, 4, epoch),
    (12, 2, q.cseq), (14, 1, x.waveGen + 16 * x.trimGen), (16, 4, stagedCrc x.waveStaged), (20, 4, stagedCrc x.trimStaged),
    (24, 1, x.hdrErr), (25, 1, x.late), (26, 1, x.busy), (27, 1, x.discard)])

/-- HEAD_TELEMETRY_SEND. -/
def State.headTele (s : State) (h p : Nat) : State :=
  let x := s.headSide h
  let q := x.port p
  let idle := decide (x.lastCommitNs + 10000 ≤ s.now) && decide (q.teleNs + 10000 ≤ s.now)
  if !s.portTrained h p ∨ !(q.teleDue || idle) then s
  else
    let body := s.teleBody x p
    (s.setHeadSide h (x.setPort p (fun q => { q with teleNs := s.now, teleDue := false, ctlLate := false }))).emit
      (.headTx h p 9 body)

/-! ### The commands -/

def execHeadAuthReceive (h : Head) (port : Fin 2) (body : Bytes) (s : State) : Outcome := .next (s.headAuth h.val port.val body)
def execHeadPortLapse (h : Head) (port : Fin 2) (s : State) : Outcome := .next (s.headLapse h.val port.val)
def execHeadTimeReceive (h : Head) (port : Fin 2) (body : Bytes) (errPs : Int) (s : State) : Outcome :=
  .next (s.headTime h.val port.val body errPs)
def execHeadLineDataReceive (h : Head) (port : Fin 2) (body : Bytes) (s : State) : Outcome :=
  .next (s.headLineData h.val port.val body)
def execHeadFireTimeReceive (h : Head) (port : Fin 2) (body : Bytes) (s : State) : Outcome :=
  .next (s.headFireTime h.val port.val body)
def execHeadTableReceive (h : Head) (port : Fin 2) (body : Bytes) (s : State) : Outcome :=
  .next (s.headTable h.val port.val body)
def execHeadLineCommit (h : Head) (lseq : Nat) (s : State) : Outcome := .next (s.headCommit h.val lseq)
def execHeadRowFire (h : Head) (lseq : Nat) (row : Fin 2) (s : State) : Outcome := .next (s.headRowFire h.val lseq row.val)
def execHeadHotEnter (h : Head) (temp : Int) (s : State) : Outcome := .next (s.headHotEnter h.val temp)
def execHeadEnumSend (h : Head) (port : Fin 2) (s : State) : Outcome := .next (s.headEnum h.val port.val)
def execHeadTelemetrySend (h : Head) (port : Fin 2) (s : State) : Outcome := .next (s.headTele h.val port.val)
def execAssign (h : Head) (port : Fin 2) (cseq arg0 _arg1 : Nat) (s : State) : Outcome :=
  .next (s.headAssign h.val port.val cseq arg0)
def execHotLimit (h : Head) (port : Fin 2) (cseq arg0 _arg1 : Nat) (s : State) : Outcome :=
  .next (s.headCtl h.val port.val cseq true (fun x => { x with hotLimit := some (sext 16 arg0) }))
def execHotClear (h : Head) (port : Fin 2) (cseq arg0 arg1 : Nat) (s : State) : Outcome :=
  .next (s.headCtl h.val port.val cseq true (fun x => x.bindOp ⟨3, arg0 % 2 ^ 32, arg1⟩))
def execBankSwitch (h : Head) (port : Fin 2) (cseq arg0 arg1 : Nat) (s : State) : Outcome :=
  .next (s.headCtl h.val port.val cseq true (fun x => x.bindOp ⟨4, arg0 % 2 ^ 32, arg1⟩))
def execService (h : Head) (port : Fin 2) (cseq arg0 arg1 : Nat) (s : State) : Outcome :=
  .next (s.headCtl h.val port.val cseq true (fun x => x.bindOp ⟨5, arg0 % 2 ^ 32, arg1⟩))
def execRelease (h : Head) (port : Fin 2) (cseq _arg0 _arg1 : Nat) (s : State) : Outcome :=
  .next (s.headCtl h.val port.val cseq true HeadSide.release)
def execTimeAcquire (h : Head) (port : Fin 2) (cseq _arg0 _arg1 : Nat) (s : State) : Outcome :=
  .next (s.headCtl h.val port.val cseq false (fun x => { x with synced := false }))
def execSlots (h : Head) (port : Fin 2) (cseq arg0 _arg1 : Nat) (s : State) : Outcome :=
  .next (s.headCtl h.val port.val cseq true (fun x => { x with slotNs := arg0 % 256 }))

end Sys2Proof.Machine
end

