-- ==== Sys2Proof/Machine/Lanes.lean ====
section
/-! DEFINITION. The lanes' test logic (chapter 09): retraining, bit-slip, the eye monitor, TEST_LOOP, patterns and
loopback. -/

namespace Sys2Proof.Machine

/-- Groups of Table 9.1: 0 HL, 1 PE, 2 CX, 3 TW, 4 EN. -/
def laneGroup (n : Nat) : Nat := if n < 128 then 0 else if n < 144 then 1 else if n < 160 then 2 else if n < 172 then 3 else 4

/-- PE and TW lanes have the F PHY. -/
def laneF (n : Nat) : Bool := laneGroup n == 1 || laneGroup n == 3

/-- The lane is in TEST_LOOP. -/
def State.laneTest (s : State) (n : Nat) : Bool := s.obj (Obj.LANE_MODE n) == 1

/-! ### Retraining and bit-slip (R217, R218) -/

/-- The retrain of a head's lane: training starts anew under block lock. -/
def State.retrainHead (s : State) (h : Nat) : State :=
  let d := s.headDev h
  let s := (s.hlDown h).laneBits h [] [9]
  let s := if d.lock then
      let s := s.setHeadDev h { s.headDev h with lock := true, trainSince := s.now }
      let s := (s.setObj (Obj.HL_STATE h) 1).setBit (Obj.HL_LINK_STATUS h) 0 true
      s.laneBits h [lnCdr, lnLocked, lnAdapting] []
    else s
  s.refreshSets

/-- LANE_RETRAIN. -/
def State.laneRetrain (s : State) (n : Nat) : State × Nat :=
  let g := laneGroup n
  let s := if g = 0 then s else s.calInterrupt 1 n
  if g = 0 then
    if s.inService n then (s.laneBits n [9] [], 0) else (s.retrainHead n, 0)
  else if g = 3 then ((s.eyeAbort n).twinLaneDown (n - 160), 0)
  else ((s.eyeAbort n).emit (.laneTx n 1), 0)

/-- LANE_RETRAIN_IDLE. -/
def State.retrainIdle (s : State) (n : Nat) : State :=
  if laneGroup n = 0 ∧ bitAt (s.objN (Obj.LANE_STATUS n)) 9 ∧ s.barIdle (n / 16) then s.retrainHead n else s

/-- LANE_SLIP: on an HL lane in function mode the block boundary, in TEST_LOOP the checker's word boundary. -/
def State.laneSlip (s : State) (n : Nat) : State × Nat :=
  if laneGroup n = 0 ∨ s.laneTest n then
    let x := s.lane n
    (s.setLane n { x with slip := (x.slip + 1) % 66 }, 0)
  else (s, 0)

/-! ### The eye monitor (R219 to R221) -/

/-- LANE_EYE_START. -/
def State.eyeStart (s : State) (n v : Nat) : State × Nat :=
  if s.obj (Obj.LANE_EYE_STATE n) = 1 then (s, 0x0A)
  else ((s.setLane n { s.lane n with eye := v }).setObj (Obj.LANE_EYE_STATE n) 1, 0)

/-- Length of the run of open points that contains index 32 of 64. -/
def eyeRun (opens : List Bool) : Nat :=
  if opens.getD 32 false then
    ((opens.take 32).reverse.takeWhile id).length + ((opens.drop 32).takeWhile id).length
  else 0

/-- A point of LANE_EYE_MAP that is not open (R220): min(255, 1 + floor(16 log10 d)). -/
def eyeByte (d : Nat) : Nat := ((List.range 255).filter (fun k => decide (10 ^ k ≤ d ^ 16))).length

/-- Disagreements along the centre voltage and along the centre phase. -/
def eyeLines (full : Bool) (d : List Nat) : List Nat × List Nat :=
  if full then ((d.drop 2048).take 64, (List.range 64).map (fun v => d.getD (64 * v + 32) 0))
  else (d.take 64, (d.drop 64).take 64)

/-- EYE_SCAN_END. `dis` are the disagreements of the points: 64 phases and 64 voltages, or 4,096 points. -/
def State.eyeEnd (s : State) (n : Nat) (complete : Bool) (dis : List Nat) : State :=
  if s.obj (Obj.LANE_EYE_STATE n) ≠ 1 then s
  else if !complete then s.eyeAbort n
  else
    let full := (s.lane n).eye == 2
    let th := s.objN (Obj.LANE_EYE_THRESH n)
    let isOpen := fun (d : Nat) => decide (d ≤ th)
    let x := eyeLines full dis
    let w := eyeRun (x.1.map isOpen)
    let h := eyeRun (x.2.map isOpen) * (if laneF n then 3 else 4)
    let s := s.setLane n { s.lane n with eye := 0 }
    let s := ((s.setObj (Obj.LANE_EYE_STATE n) 2).setObj (Obj.LANE_EYE_W n) (w : Nat)).setObj (Obj.LANE_EYE_H n) (h : Nat)
    let s := s.setObj (Obj.LANE_EYE_STAMP n) ((s.stamp : Nat) : Int)
    let s := if full then
        s.setBlob (Obj.LANE_EYE_MAP n) 0
          ((List.range 4096).map (fun i =>
            let d := dis.getD i 0
            BitVec.ofNat 8 (if isOpen d then 0 else eyeByte d)))
      else s
    let low := decide ((w : Int) < s.obj (Obj.LANE_EYE_MIN_W n)) || decide ((h : Int) < s.obj (Obj.LANE_EYE_MIN_H n))
    let was := bitAt (s.objN (Obj.LANE_STATUS n)) 6
    let s := s.setBit (Obj.LANE_STATUS n) 6 low
    if low && !was then s.event 24 0x0901 [(12, 1, n), (16, 1, w), (18, 2, h)] else s

/-! ### TEST_LOOP (R222 to R226) -/

/-- The cameras whose links include CX link x (Camera Ports): those enabled. -/
def State.linkBusy (s : State) (x : Nat) : Bool :=
  (List.range 4).any (fun c =>
    let f := s.objN (Obj.CAM_LINK_FIRST c)
    s.obj (Obj.CAM_ENABLE c) == 1 && decide (f ≤ x) && decide (x < f + s.objN (Obj.CAM_LINKS c)))

/-- The lane's function is held down (Table 9.3); `tr` is the transport of the write. -/
def State.heldDown (s : State) (n tr : Nat) : Bool :=
  let g := laneGroup n
  if g = 0 then s.obj (Obj.HL_ENABLE n) == 0
  else if g = 1 then !s.hq.linkUp && decide (tr < 2)
  else if g = 2 then !s.linkBusy (n - 144)
  else if g = 3 then s.obj Obj.TWIN_ENABLE == 0
  else s.obj (Obj.EN_ENABLE (n - 172)) == 0 && decide (tr = 173 - n)

/-- The checker runs: locked, in TEST_LOOP, and not idle for far-end loopback. -/
def State.patRuns (s : State) (n : Nat) : Bool :=
  s.laneTest n && bitAt (s.objN (Obj.LANE_PAT_STATUS n)) 0 && s.obj (Obj.LANE_LOOP n) != 2

/-- Bring LANE_PRBS_BITS up to now (R224): bits count only while the checker is locked. -/
def State.prbsSync (s : State) (n : Nat) : State :=
  let x := s.lane n
  let s' := if s.patRuns n then s.count (Obj.LANE_PRBS_BITS n) ((s.now - x.since) * s.objN (Obj.LANE_RATE n) / 1000000) else s
  s'.setLane n { x with since := s.now }

/-- The checker loses its lock. -/
def State.prbsUnlock (s : State) (n : Nat) : State := (s.prbsSync n).setBit (Obj.LANE_PAT_STATUS n) 0 false

/-- LANE_MODE. -/
def State.laneModeSet (s : State) (n v tr : Nat) : State × Nat :=
  let same := s.obj (Obj.LANE_MODE n) == (v : Int)
  if v = 1 ∧ !s.heldDown n tr then (s, 0x0A)
  else
    let s := (s.eyeAbort n).prbsUnlock n
    if same then (s, 0)
    else
      let s := (s.setObj (Obj.LANE_MODE n) (v : Nat)).setBit (Obj.LANE_STATUS n) 7 (v == 1)
      let s := if v = 0 then s.setObj (Obj.LANE_RATE n) (Obj.dflt (Obj.LANE_RATE n)) else s
      let s := if laneGroup n = 0 then s.hlDown n else s.laneBits n [] [lnCdr, lnLocked, lnTrained, lnAdapting]
      (s.event 24 0x0902 [(12, 1, n), (13, 1, v)], 0)

/-- LANE_LOOP. -/
def State.laneLoopSet (s : State) (n v : Nat) : State × Nat :=
  if !s.laneTest n then (s, 0x0A)
  else (((s.eyeAbort n).prbsUnlock n).setObj (Obj.LANE_LOOP n) (v : Nat), 0)

/-- LANE_PAT_GEN, LANE_PAT_CHK: TEST_LOOP only. A new pattern makes the checker lock anew. -/
def State.lanePat (s : State) (n k v : Nat) : State × Nat :=
  if !s.laneTest n then (s, 0x0A) else ((s.prbsUnlock n).setObj k (v : Nat), 0)

/-- LANE_RATE: in TEST_LOOP, within the PHY's range (R213). -/
def State.laneRateSet (s : State) (n v : Nat) : State × Nat :=
  if !s.laneTest n then (s, 0x0A)
  else if laneF n ∧ (v < 2500000 ∨ 32000000 < v) ∨ !laneF n ∧ (v < 1000000 ∨ 16000000 < v) then (s, 0x04)
  else ((s.prbsSync n).setObj (Obj.LANE_RATE n) (v : Nat), 0)

/-- The generator drives the lane. -/
def State.patOn (s : State) (n : Nat) : Bool := s.laneTest n && s.obj (Obj.LANE_PAT_GEN n) != 0 && s.obj (Obj.LANE_LOOP n) != 2

/-- LANE_INJECT. In near-end loopback every inverted bit reaches the lane's own checker. -/
def State.laneInjectSet (s : State) (n v : Nat) : State × Nat :=
  if !s.patOn n then (s, 0x0A)
  else
    let k := if v = 2 then s.objN (Obj.LANE_INJ_BURST n) else 1
    let s := s.emit (.laneTx n (16 + k))
    (if s.obj (Obj.LANE_LOOP n) = 1 ∧ s.patRuns n then (s.prbsSync n).count (Obj.LANE_PRBS_ERR n) k else s, 0)

/-- PRBS_CHECKER_LOCK. In near-end loopback the pattern received is the generator's. -/
def State.checkerLock (s : State) (n : Nat) : State :=
  let near := s.obj (Obj.LANE_LOOP n) == 1
  if !s.laneTest n ∨ s.obj (Obj.LANE_PAT_CHK n) = 0 ∨ s.obj (Obj.LANE_LOOP n) = 2 ∨ bitAt (s.objN (Obj.LANE_PAT_STATUS n)) 0 ∨
      (near ∧ s.obj (Obj.LANE_PAT_GEN n) ≠ s.obj (Obj.LANE_PAT_CHK n)) then s
  else (s.setLane n { s.lane n with since := s.now }).setBit (Obj.LANE_PAT_STATUS n) 0 true

/-- PRBS_LOCK_LOSS: `errors` errors within `bits` consecutive bits. -/
def State.checkerLoss (s : State) (n bits errors : Nat) : State :=
  if !s.patRuns n ∨ errors < 512 ∨ 1024 < bits then s
  else ((s.prbsSync n).count (Obj.LANE_PRBS_ERR n) errors).count (Obj.LANE_PRBS_RELOCK n) 1

def execLaneRetrainIdle (n : LaneNo) (s : State) : Outcome := .next (s.retrainIdle n.val)
def execEyeScanEnd (n : LaneNo) (complete : Bool) (disagreements : List Nat) (s : State) : Outcome :=
  .next (s.eyeEnd n.val complete disagreements)
def execPrbsLockLoss (n : LaneNo) (bits errors : Nat) (s : State) : Outcome := .next (s.checkerLoss n.val bits errors)
def execPrbsCheckerLock (n : LaneNo) (s : State) : Outcome := .next (s.checkerLock n.val)

end Sys2Proof.Machine
end

