-- ==== Sys2Proof/Machine/Cameras.lean ====
section
/-! DEFINITION. The camera ports (chapter 10): connection, triggers, frames and their marks, settings and epochs, and
register access. -/

namespace Sys2Proof.Machine

def State.cam (s : State) (c : Nat) : Cam := Tab.get {} s.cams c

def State.setCam (s : State) (c : Nat) (x : Cam) : State := { s with cams := Tab.set {} s.cams c x }

def camOff : Int := 0
def camDiscovery : Int := 1
def camConfig : Int := 2
def camAcquiring : Int := 3
def camLost : Int := 4
def camRefused : Int := 5

def State.camState (s : State) (c : Nat) : Int := s.obj (Obj.CAM_STATE c)

/-- FRAME_MARK bits (Table 10.2). -/
def fmShort : Nat := 0
def fmLong : Nat := 1
def fmLink : Nat := 2
def fmHeader : Nat := 3
def fmLost : Nat := 4
def fmTwin : Nat := 5
def fmSettings : Nat := 6

def Frame.mark (f : Frame) (i : Nat) : Frame := { f with marks := putBit f.marks i true }

/-- Bytes of one camera line. -/
def State.camLineBytes (s : State) (c : Nat) : Nat :=
  s.objN (Obj.CAM_WIDTH c) * (if s.obj (Obj.CAM_PIXEL_FORMAT c) = 1 then 3 else 1)

/-! ### Image ranges (R236) -/

/-- First and last image pixel of a camera, with the values a list of staged items would give. -/
def State.camRange (s : State) (l : List Staged) (c : Nat) : Nat × Nat :=
  let v := fun (k : Nat) => match l.find? (fun x => x.key == k) with | some x => unle x.bytes | none => s.objN k
  let x0 := v (Obj.CAM_X0 c)
  (x0, x0 + v (Obj.CAM_PX_LAST c) - v (Obj.CAM_PX_FIRST c))

/-- The ranges of a set of cameras end within the image and do not overlap. -/
def State.rangesOk (s : State) (l : List Staged) (cams : List Nat) : Bool :=
  cams.all (fun c =>
    decide ((s.camRange l c).2 ≤ 32287) &&
    cams.all (fun d => c == d || decide ((s.camRange l c).2 < (s.camRange l d).1) || decide ((s.camRange l d).2 < (s.camRange l c).1)))

def State.camsEnabled (s : State) : List Nat := (List.range 4).filter (fun c => s.obj (Obj.CAM_ENABLE c) == 1)

/-! ### Sets of the FRAME class (R244, R269) -/

/-- A Nimbus object: an engine object or a camera's Nimbus table. -/
def isNimbusObj (k : Nat) : Bool := isNimbusKey k || (decide (0x6400 ≤ k / 256) && decide (k / 256 < 0x6500) && decide (k / 256 % 0x40 = 2))

/-- Cameras whose own objects a set holds. -/
def CommitSet.ownCams (c : CommitSet) : Nat := itemsMask (fun k => if isNimbusKey k then 0 else keyCams k) c.items

/-- What binding has done at one frame start. -/
structure FrameAcc where
  st : State
  held : Nat := 0

/-- One pending FRAME set at the frame start of a job on camera c. -/
def frameBind (c job : Nat) (acc : FrameAcc) (x : CommitSet) : FrameAcc :=
  let s := acc.st
  let apply := fun (first : Bool) =>
    let items := x.items.filter (fun i => if isNimbusKey i.key then first else bitAt (keyCams i.key) c)
    let done := x.doneCams ||| 2 ^ c
    let s := s.applyFrame items
    let s := s.mapPending (fun d => if d.number = x.number then { d with boundJob := some job, doneCams := done } else d)
    if x.ownCams &&& done = x.ownCams then { acc with st := s.finishSet x.number 3 } else { acc with st := s }
  match x.boundJob with
  | some j => if j = job ∧ bitAt x.ownCams c ∧ !bitAt x.doneCams c then apply false else { acc with held := acc.held ||| x.cams }
  | none =>
    let nim := x.items.any (fun i => isNimbusObj i.key)
    let begun := (List.range 4).any (fun d => (nim || bitAt x.cams d) && (s.cam d).frames.any (fun f => f.job == job))
    let here := bitAt x.cams c
    let ready := (List.range 4).all (fun d => !bitAt x.ownCams d || s.camState d == camAcquiring)
    if !here ∨ acc.held &&& x.cams ≠ 0 ∨ begun ∨ !ready then { acc with held := acc.held ||| x.cams }
    else if !s.rangesOk x.items s.camsEnabled then { acc with st := s.finishSet x.number 4 }
    else apply true

/-- Bind and apply the pending FRAME sets at a frame start. -/
def State.bindFrame (s : State) (c job : Nat) : State :=
  ((s.toa.pending.filter (fun x => x.cls == 3)).foldl (frameBind c job) { st := s }).st

/-! ### The settings of a page (Table 11.8) -/

def isCamKey (c k : Nat) : Bool := decide (0x6400 + 0x40 * c ≤ k / 256) && decide (k / 256 < 0x6400 + 0x40 * (c + 1))

/-- A page's copy of the Nimbus objects in force. -/
def State.newPage (s : State) (job : Nat) : NimPage :=
  let keep := fun (k : Nat) => decide (0x6400 ≤ k / 256) && decide (k / 256 < 0x6600)
  { job := job
    objs := s.objs.filter (fun e => keep e.1)
    blobs := s.blobs.filter (fun e => keep (e.1 / 2 ^ 24))
    committed := s.nim.primaries
    regAlong := s.nim.reg
    regAcross := s.nim.regAcross }

/-- Open a job's page at its first frame start; at each further camera's frame start take that camera's objects. -/
def State.openPage (s : State) (c job : Nat) : State :=
  match s.nim.pages.find? (fun p => p.job == job) with
  | none => { s with nim := { s.nim with pages := s.nim.pages ++ [s.newPage job] } }
  | some _ =>
    let n := s.newPage job
    { s with nim := { s.nim with pages := s.nim.pages.map (fun p => if p.job = job then
        { p with
          objs := p.objs.filter (fun e => !isCamKey c e.1) ++ n.objs.filter (fun e => isCamKey c e.1)
          blobs := p.blobs.filter (fun e => !isCamKey c (e.1 / 2 ^ 24)) ++ n.blobs.filter (fun e => isCamKey c (e.1 / 2 ^ 24)) }
        else p) } }

/-! ### Triggers (R232 to R234) -/

/-- Line pitches of one raster line. -/
def State.pitchRatio (s : State) : Nat := if s.obj Obj.FFY_LPI_MODE = 1 then 2 else 1

/-- H: camera lines of a page. -/
def State.camHeight (s : State) (lines pitches : Nat) : Nat := (lines * s.pitchRatio + pitches - 1) / pitches

/-- Position of camera line m less half a camera line, from Y_j(0), the pitches and the line pitch (Q32). -/
def edgePos (y0 : Int) (pitches : Nat) (lam : Int) (m : Nat) : Int :=
  y0 + (m : Int) * (pitches : Int) * lam - (pitches : Int) * lam / 2

def Frame.endPos (f : Frame) : Int := edgePos f.base f.pitches f.lambda f.height

def Frame.linePos (f : Frame) : Int := f.base + (f.nextTrig : Int) * (f.pitches : Int) * f.lambda

/-- Y_j(0) of a job on camera c. -/
def State.camY0 (s : State) (c : Nat) (j : Job) : Option Int := (j.bar 0).start.map (fun st => st + s.obj (Obj.CAM_OFFSET c))

/-- Frame-start position of a job on camera c. -/
def State.frameStartPos (s : State) (c : Nat) (j : Job) : Option Int :=
  (s.camY0 c j).map (fun y => edgePos y (s.objN (Obj.CAM_LINE_PITCHES c)) (s.obj Obj.FFY_LINE_PITCH) 0)

/-- The next job whose frame camera c has not started: it occupies space, has lines, and its verdict is outstanding. -/
def State.nextFrameJob (s : State) (c : Nat) : Option Job :=
  let x := s.cam c
  s.hq.jobs.find? (fun j => j.onWeb && (j.bar 0).start.isSome && !(j.st == .aborted && j.noLine) && j.verdict.isNone &&
    !x.skip.contains j.id && !x.frames.any (fun f => f.job == j.id))

/-- Next trigger of a camera. -/
inductive Trig
  | start (j : Job)
  | finish (f : Frame)
  | line (f : Frame)

/-- The triggers that may come next, with their positions; a frame end comes before a frame start at its place. -/
def State.trigs (s : State) (c : Nat) : List (Int × Trig) :=
  let x := s.cam c
  let going := x.frames.filter (fun f => f.endNs.isNone && !f.closed)
  let lines := if s.obj (Obj.CAM_TRIG_SRC c) = 0xFF then
      (going.filter (fun f => decide (f.nextTrig < f.height))).map (fun f => (f.linePos, Trig.line f))
    else []
  let starts := match s.nextFrameJob c with
    | some j => match s.frameStartPos c j with | some p => [(p, Trig.start j)] | none => []
    | none => []
  going.map (fun f => (f.endPos, Trig.finish f)) ++ lines ++ starts

def firstTrig : List (Int × Trig) → Option (Int × Trig)
  | [] => none
  | e :: t => match firstTrig t with | some f => if f.1 < e.1 then some f else some e | none => some e

def State.mapFrame (s : State) (c number : Nat) (f : Frame → Frame) : State :=
  let x := s.cam c
  s.setCam c { x with frames := x.frames.map (fun g => if g.number = number ∧ !g.closed then f g else g) }

/-- The first compare target past a position (2^-16 count), walking the list from where it stands (R234). -/
def State.targetAfter (s : State) (k : Nat) (p : Int) : Nat → Nat → Int → Option Int
  | 0, _, _ => none
  | fuel + 1, e, last =>
    let t := last + ((s.listEntry k e).2 : Int)
    if p < t then some t else s.targetAfter k p fuel (if e + 1 < s.listLen k then e + 1 else 0) t

/-- FIRST_POS of a frame, and whether its lines are lost for want of a target within one step. -/
def State.firstPos (s : State) (c : Nat) (y0 : Int) (pitches : Nat) (lam : Int) : Int × Bool :=
  let src := s.objN (Obj.CAM_TRIG_SRC c)
  if src = 0xFF then (0, false)
  else
    let x := s.cmp src
    let st := edgePos y0 pitches lam 0 / 65536
    if !x.armed then (0, true)
    else
      match s.targetAfter src st (s.cmpFuel src st x.last + s.listLen src) x.entry x.last with
      | none => (0, true)
      | some t => (t - y0 / 65536, decide ((pitches : Int) * lam / 65536 < t - st))

/-- A frame starts: pending sets, its epoch (R241), and its record (R237, R240). -/
def State.startFrame (s : State) (c : Nat) (j : Job) : State :=
  let s := (s.bindFrame c j.id).openPage c j.id
  let x := s.cam c
  let live := s.camState c == camAcquiring
  let pitches := s.objN (Obj.CAM_LINE_PITCHES c)
  let lam := s.obj Obj.FFY_LINE_PITCH
  let y0 := (s.camY0 c j).getD 0
  let fp := s.firstPos c y0 pitches lam
  let took := if live then (x.due.filter (· == 0)).length else 0
  let epoch := (s.objN (Obj.CAM_SET_EPOCH c) + took) % 2 ^ 32
  let number := if live then x.next else s.objN (Obj.CAM_FRAME_NO c)
  let f : Frame :=
    { job := j.id, number := number, epoch := epoch, firstPos := fp.1, height := s.camHeight j.lines pitches
      pitches := pitches, base := y0, lambda := lam }
  let f := if fp.2 then f.mark fmHeader else f
  let f := if x.prevEpoch.any (fun e => e != epoch) then f.mark fmSettings else f
  let s := s.setCam c { x with
    frames := x.frames ++ [f]
    next := if live then (number + 1) % 2 ^ 32 else x.next
    due := if live then (x.due.filter (fun k => k ≠ 0)).map (fun k => k - 1) else x.due
    prevEpoch := some epoch }
  if !live then s
  else
    let s := (s.setObj (Obj.CAM_FRAME_NO c) (number : Nat)).setObj (Obj.CAM_SET_EPOCH c) (epoch : Nat)
    let s := if 0 < took then s.event 24 0x0A06 [(12, 1, c), (16, 4, number), (20, 4, epoch)] else s
    (s.forward (.camFrame c j.id number epoch)).emit (.camTx c 1 0 [])

/-! ### Closing frames (R235, R238, R239) -/

/-- NO_DATA lines of a frame. -/
def Frame.noData (f : Frame) : Nat :=
  if bitAt f.marks fmHeader || bitAt f.marks fmLost && f.lines.isEmpty then f.height
  else f.height - (f.lines.filter Option.isSome).length

/-- Close a frame: SHORT, counters and CAM_FRAME_MARK. -/
def State.closeFrame (s : State) (c : Nat) (f : Frame) : State :=
  let miss := f.height - f.lines.length
  let f := if 0 < miss then f.mark fmShort else f
  let f := { f with closed := true }
  let x := s.cam c
  let s := s.setCam c { x with frames := x.frames.map (fun g => if g.number = f.number ∧ g.job = f.job ∧ !g.closed then f else g) }
  let s := (s.count (Obj.CAM_FRAMES c) 1).count (Obj.CAM_NODATA_LINES c) miss
  let s := if bitAt f.marks fmShort then s.count (Obj.CAM_SHORT_CNT c) 1 else s
  let s := if bitAt f.marks fmLong then s.count (Obj.CAM_LONG_CNT c) 1 else s
  if f.marks % 32 = 0 then s
  else
    s.event (s.jobRing f.job) 0x0A04 [(12, 4, f.job), (16, 1, c), (17, 1, f.marks), (18, 2, f.noData), (20, 4, f.number),
      (24, 2, min f.extra 0xFFFF)]

/-- The camera is LOST: 1 no traffic, 2 lock lost, 3 disabled. Its open frames close, marked LOST. -/
def State.camIsLost (s : State) (c cause : Nat) : State :=
  let x := s.cam c
  let opens := x.frames.filter (fun f => !f.closed)
  let number := match opens with | f :: _ => f.number | [] => s.objN (Obj.CAM_FRAME_NO c)
  let s := s.setCam c { x with gone := true, reg := none }
  let s := s.setObj (Obj.CAM_STATE c) camLost
  let s := s.event 24 0x0A02 [(12, 1, c), (13, 1, cause), (16, 4, number)]
  opens.foldl (fun s f => s.closeFrame c (f.mark fmLost)) s

/-- CAM_TRIGGER_SEND: the camera's next trigger, once its packet is to start. A camera that is lost has its later frames
passed on, marked LOST and without data. -/
def State.camTrigger (s : State) (c : Nat) : State :=
  let live := s.camState c == camAcquiring
  if !s.hasAuthority || !s.ready 9 || !(live || (s.cam c).gone) then s
  else
    match firstTrig (s.trigs c) with
    | none => s
    | some (p, t) =>
      match s.tpredQ p with
      | none => s
      | some at_ =>
        let begin := at_ - s.objN (Obj.CAM_TRIG_LAT c)
        if s.now < begin then s
        else
          let busyTo := s.now + Config.trigPacketNs
          let sent := fun (s : State) => s.setCam c { s.cam c with trigBusy := busyTo }
          match t with
          | .start j =>
            let s := s.startFrame c j
            if live then sent s
            else
              match ((s.cam c).frames.filter (fun f => !f.closed)).getLast? with
              | some f => s.closeFrame c (f.mark fmLost)
              | none => s
          | .finish f =>
            let lanes := (List.range (s.objN (Obj.CAM_LINKS c))).map (fun i => 144 + s.objN (Obj.CAM_LINK_FIRST c) + i)
            let s := lanes.foldl (fun s n => s.jumpPhase n) s
            sent ((s.mapFrame c f.number (fun g => { g with endNs := some at_ })).emit (.camTx c 2 0 []))
          | .line f =>
            let s' := s.mapFrame c f.number (fun g => { g with nextTrig := g.nextTrig + 1 })
            if begin < (s.cam c).trigBusy then s' else sent (s'.emit (.camTx c 3 0 []))

/-! ### Lines (R235, R238) -/

/-- A packet of the camera arrives. -/
def State.camPacket (s : State) (c : Nat) : State := s.setCam c { s.cam c with lastPkt := s.now }

/-- CAM_CRC_ERR of a camera's link. -/
def camCrcErr (c link : Nat) : Nat :=
  if link = 0 then Obj.CAM_CRC_ERR_0 c else if link = 1 then Obj.CAM_CRC_ERR_1 c
  else if link = 2 then Obj.CAM_CRC_ERR_2 c else Obj.CAM_CRC_ERR_3 c

/-- CAM_LINE_RECEIVE: a line goes to the oldest frame that has not closed. -/
def State.camLine (s : State) (c link : Nat) (px : Bytes) (ok : Bool) : State :=
  if s.camState c ≠ camAcquiring then s
  else
    let s := s.camPacket c
    let s := if ok then s else s.count (camCrcErr c link) 1
    match (s.cam c).frames.find? (fun f => !f.closed) with
    | none => s.count (Obj.CAM_EXTRA_LINES c) 1
    | some f =>
      let f' := if ok then f else f.mark fmLink
      if f.height ≤ f.lines.length then
        (s.mapFrame c f.number (fun _ => { f'.mark fmLong with extra := f.extra + 1 })).count (Obj.CAM_EXTRA_LINES c) 1
      else
        let fits := px.length == s.camLineBytes c
        let f' := if ok && !fits then f'.mark fmHeader else f'
        s.mapFrame c f.number (fun _ => { f' with lines := f.lines ++ [if ok && fits then some px else none] })

/-- CAM_FRAME_CLOSE. -/
def State.camClose (s : State) (c : Nat) (marker : Bool) : State :=
  match (s.cam c).frames.find? (fun f => !f.closed) with
  | none => s
  | some f =>
    let due := f.endNs.any (fun t => decide (t + 1000 * s.objN (Obj.CAM_CLOSE_US c) ≤ s.now))
    if marker then if s.camState c = camAcquiring then (s.camPacket c).closeFrame c f else s
    else if due then s.closeFrame c f
    else s

/-- CAM_TIMEOUT. -/
def State.camTimeout (s : State) (c : Nat) : State :=
  if s.camState c = camAcquiring ∧ (s.cam c).lastPkt + s.objN (Obj.CAM_TIMEOUT c) * msNs ≤ s.now then s.camIsLost c 1 else s

/-- CAM_LINK_LOCK_LOSS. -/
def State.camUnlock (s : State) (c link : Nat) : State :=
  let f := s.objN (Obj.CAM_LINK_FIRST c)
  if link < f ∨ f + s.objN (Obj.CAM_LINKS c) ≤ link ∨ s.camState c = camOff then s
  else
    let s := ((s.count (Obj.LANE_LOCK_LOSS_CNT (144 + link)) 1).eyeAbort (144 + link)).calInterrupt 1 (144 + link)
    let s := s.laneBits (144 + link) [] [lnCdr, lnLocked]
    if s.camState c = camAcquiring then s.camIsLost c 2 else s

/-! ### Connection (R229 to R231) -/

/-- A write of CAM_ENABLE. A write of 1 to a camera in DISCOVERY, CONFIG or ACQUIRING changes nothing. -/
def State.camEnableSet (s : State) (c v : Nat) : State × Nat :=
  if v = 0 then
    let s := if s.camState c = camAcquiring then s.camIsLost c 3 else s
    let s := s.setCam c { s.cam c with reg := none }
    (((s.setObj (Obj.CAM_ENABLE c) 0).setObj (Obj.CAM_STATE c) camOff).setObj (Obj.CAM_REG_STATUS c) 0, 0)
  else if s.camState c = camDiscovery ∨ s.camState c = camConfig ∨ s.camState c = camAcquiring then (s, 0)
  else
    let f := s.objN (Obj.CAM_LINK_FIRST c)
    let n := s.objN (Obj.CAM_LINKS c)
    let links := (List.range n).map (fun i => f + i)
    let shared := (List.range 4).any (fun d => d != c && s.obj (Obj.CAM_ENABLE d) == 1 &&
      links.any (fun x => decide (s.objN (Obj.CAM_LINK_FIRST d) ≤ x) &&
        decide (x < s.objN (Obj.CAM_LINK_FIRST d) + s.objN (Obj.CAM_LINKS d))))
    let cams := if s.camsEnabled.contains c then s.camsEnabled else c :: s.camsEnabled
    if 16 < f + n ∨ shared ∨ !s.rangesOk [] cams then (s, 0x04)
    else if links.any (fun x => s.laneTest (144 + x)) then (s, 0x0A)
    else
      let s := s.setCam c { s.cam c with next := 0, prevEpoch := none }
      ((s.setObj (Obj.CAM_ENABLE c) 1).setObj (Obj.CAM_STATE c) camDiscovery, 0)

/-- CAM_DISCOVERY_DONE. -/
def State.camDiscovered (s : State) (c : Nat) (d : Discovery) : State :=
  if s.camState c ≠ camDiscovery then s
  else
    let n := s.objN (Obj.CAM_LINKS c)
    let cause := if d.links ≠ n then 1 else if !d.speedOk then 2 else if !d.masterOk then 3 else 0
    if cause ≠ 0 then (s.setObj (Obj.CAM_STATE c) camRefused).event 24 0x0A03 [(12, 1, c), (13, 1, cause)]
    else
      let s := (List.range n).foldl
        (fun s i => s.laneBits (144 + s.objN (Obj.CAM_LINK_FIRST c) + i) [lnSignal, lnCdr, lnLocked] []) s
      (s.setObj (Obj.CAM_STATE c) camConfig).event 24 0x0A01 [(12, 1, c), (13, 1, n)]

/-- CAM_ACQUIRE: in CONFIG only. Pages whose frame-start position the web has reached have no frame. -/
def State.camAcquireSet (s : State) (c : Nat) : State × Nat :=
  if s.camState c ≠ camConfig then (s, 0x0A)
  else
    let past := s.hq.jobs.filter (fun j => match s.frameStartPos c j with
      | some p => decide (p ≤ s.ffy.hwm * 2 ^ 32)
      | none => false)
    let s := s.setCam c { s.cam c with gone := false, skip := past.map (·.id), lastPkt := s.now }
    (s.setObj (Obj.CAM_STATE c) camAcquiring, 0)

/-! ### Registers (R241 to R243) -/

/-- Send a control request. -/
def State.camRequest (s : State) (c op tag : Nat) (data : Bytes) : State :=
  s.emit (.camTx c (16 + op) tag (le 4 (s.objN (Obj.CAM_REG_ADDR c)) ++ le 2 (s.objN (Obj.CAM_REG_LEN c)) ++ data))

/-- A write of CAM_REG_OP. -/
def State.camRegOp (s : State) (c op : Nat) : State × Nat :=
  let st := s.camState c
  if s.obj (Obj.CAM_REG_STATUS c) = 1 ∨ !(st = camConfig ∨ st = camAcquiring) then (s, 0x0A)
  else
    let x := s.cam c
    let tag := (x.tag + 1) % 256
    let data := if op = 1 then [] else s.blob (Obj.CAM_REG_DATA c) 0 (s.objN (Obj.CAM_REG_LEN c))
    let s := s.setCam c { x with tag := tag, reg := some (op, tag, 1, s.now, data) }
    ((s.setObj (Obj.CAM_REG_STATUS c) 1).camRequest c op tag data, 0)

/-- CAM_REG_ACK. -/
def State.camAck (s : State) (c tag : Nat) (ok : Bool) (data : Bytes) : State :=
  let x := s.cam c
  match x.reg with
  | none => s
  | some (op, t, _, _, _) =>
    if t ≠ tag then s
    else
      let due := if ok ∧ op = 3 then x.due ++ [s.objN (Obj.CAM_SET_LATENCY c)] else x.due
      let s := s.setCam c { x with reg := none, lastPkt := s.now, due := due }
      let s := if ok ∧ op = 1 then s.setBlob (Obj.CAM_REG_DATA c) 0 (slice data 0 (s.objN (Obj.CAM_REG_LEN c))) else s
      s.setObj (Obj.CAM_REG_STATUS c) (if ok then 2 else 3)

/-- CAM_REG_RETRY. -/
def State.camRetry (s : State) (c : Nat) : State :=
  let x := s.cam c
  match x.reg with
  | none => s
  | some (op, tag, n, t, data) =>
    if s.now < t + 50 * msNs then s
    else if 3 ≤ n then (s.setCam c { x with reg := none }).setObj (Obj.CAM_REG_STATUS c) 4
    else (s.setCam c { x with reg := some (op, tag, n + 1, s.now, data) }).camRequest c op tag data

/-- CAM_EVENT. -/
def State.camEvent (s : State) (c ev : Nat) (data : Bytes) : State :=
  if s.camState c ≠ camConfig ∧ s.camState c ≠ camAcquiring then s
  else
    (s.camPacket c).push 24 (Sys2Proof.splice (s.eventBytes 0x0A05 0 0 [(12, 1, c), (14, 2, ev)]) 16 (slice data 0 12))

def execCamDiscoveryDone (c : CamNo) (d : Discovery) (s : State) : Outcome := .next (s.camDiscovered c.val d)
def execCamLineReceive (c : CamNo) (link : Fin 4) (pixels : Bytes) (crcOk : Bool) (s : State) : Outcome :=
  .next (s.camLine c.val link.val pixels crcOk)
def execCamRegAck (c : CamNo) (tag : Nat) (ok : Bool) (data : Bytes) (s : State) : Outcome := .next (s.camAck c.val tag ok data)
def execCamRegRetry (c : CamNo) (s : State) : Outcome := .next (s.camRetry c.val)
def execCamEvent (c : CamNo) (event : Nat) (data : Bytes) (s : State) : Outcome := .next (s.camEvent c.val event data)
def execCamHeartbeatReceive (c : CamNo) (s : State) : Outcome := .next (s.camPacket c.val)

end Sys2Proof.Machine
end

