-- ==== Sys2Proof/Machine/Defects.lean ====
section
/-! DEFINITION. The defect map on Nimbus's evidence (R169 to R171, Table 7.1): what a judged band and a posted verdict do
to the pairs of a bar. -/

namespace Sys2Proof.Machine

/-- Open nozzles of a pair: GOOD or SUSPECT. -/
def State.openNozzles (s : State) (h c : Nat) : List Nat := [2 * c, 2 * c + 1].filter (fun n => decide (s.nozStatus h n ≤ 1))

/-- A change to DEAD of the pair waits for its page boundary. -/
def State.deadWaits (s : State) (h c : Nat) : Bool := s.lcw.dead.any (fun d => d.head == h && d.noz / 2 == c)

/-- The open nozzles of a pair change status at once. -/
def State.pairStatus (s : State) (h c st job loss : Nat) : State :=
  (s.openNozzles h c).foldl (fun s n => s.deviceStatus h n st job loss) s

/-- A pair returns to GOOD: its observation ends, and its proposals are withdrawn (R280). -/
def State.pairGood (s : State) (h c job : Nat) : State :=
  let s := (s.pairStatus h c nozGood job 0).setPair h c {}
  (s.withdrawNozzle h (2 * c)).withdrawNozzle h (2 * c + 1)

/-- A nozzle is to become DEAD: at its page boundary, or after the host's approval (CAL_APPROVE bit 0). -/
def State.toDead (s : State) (h n job loss : Nat) : State :=
  if bitAt (s.objN Obj.CAL_APPROVE) 0 then s.propose 5 h (n : Nat) job loss
  else s.deadDue h n (s.nozStatus h n) job loss

/-- Several nozzles of a pair are to become DEAD. Under approval the pair stays SUSPECT. -/
def State.deadAll (s : State) (h c : Nat) (ns : List Nat) (job loss : Nat) : State :=
  let s := ns.foldl (fun s n => s.toDead h n job loss) s
  if bitAt (s.objN Obj.CAL_APPROVE) 0 then s.setPair h c { s.pair h c with state := 1, probe := 0 } else s.setPair h c {}

/-- PROBE_RESULT, journaled: 0 row A dead, 1 row B dead, 2 repeated. -/
def State.probeResult (s : State) (h c job loss res : Nat) : State :=
  s.eventJ (s.jobRing job) 0x0702 8 [(12, 1, h), (14, 2, c), (16, 4, job), (20, 1, loss), (21, 1, res)]

/-- A judged probe band: row A dead at a loss of at least LCW_BOTH_LOSS, else row B. The other nozzle is GOOD. -/
def State.probeJudged (s : State) (h c job loss : Nat) : State :=
  let a := decide ((s.objN (Obj.LCW_BOTH_LOSS (h / 16))) ≤ loss)
  let dead := if a then 2 * c else 2 * c + 1
  let good := if a then 2 * c + 1 else 2 * c
  let s := s.probeResult h c job loss (b2n (!a))
  let s := if s.nozStatus h good = nozRetired then s else s.deviceStatus h good nozGood job loss
  s.deadAll h c (if s.nozStatus h dead = nozRetired then [] else [dead]) job loss

/-- One pair judged in a band of a job: suspected with a loss in percent, or not (Table 7.1). -/
def State.judgePair (s : State) (h c job band : Nat) (loss : Option Nat) : State :=
  let p := s.pair h c
  let s := if p.state = 0 then s else s.setPair h c { p with pages := 0 }
  let p := s.pair h c
  if s.deadWaits h c then s
  else if p.state = 3 ∧ p.probe = job ∧ band = 0 then s.probeJudged h c job (loss.getD 0)
  else
    match loss with
    | some l =>
      let ns := s.openNozzles h c
      if p.state = 0 then
        if ns.isEmpty then s else (s.pairStatus h c nozSuspect job l).setPair h c { state := 1 }
      else if p.state = 1 then
        let both := decide ((s.objN (Obj.LCW_BOTH_LOSS (h / 16))) ≤ l)
        if ns.length = 2 ∧ !both ∧ 0 < s.objN (Obj.LCW_PROBE_MAX (h / 16)) then s.setPair h c { p with state := 2 }
        else s.deadAll h c ns job l
      else s
    | none => if p.state = 0 then s else s.pairGood h c job

/-- Pairs whose probe band is band 0 of a job and was not judged, or not wholly fired: the probe is repeated on the next
page. -/
def State.probesAgain (s : State) (job : Nat) (judged : List Nat) (whole : Nat → Bool) : List Nat :=
  (s.lcw.pairs.filter (fun e => e.2.state == 3 && e.2.probe == job &&
    (!whole (e.1 / 4096 / 16) || !judged.contains e.1))).map (·.1)

def State.repeatProbes (s : State) (job : Nat) (ks : List Nat) : State :=
  ks.foldl (fun s k =>
    let h := k / 4096
    let c := k % 4096
    (s.setPair h c { s.pair h c with state := 2, probe := 0 }).probeResult h c job 0 2) s

/-- A band's evidence reaches Lacewing: suspected pairs with their loss, and judged pairs, by pair key; `whole` says that
a bar fired the whole band. -/
def State.bandEvidence (s : State) (job band : Nat) (susp : List (Nat × Nat)) (judged : List Nat) (whole : Nat → Bool) : State :=
  let s := susp.foldl (fun s x => s.count (Obj.NIM_SUSPECT_CNT (x.1 / 4096 / 16)) 1) s
  let again := if band = 0 then s.probesAgain job judged whole else []
  let s := s.repeatProbes job again
  (judged.filter (fun k => !again.contains k)).foldl (fun s k =>
    s.judgePair (k / 4096) (k % 4096) job band ((susp.find? (fun x => x.1 == k)).map (·.2))) s

/-- A verdict ages the observed pairs of its page's bars that no band of the page judged (R170). -/
def State.agePairs (s : State) (job mask : Nat) (judged : List Nat) : State :=
  (s.lcw.pairs.filter (fun e => e.2.state != 0 && bitAt mask (e.1 / 4096 / 16) && !judged.contains e.1)).foldl (fun s e =>
    let h := e.1 / 4096
    let c := e.1 % 4096
    let n := e.2.pages + 1
    if s.objN (Obj.LCW_SUSPECT_PAGES (h / 16)) ≤ n then s.pairGood h c job else s.setPair h c { e.2 with pages := n }) s

end Sys2Proof.Machine
end

