-- ==== Sys2Proof/Machine/Zstd.lean ====
section
/-! DEFINITION. The Zstandard frames Stratus writes (R389 to R391, R394): headers, length words and the content checksum
XXH64. What the match search chooses inside a frame is open (Config.zstdBlocks). -/

namespace Sys2Proof.Machine

/-! ### XXH64 -/

def xxM : Nat := 2 ^ 64
def xxP1 : Nat := 0x9E3779B185EBCA87
def xxP2 : Nat := 0xC2B2AE3D27D4EB4F
def xxP3 : Nat := 0x165667B19E3779F9
def xxP4 : Nat := 0x85EBCA77C2B2AE63
def xxP5 : Nat := 0x27D4EB2F165667C5

def rotl64 (x n : Nat) : Nat := (x * 2 ^ n % xxM) ||| (x / 2 ^ (64 - n))

def xxRound (acc v : Nat) : Nat := rotl64 ((acc + v * xxP2) % xxM) 31 * xxP1 % xxM

def xxMerge (h v : Nat) : Nat := ((h ^^^ xxRound 0 v) * xxP1 + xxP4) % xxM

/-- Whole stripes of 32 bytes. -/
def xxStripes : Nat → Bytes → Nat × Nat × Nat × Nat → Bytes × (Nat × Nat × Nat × Nat)
  | 0, b, v => (b, v)
  | n + 1, b, v => xxStripes n (b.drop 32)
      (xxRound v.1 (getN b 0 8), xxRound v.2.1 (getN b 8 8), xxRound v.2.2.1 (getN b 16 8), xxRound v.2.2.2 (getN b 24 8))

def xxTail8 : Nat → Bytes → Nat → Bytes × Nat
  | 0, b, h => (b, h)
  | n + 1, b, h => xxTail8 n (b.drop 8) ((rotl64 (h ^^^ xxRound 0 (getN b 0 8)) 27 * xxP1 + xxP4) % xxM)

def xxTail4 (x : Bytes × Nat) : Bytes × Nat :=
  if x.1.length < 4 then x
  else (x.1.drop 4, (rotl64 (x.2 ^^^ (getN x.1 0 4 * xxP1 % xxM)) 23 * xxP2 + xxP3) % xxM)

def xxTail1 (h : Nat) (b : Byte) : Nat := rotl64 (h ^^^ (b.toNat * xxP5 % xxM)) 11 * xxP1 % xxM

/-- XXH64 with seed 0. -/
def xxh64 (b : Bytes) : Nat :=
  let x := xxStripes (b.length / 32) b ((xxP1 + xxP2) % xxM, xxP2, 0, xxM - xxP1)
  let v := x.2
  let h := if b.length < 32 then xxP5
    else
      let h := (rotl64 v.1 1 + rotl64 v.2.1 7 + rotl64 v.2.2.1 12 + rotl64 v.2.2.2 18) % xxM
      xxMerge (xxMerge (xxMerge (xxMerge h v.1) v.2.1) v.2.2.1) v.2.2.2
  let h := (h + b.length) % xxM
  let t := xxTail4 (xxTail8 (x.1.length / 8) x.1 h)
  let h := t.1.foldl xxTail1 t.2
  let h := (h ^^^ (h / 2 ^ 33)) * xxP2 % xxM
  let h := (h ^^^ (h / 2 ^ 29)) * xxP3 % xxM
  h ^^^ (h / 2 ^ 32)

/-- Content_Checksum: the low four bytes of XXH64. -/
def contentCheck (b : Bytes) : Nat := xxh64 b % 2 ^ 32

/-! ### Frames -/

def zstdMagic : Bytes := [0x28, 0xB5, 0x2F, 0xFD]

/-- Header of a single-segment frame of n bytes (R390). -/
def frameHeader (n : Nat) (check : Bool) : Bytes :=
  if 256 ≤ n ∧ n ≤ 65791 then zstdMagic ++ le 1 (0x60 + 4 * b2n check) ++ le 2 (n - 256)
  else zstdMagic ++ le 1 (0xA0 + 4 * b2n check) ++ le 4 n

/-- Header of a streaming frame (R390). -/
def streamHeader (window : Nat) (check : Bool) : Bytes := zstdMagic ++ le 1 (4 * b2n check) ++ le 1 (8 * (window - 10))

/-- One block of independent-block mode as its frame. -/
def blockFrame (level : Nat) (check : Bool) (b : Bytes) : Bytes :=
  frameHeader b.length check ++ Config.zstdBlocks level 0 b ++ (if check then le 4 (contentCheck b) else [])

/-- A block behind its length word: stored when its frame is not smaller (R394). -/
def lengthBlock (level : Nat) (check : Bool) (b : Bytes) : Bytes × Bool :=
  let f := blockFrame level check b
  if f.length < b.length then (le 4 f.length ++ f, false) else (le 4 (b.length + 2 ^ 31) ++ b, true)

/-- A block stored behind its length word. -/
def storedBlock (b : Bytes) : Bytes := le 4 (b.length + 2 ^ 31) ++ b

/-- Cut a byte string into blocks of n bytes. -/
def cutBlocks (n : Nat) : Nat → Bytes → List Bytes
  | 0, _ => []
  | f + 1, b => if b.isEmpty then [] else b.take n :: cutBlocks n f (b.drop n)

/-- Output of COMPRESS_BLOCKS: bytes, blocks and stored blocks (R394). -/
def compressed (level log2 : Nat) (check : Bool) (src : Bytes) : Bytes × Nat × Nat :=
  let l := (cutBlocks (2 ^ log2) (src.length + 1) src).map (lengthBlock level check)
  ((l.map (·.1)).flatten, l.length, (l.filter (·.2)).length)

/-- A stream S2 block: 64 KiB blocks, every one stored where the whole is not smaller (R398). -/
def s2Block (level : Nat) (src : Bytes) : Bytes :=
  let c := (compressed level 16 false src).1
  if c.length < src.length then c else ((cutBlocks 65536 (src.length + 1) src).map storedBlock).flatten

end Sys2Proof.Machine
end

