-- ==== Sys2Proof/Machine/NimImage.lean ====
section
/-! DEFINITION. Nimbus's image arithmetic (R246 to R259) in exact rational numbers: the corrected image, the prediction,
residuals, column fits and tile registration of one page. -/

namespace Sys2Proof.Machine

/-- Image pixels across the web. -/
def imgW : Nat := 32288

/-- A bar's raster line as predicted: its dots (none for a blank line) and its mark of Table 11.1: 0 none, 1 STREAM_BLANK,
2 NOT_FIRED, 3 no check line. -/
structure BarLine where
  dots : Array Nat := #[]
  mark : Nat := 0

/-- What a page is compared with. `st` holds the Nimbus objects in force for the page; `lines` the bars' raster lines;
`frames` the page's frames by camera; `gone` the columns left to their neighbours: bar, raster line,
column; `rng` the page lines compared, from the first to before the second. -/
structure NimEnv where
  st : State
  job : Job
  page : NimPage
  ratio : Nat
  lines : Array (Array BarLine)
  frames : List (Nat × Frame)
  gone : List (Nat × Nat × Nat)
  rng : Nat × Nat

/-- The raster lines of a page with the marks that blank dots applied: LATE_DATA lines, HOT columns and probed rows. -/
def State.pageLines (s : State) (j : Job) : Array (Array BarLine) :=
  let mine := s.scarab.delivered.filter (fun c => c.job == j.id)
  let dark := s.lcw.marks.filter (fun m => m.job == j.id && (m.cause == 4 || m.cause == 5))
  ((List.range j.lines).map (fun i =>
    match mine.find? (fun c => c.line == i) with
    | none => (List.replicate 8 { mark := 3 : BarLine }).toArray
    | some c =>
      (((List.range 8).zip c.bars).map (fun x =>
        let b := x.1
        let late := s.lcw.lateLines.contains (j.id, b, i)
        let d : Array Nat := if late then #[] else (x.2.1.map BitVec.toNat).toArray
        let d := (dark.filter (fun m => m.bar == b && m.line == i)).foldl (fun (a : Array Nat) m => a.setIfInBounds m.col 0) d
        ({ dots := d, mark := x.2.2.1 } : BarLine))).toArray)).toArray

/-- The environment of a page's lines l0 to before l1. -/
def State.nimEnv (s : State) (j : Job) (p : NimPage) (l0 l1 : Nat) : NimEnv :=
  { st := { s with objs := p.objs, blobs := p.blobs }
    job := j
    page := p
    ratio := s.pitchRatio
    lines := s.pageLines j
    frames := ((List.range 4).map (fun c => ((s.cam c).frames.filter (fun f => f.job == j.id)).map (fun f => (c, f)))).flatten
    gone := (s.lcw.marks.filter (fun m => m.job == j.id && m.cause == 6)).map (fun m => (m.bar, m.line, m.col))
    rng := (l0, l1) }

namespace NimEnv

def barLine (e : NimEnv) (b : Nat) (i : Int) : BarLine :=
  if i < 0 then {} else ((e.lines.getD i.toNat #[]).getD b {})

/-- The dots the prediction takes: dots outside the page or the bar count as 0. -/
def dot (e : NimEnv) (b : Nat) (x i : Int) : Nat := if x < 0 then 0 else (e.barLine b i).dots.getD x.toNat 0

/-! ### Coverage (R248, R249) -/

def cov (e : NimEnv) (b d : Nat) : Nat := (e.st.byte Obj.NIM_COVERAGE (4 * b + d)).toNat

/-- K_b[v][u]. -/
def ker (e : NimEnv) (b : Nat) (v u : Int) : Nat := e.st.blobN Obj.NIM_KERNEL (50 * b + (10 * (v + 2) + 2 * (u + 2)).toNat) 2

def around : List Int := [-2, -1, 0, 1, 2]

/-- No bar line near i holds a dot, and value 0 covers nothing. -/
def empty (e : NimEnv) (b : Nat) (i : Int) : Bool := e.cov b 0 == 0 && around.all (fun v => (e.barLine b (i + v)).dots.isEmpty)

/-- a_b(x, i) for given dots. -/
def cover (e : NimEnv) (dot : Nat → Int → Int → Nat) (b : Nat) (x i : Int) : Rat :=
  if e.empty b i then 0
  else
    let sum := around.foldl (fun (a : Nat) v => around.foldl (fun a u => a + e.ker b v u * e.cov b (dot b (x + u) (i + v))) a) 0
    min 1 ((sum : Rat) / 1044480)

/-- The coverage field of a bar at a column and line pitch, interpolated bilinearly. -/
def field (e : NimEnv) (dot : Nat → Int → Int → Nat) (b : Nat) (x q : Rat) : Rat :=
  let x0 := x.floor
  let q0 := q.floor
  let fx := x - (x0 : Rat)
  let fq := q - (q0 : Rat)
  let a := fun (dx dq : Int) => e.cover dot b (x0 + dx) ((q0 + dq) / (e.ratio : Int))
  let row := fun (dq : Int) => if fx = 0 then a 0 dq else (1 - fx) * a 0 dq + fx * a 1 dq
  if fq = 0 then row 0 else (1 - fq) * row 0 + fq * row 1

/-- The camera whose pixels cover image pixel X, with its frame. -/
def camAt (e : NimEnv) (x : Nat) : Option (Nat × Frame) :=
  e.frames.find? (fun y => decide ((e.st.camRange [] y.1).1 ≤ x) && decide (x ≤ (e.st.camRange [] y.1).2))

/-- Line pitches of a camera line at a pixel, and the along-web shift of its frame in line pitches (R234). -/
def geo (e : NimEnv) (x : Nat) : Nat × Rat :=
  let f : Option Frame := match e.camAt x with
    | some y => some y.2
    | none => (e.frames.head?).map (fun (y : Nat × Frame) => y.2)
  match f with
  | some f => (f.pitches, if f.lambda = 0 then 0 else (f.firstPos * 65536 : Int) / ((f.lambda : Int) : Rat))
  | none => (2, 0)

/-- 0.01 um as column or line pitches. -/
def umPitch (v : Int) : Rat := ((v : Int) : Rat) * 6 / 12700

/-- Coverage of a bar in one bar column on a camera line, its field shifted by its registration and by (sx, sy) more. -/
def colCov (e : NimEnv) (dot : Nat → Int → Int → Nat) (b c m : Nat) (sx sy : Rat) : Rat :=
  let g := e.geo (c / 2)
  let x := (c : Rat) - umPitch (e.page.regAcross.getD b 0) - sx
  let y0 := g.2 - umPitch (e.page.regAlong.getD b 0) - sy
  ((List.range g.1).foldl (fun (a : Rat) t => a + e.field dot b x (((m * g.1 + t : Nat) : Rat) + y0)) 0) / (max 1 g.1 : Nat)

/-- Coverage of a bar in an image pixel on a camera line. -/
def pixCov (e : NimEnv) (dot : Nat → Int → Int → Nat) (b x m : Nat) (sx sy : Rat) : Rat :=
  (e.colCov dot b (2 * x) m sx sy + e.colCov dot b (2 * x + 1) m sx sy) / 2

/-! ### Colour (R250) -/

/-- P[k] of a channel. -/
def primary (e : NimEnv) (k ch : Nat) : Rat := ((e.st.byte Obj.NIM_PRIMARIES (3 * k + ch)).toNat : Rat)

/-- pred: the sum over the overlaps of the bars' coverages, bar by bar. -/
def pred (e : NimEnv) (ch : Nat) : List Rat → Nat → Nat → Rat
  | [], _, k => e.primary k ch
  | a :: t, b, k =>
    if a = 0 then e.pred ch t (b + 1) k
    else if a = 1 then e.pred ch t (b + 1) (k + 2 ^ b)
    else a * e.pred ch t (b + 1) (k + 2 ^ b) + (1 - a) * e.pred ch t (b + 1) k

/-- Channels compared at a pixel: observed channel and predicted channel. -/
def chans (e : NimEnv) (x : Nat) : List (Nat × Nat) :=
  match e.camAt x with
  | some y => if e.st.obj (Obj.CAM_PIXEL_FORMAT y.1) = 1 then [(0, 0), (1, 1), (2, 2)] else [(0, 1)]
  | none => [(0, 0), (1, 1), (2, 2)]

def covs (e : NimEnv) (dot : Nat → Int → Int → Nat) (x m : Nat) : List Rat :=
  (List.range 8).map (fun b => e.pixCov dot b x m 0 0)

def colours (e : NimEnv) (x : Nat) (a : List Rat) : List Rat := (e.chans x).map (fun c => e.pred c.2 a 0 0)

/-! ### The corrected image (R246) -/

/-- Corrected value of camera pixel p, channel ch, of a raw line of n channels. -/
def corrected (e : NimEnv) (c n : Nat) (raw : Array Byte) (p ch : Nat) : Int :=
  let r : Int := ((raw.getD (n * p + ch) 0).toNat : Nat)
  let d : Int := ((e.st.byte (Obj.NIM_DARK c) (3 * p + ch)).toNat : Nat)
  let f : Int := (e.st.blobN (Obj.NIM_FLAT c) (6 * p + 2 * ch) 2 : Nat)
  clampI 0 255 (((r - d) * f * 2 + 4096) / 8192)

/-- Channels of a camera. -/
def camChans (e : NimEnv) (c : Nat) : Nat := if e.st.obj (Obj.CAM_PIXEL_FORMAT c) = 1 then 3 else 1

/-- Corrected pixel p of camera c from a raw line, resampled, by channel; none where it lies outside the line. -/
def resampled (e : NimEnv) (c p : Nat) (a : Array Byte) : Option (List Rat) :=
  let pos : Int := (p : Int) * 256 + sext 16 (e.st.blobN (Obj.NIM_GEOM c) (2 * p) 2)
  let w := e.st.objN (Obj.CAM_WIDTH c)
  if pos < 0 ∨ ((w : Int) - 1) * 256 < pos then none
  else
    let i := (pos / 256).toNat
    let fr : Rat := ((pos % 256 : Int) : Rat) / 256
    let n := e.camChans c
    some ((List.range n).map (fun ch =>
      let v := fun (k : Nat) => ((e.corrected c n a k ch : Int) : Rat)
      if fr = 0 then v i else (1 - fr) * v i + fr * v (i + 1)))

/-- The corrected image of a frame at camera pixel p of camera line m. -/
def framePix (e : NimEnv) (c : Nat) (f : Frame) (p m : Nat) : Option (List Rat) :=
  match f.lines.getD m none with
  | none => none
  | some raw => e.resampled c p raw.toArray

/-- The corrected image at image pixel X of camera line m. -/
def image (e : NimEnv) (x m : Nat) : Option (List Rat) :=
  match e.camAt x with
  | none => none
  | some (c, f) => e.framePix c f (e.st.objN (Obj.CAM_PX_FIRST c) + (x - (e.st.camRange [] c).1)) m

/-- The image where it may be compared (R247). -/
def observed (e : NimEnv) (x m : Nat) : Option (List Rat) :=
  match e.camAt x with
  | none => none
  | some (_, f) => if bitAt f.marks fmLost || bitAt f.marks fmHeader || bitAt f.marks fmTwin then none else e.image x m

/-! ### Pixels (R247, R251, R252) -/

/-- A pixel: 0 outside the verdict, 1 no ink and no data, 2 inked and not compared, 3 compared; its residual vector, the
bars' coverages and its predicted and observed values. -/
structure Pix where
  st : Nat := 0
  r : List Rat := []
  a : List Rat := []
  pr : List Rat := []
  ob : List Rat := []

/-- Raster lines of a camera line at a pixel. -/
def rasterLines (e : NimEnv) (x m : Nat) : List Nat :=
  let g := (e.geo x).1
  ((List.range g).map (fun t => (m * g + t) / e.ratio)).eraseDups

/-- Camera lines of the page at a pixel. -/
def height (e : NimEnv) (x : Nat) : Nat :=
  let g := (e.geo x).1
  (e.job.lines * e.ratio + g - 1) / g

/-- Camera lines of page lines `rng` at a pixel: the first, and the one after the last. A camera line counts with the last
page line it covers. -/
def span (e : NimEnv) (x : Nat) : Nat × Nat :=
  let g := (e.geo x).1
  ((e.rng.1 * e.ratio + g - 1) / g, min (e.height x) ((e.rng.2 * e.ratio + g - 1) / g))

def rawPix (e : NimEnv) (x m : Nat) : Pix :=
  if m < (e.span x).1 ∨ (e.span x).2 ≤ m then {}
  else
    let ls := (e.rasterLines x m).filter (fun i => decide (i < e.job.lines))
    let marks := (ls.map (fun i => (List.range 8).map (fun b => (e.barLine b (i : Nat)).mark))).flatten
    if marks.any (· == 2) then {}
    else if marks.any (· == 3) then { st := 2 }
    else
      let a := e.covs e.dot x m
      match e.observed x m with
      | some o =>
        let p := e.colours x a
        { st := 3, r := (o.zip p).map (fun y => y.1 - y.2), a := a, pr := p, ob := o }
      | none => { st := if a.any (· != 0) then 2 else 1, a := a }

/-- Pixels covering columns C - 1 to C + 1. -/
def groupOf (c : Nat) : Nat × Nat := ((c - 1) / 2, min (imgW - 1) ((c + 1) / 2))

def addV (a b : List Rat) : List Rat := (a.zip b).map (fun x => x.1 + x.2)

/-- A camera line, with the pixels around a column left to its neighbours compared on their mean (Table 11.1). -/
def rowOf (e : NimEnv) (m : Nat) : Array Pix :=
  let raw := ((List.range imgW).map (fun x => e.rawPix x m)).toArray
  let cols := ((e.gone.filter (fun g => (e.rasterLines (g.2.2 / 2) m).contains g.2.1)).map (·.2.2)).eraseDups
  let gs := cols.map groupOf
  let mean := fun (x : Nat) =>
    let mine := gs.filter (fun g => decide (g.1 ≤ x) && decide (x ≤ g.2))
    let xs := ((mine.map (fun g => (List.range (g.2 + 1 - g.1)).map (fun i => g.1 + i))).flatten).eraseDups
    let ps := (xs.map (fun y => raw.getD y {})).filter (fun p => p.st == 3)
    match ps with
    | [] => ([] : List Rat)
    | p :: t => (t.foldl (fun a q => addV a q.r) p.r).map (· / (ps.length : Rat))
  gs.foldl (fun (a : Array Pix) g => (List.range (g.2 + 1 - g.1)).foldl (fun a i =>
    let x := g.1 + i
    let p := raw.getD x {}
    if p.st = 3 then a.setIfInBounds x { p with r := mean x } else a) a) raw

/-- Size of a residual vector. -/
def sizeOf (r : List Rat) : Rat := r.foldl (fun m v => max m (absQ v)) 0

/-- Camera lines m0 to m0 + n - 1; none until NIM_PRIMARIES has been committed, since Nimbus then predicts nothing (R250). -/
def grid (e : NimEnv) (m0 n : Nat) : Array (Array Pix) :=
  ((List.range (if e.page.committed then n else 0)).map (fun i => e.rowOf (m0 + i))).toArray

def gpix (g : Array (Array Pix)) (i x : Nat) : Pix := (g.getD i #[]).getD x {}

/-! ### Observability (R259) -/

/-- Bar b is observable in a pixel. -/
def observable (e : NimEnv) (x : Nat) (p : Pix) (b : Nat) : Bool :=
  let put := fun (v : Rat) => p.a.set b v
  let hi := e.colours x (put 1)
  let lo := e.colours x (put 0)
  decide ((e.st.objN Obj.NIM_PIX_THRESH : Rat) ≤ sizeOf ((hi.zip lo).map (fun y => y.1 - y.2)))

/-- Pixels of the page area with coverage of bar b, and those where it is observable. -/
def observation (e : NimEnv) (g : Array (Array Pix)) (b : Nat) : Nat × Nat :=
  (List.range g.size).foldl (fun (acc : Nat × Nat) i => (List.range imgW).foldl (fun acc x =>
    let p := gpix g i x
    if p.a.getD b 0 = 0 then acc else (acc.1 + 1, acc.2 + b2n (e.observable x p b))) acc) (0, 0)

def unobserved (e : NimEnv) (g : Array (Array Pix)) : Nat :=
  maskOf (fun b =>
    let o := e.observation g b
    decide (0 < o.1) && decide (o.2 * 100 < e.st.objN Obj.NIM_OBS_MIN * o.1)) 8

/-! ### Columns (R254 to R256) -/

/-- A candidate for a loss: bar, head, bar column and, in a joint column, the lines its head serves. -/
structure Cand where
  bar : Nat
  head : Nat
  col : Nat
  f : Rat := 0
  e : Rat := 0

/-- The head position of a bar column that serves it on a raster line (R162). -/
def servedBy (e : NimEnv) (b col i : Nat) : Nat :=
  let j := jointOf col
  if j = 0 then min 15 (col / 4032)
  else
    let k := col - 4032 * j
    let m := (e.st.snapOf e.job b).stitch
    if bitAt (byteAt m (128 * (j - 1) + 8 * (i % 16) + k / 8)) (k % 8) then j else j - 1

/-- Fit one candidate over the three pixels around X on the band's compared camera lines. -/
def fit (e : NimEnv) (g : Array (Array Pix)) (m0 x : Nat) (c : Cand) : Cand :=
  let lost := fun (b : Nat) (cx i : Int) =>
    if b = c.bar ∧ cx = (c.col : Int) ∧ 0 ≤ i ∧ e.servedBy b c.col i.toNat = c.head % 16 then 0 else e.dot b cx i
  let xs := [x - 1, x, x + 1].eraseDups.filter (fun y => decide (y < imgW))
  let acc := (List.range g.size).foldl (fun (acc : Rat × Rat × Rat) i => xs.foldl (fun acc y =>
    let p := gpix g i y
    if p.st ≠ 3 then acc
    else
      let a := p.a.set c.bar (e.pixCov lost c.bar y (m0 + i) 0 0)
      let sv := ((e.colours y a).zip p.pr).map (fun z => z.1 - z.2)
      let q := p.r.zip sv
      (acc.1 + q.foldl (fun t z => t + z.1 * z.2) 0, acc.2.1 + sv.foldl (fun t z => t + z * z) 0,
        acc.2.2 + p.r.foldl (fun t z => t + z * z) 0)) acc) (0, 0, 0)
  let f0 := if acc.2.1 = 0 then 0 else acc.1 / acc.2.1
  let f1 := clampQ 0 1 f0
  let left := acc.2.2 - 2 * f1 * acc.1 + f1 * f1 * acc.2.1
  { c with f := f0, e := if acc.2.2 = 0 then 0 else 1 - left / acc.2.2 }

/-- Column C of bar b is judged in a band (R254). -/
def judged (e : NimEnv) (g : Array (Array Pix)) (m0 un b col : Nat) : Bool :=
  let x := col / 2
  let lines := (List.range g.size).filter (fun i => (gpix g i x).st == 3)
  let j := lines.foldl (fun (t : Rat) i => t + e.colCov e.dot b col (m0 + i) 0 0) 0
  let indet := fun (y : Nat) => ((List.range g.size).filter (fun i => (gpix g i y).st == 2)).length
  let near := e.gone.any (fun t => t.1 == b && t.2.2 == col && (List.range g.size).any (fun i => (e.rasterLines x (m0 + i)).contains t.2.1)) ||
    e.st.lcw.marks.any (fun t => t.job == e.job.id && t.bar == b && t.col == col && t.cause == 3 &&
      (List.range g.size).any (fun i => (e.rasterLines x (m0 + i)).contains t.line))
  !bitAt un b && !near && decide ((e.st.objN Obj.NIM_JUDGE_MIN : Rat) ≤ j) &&
    [x - 1, x, x + 1].all (fun y => decide (16 * indet y ≤ (e.span y).2 - (e.span y).1))

/-- Candidates of a column: one, or in a joint column one for each head. -/
def candsOf (b col : Nat) : List Cand :=
  let j := jointOf col
  if j = 0 then [{ bar := b, head := headOf b (min 15 (col / 4032)), col := col }]
  else [{ bar := b, head := headOf b (j - 1), col := col }, { bar := b, head := headOf b j, col := col }]

/-- The pair a candidate names. -/
def Cand.pair (c : Cand) : Nat := pairKey c.head (c.col - 4032 * (c.head % 16))

/-- What a band finds: suspected pairs with loss, the winner's and the runner-up's explained share in percent; judged
pairs; judged bars; column items; unresolved pixels by bar; whether a column is DEFECT; losses by bar. -/
structure Band where
  susp : List (Nat × Nat × Nat × Nat) := []
  judged : List Nat := []
  bars : Nat := 0
  items : List NimItem := []
  unres : List Nat := []
  nozzle : Bool := false
  losses : List (Nat × Rat) := []

def pct (v : Rat) : Nat := (v * 100).floor.toNat

def bestOf : List Cand → Option Cand
  | [] => none
  | c :: t => match bestOf t with | some d => if c.e < d.e then some d else some c | none => some c

/-- Judge one pixel of a band (R256). `l0` and `l1` are the band's first and last page line. -/
def judgePixel (e : NimEnv) (g : Array (Array Pix)) (m0 un l0 l1 x : Nat) (acc : Band) : Band :=
  let cols := ((List.range 8).map (fun b => [(b, 2 * x), (b, 2 * x + 1)])).flatten.filter (fun y => e.judged g m0 un y.1 y.2)
  if cols.isEmpty then acc
  else
    let cands := (cols.map (fun y => candsOf y.1 y.2)).flatten.map (e.fit g m0 x)
    let acc := { acc with
      judged := acc.judged ++ cands.map Cand.pair
      bars := cols.foldl (fun v y => v ||| 2 ^ y.1) acc.bars }
    match bestOf cands with
    | none => acc
    | some w =>
      let rest := cands.filter (fun c => !(c.pair == w.pair && c.bar == w.bar))
      let second := rest.foldl (fun m c => max m c.e) 0
      let quiet := rest.map (fun c => (c.bar, absQ c.f))
      let loss := fun (k : Nat) => decide ((e.st.objN k : Rat) / 100 ≤ w.f)
      if w.f ≤ 0 ∨ 1 < w.f then { acc with losses := acc.losses ++ (w.bar, absQ w.f) :: quiet }
      else if (e.st.objN Obj.NIM_ATTR_MIN : Rat) ≤ w.e * 100 ∧
          rest.all (fun c => decide ((e.st.objN Obj.NIM_ATTR_MARGIN : Rat) ≤ (w.e - c.e) * 100)) then
        let acc := if loss Obj.NIM_COL_SUSPECT then
            { acc with susp := acc.susp ++ [(w.pair, pct w.f, pct w.e, pct second)], losses := acc.losses ++ quiet }
          else { acc with losses := acc.losses ++ (w.bar, absQ w.f) :: quiet }
        if loss Obj.NIM_COL_DEFECT then
          { acc with
            nozzle := true
            items := acc.items ++ [{ kind := 2, ty := 1, bar := w.bar, head := w.head, x0 := w.pair % 4096, x1 := x,
                                     first := l0, last := l1, loss := pct w.f, e := pct w.e : NimItem }] }
        else acc
      else
        let acc := { acc with losses := acc.losses ++ (w.bar, absQ w.f) :: quiet }
        if loss Obj.NIM_COL_DEFECT then
          { acc with
            unres := acc.unres ++ [w.bar]
            items := acc.items ++ [{ kind := 2, ty := 2, bar := w.bar, x0 := x, x1 := x, first := l0, last := l1,
                                     loss := pct w.f, e := pct w.e : NimItem }] }
        else acc

/-- First camera line and number of camera lines of page lines `rng`, over all cameras. -/
def window (e : NimEnv) : Nat × Nat :=
  let xs := (e.frames.map (fun y => (e.st.camRange [] y.1).1)) ++ [0]
  let lo := xs.foldl (fun m x => min m (e.span x).1) (e.span 0).1
  (lo, xs.foldl (fun m x => max m (e.span x).2) 0 - lo)

/-- Judge the band of page lines `rng`. -/
def band (e : NimEnv) (un : Nat) : Band :=
  let w := e.window
  let g := e.grid w.1 w.2
  let r := (List.range (if e.page.committed then imgW else 0)).foldl (fun acc x => e.judgePixel g w.1 un e.rng.1 (e.rng.2 - 1) x acc) {}
  { r with judged := r.judged.eraseDups }

/-- Everything the page lines `rng` compare, from camera line 0. -/
def whole (e : NimEnv) : Array (Array Pix) := e.grid 0 (e.window.1 + e.window.2)

/-! ### Registration (R257, R258) -/

def subRow (r : List Rat) (k : Rat) (p : List Rat) : List Rat := (r.zip p).map (fun x => x.1 - k * x.2)

/-- Gauss-Jordan elimination of augmented rows over the unknowns `cs`: each pivoted unknown with its row. -/
def eliminate : List Nat → List (List Rat) → List (Nat × List Rat) → List (Nat × List Rat)
  | [], _, done => done
  | c :: cs, rows, done =>
    match rows.findIdx? (fun r => r.getD c 0 != 0) with
    | none => eliminate cs rows done
    | some i =>
      let p := rows.getD i []
      let p := p.map (· / p.getD c 0)
      let red := fun (r : List Rat) => subRow r (r.getD c 0) p
      eliminate cs ((rows.eraseIdx i).map red) ((c, p) :: done.map (fun d => (d.1, red d.2)))

/-- The least-squares solution of n unknowns from normal equations; an unknown the equations leave open takes a free
value. -/
def solve (n : Nat) (rows : List (List Rat)) (free : Nat → Rat) : List Rat :=
  let d := eliminate (List.range n) rows []
  (List.range n).map (fun c =>
    match d.find? (fun x => x.1 == c) with
    | none => free c
    | some (_, p) =>
      (List.range n).foldl (fun (v : Rat) k => if (d.any (fun x => x.1 == k)) then v else v - p.getD k 0 * free k) (p.getD n 0))

/-- One tile's estimates: for each entering bar its (dx, dy) in pixels. -/
def tile (e : NimEnv) (g : Array (Array Pix)) (tx ty : Nat) (free : Nat → Rat) : List (Nat × Rat × Rat) :=
  let cells := ((List.range 256).map (fun i => (List.range 256).map (fun k => (256 * ty + i, 256 * tx + k)))).flatten
  let used := cells.filter (fun y => (gpix g y.1 y.2).st == 3)
  let shifted := fun (b : Nat) (y : Nat × Nat) (along : Bool) =>
    let p := gpix g y.1 y.2
    let c := (e.geo y.2).1
    let a := p.a.set b (if along then e.pixCov e.dot b y.2 y.1 0 (c : Nat) else e.pixCov e.dot b y.2 y.1 2 0)
    ((e.colours y.2 a).zip p.pr).map (fun z => z.1 - z.2)
  let th : Rat := (e.st.objN Obj.NIM_PIX_THRESH : Nat)
  let enters := fun (b : Nat) =>
    let edge := used.filter (fun y => decide (th ≤ sizeOf (shifted b y false)) || decide (th ≤ sizeOf (shifted b y true)))
    decide (e.st.objN Obj.NIM_REG_MIN ≤ edge.length)
  let bars := (List.range 8).filter enters
  if bars.isEmpty then []
  else
    let n := 2 * bars.length
    let eqs := (used.map (fun y =>
      let ds := (bars.map (fun b => [shifted b y false, shifted b y true])).flatten
      let r := (gpix g y.1 y.2).r
      (List.range r.length).map (fun ch => (ds.map (fun d => d.getD ch 0), r.getD ch 0)))).flatten
    let normal := (List.range n).map (fun i =>
      (List.range n).map (fun k => eqs.foldl (fun (t : Rat) q => t + q.1.getD i 0 * q.1.getD k 0) 0) ++
        [eqs.foldl (fun (t : Rat) q => t + q.1.getD i 0 * q.2) 0])
    let z := solve n normal free
    (List.range bars.length).map (fun i => (bars.getD i 0, z.getD (2 * i) 0, z.getD (2 * i + 1) 0))

/-- An estimate is in range. -/
def inRange (d : Rat × Rat) : Bool := decide (absQ d.1 ≤ 1) && decide (absQ d.2 ≤ 1)

/-- Insert in rising order. -/
def insQ (v : Rat) : List Rat → List Rat
  | [] => [v]
  | a :: t => if v ≤ a then v :: a :: t else a :: insQ v t

/-- Median: the mean of the two middle values of an even number. -/
def median (l : List Rat) : Rat :=
  let z := l.foldl (fun a v => insQ v a) []
  let n := z.length
  if n = 0 then 0 else (z.getD ((n - 1) / 2) 0 + z.getD (n / 2) 0) / 2

/-- Round to the nearest integer, halves up. -/
def nearest (q : Rat) : Int := (q + 1 / 2).floor

/-- Pixels along or across as 0.01 um: `n` pitches a pixel. -/
def pxUm (v : Rat) (n : Nat) : Rat := v * (n : Rat) * 12700 / 6

end NimEnv

/-- A bar's registration on a page: along and across in 0.01 um, tiles used and out of range. -/
structure BarReg where
  along : Int := 0
  across : Int := 0
  tiles : Nat := 0
  out : Nat := 0
  valid : Bool := false

/-- Tile estimates of a page: tile column, bar, dx, dy. -/
def NimEnv.tiles (e : NimEnv) (g : Array (Array NimEnv.Pix)) (free : Nat → Rat) : List (Nat × Nat × Rat × Rat) :=
  ((List.range (g.size / 256)).map (fun ty => ((List.range (imgW / 256)).map (fun tx =>
    (e.tile g tx ty (fun c => free (16 * (126 * ty + tx) + c))).map (fun y => (tx, y)))).flatten)).flatten

def NimEnv.register (e : NimEnv) (ts : List (Nat × Nat × Rat × Rat)) (b : Nat) : BarReg :=
  let mine := ts.filter (fun t => t.2.1 == b)
  let good := mine.filter (fun t => NimEnv.inRange t.2.2)
  let p := (e.geo 0).1
  { along := NimEnv.nearest (NimEnv.median (good.map (fun t => NimEnv.pxUm t.2.2.2 p)))
    across := NimEnv.nearest (NimEnv.median (good.map (fun t => NimEnv.pxUm t.2.2.1 2)))
    tiles := good.length
    out := mine.length - good.length
    valid := decide (e.st.objN Obj.NIM_REG_MIN_TILES ≤ good.length) }

end Sys2Proof.Machine
end

