-- ==== Sys2Proof/Machine/NimEvid.lean ====
section
/-! DEFINITION. Nimbus's evidence region (R266), its output streams (R267, R400) and its statistics per frame (R265). -/

namespace Sys2Proof.Machine

/-! ### The evidence region (R266) -/

/-- Size of the evidence region in 64-byte units. -/
def State.evidUnits (s : State) : Nat := s.objN Obj.NIM_EVID_SIZE * 2 ^ 24

/-- Units the host has not returned. -/
def State.evidUsed (s : State) : Nat := fwd32 (s.objN Obj.NIM_EVID_FREE) (s.objN Obj.NIM_EVID_PROD)

def State.evidReserve (s : State) : Nat := s.objN Obj.NIM_EVID_RESERVE * 2 ^ 14

/-- A block that cannot be placed is lost: counted, with EVID_FULL once. -/
def State.evidLost (s : State) : State :=
  let s := s.count Obj.NIM_EVID_LOST_CNT 1
  if s.nim.fullRaised then s
  else
    ({ s with nim := { s.nim with fullRaised := true } }).event 24 0x0B01
      [(16, 4, s.objN Obj.NIM_EVID_PROD), (20, 4, s.objN Obj.NIM_EVID_FREE)]

/-- Write a block: its EVID and its length in units, or none where it cannot be placed. A block of no bytes takes none. -/
def State.evidPut (s : State) (stream : Bool) (data : Bytes) : State × Option (Nat × Nat) :=
  let prod := s.objN Obj.NIM_EVID_PROD
  let size := s.evidUnits
  let n := (data.length + 63) / 64
  let at_ := prod % size
  let pad := if size < at_ + n then size - at_ else 0
  let keep := if stream then s.evidReserve else 0
  if n = 0 then (s, some (prod, 0))
  else if !s.laidOut ∨ size < s.evidUsed + pad + n + keep then (s.evidLost, none)
  else
    let v := (prod + pad) % 2 ^ 32
    let s := s.dramPut ((s.region regEvidence).1 + v % size * 64) (padTo 64 data)
    (s.setObj Obj.NIM_EVID_PROD ((v + n) % 2 ^ 32 : Nat), some (v, n))

/-- A write of NIM_EVID_FREE: from NIM_EVID_PROD less the region's size to NIM_EVID_PROD. -/
def State.evidFree (s : State) (v : Nat) : State × Nat :=
  if s.evidUnits < fwd32 v (s.objN Obj.NIM_EVID_PROD) then (s, 4)
  else
    let s := s.setObj Obj.NIM_EVID_FREE (v : Nat)
    (if s.evidUsed + s.evidReserve < s.evidUnits then { s with nim := { s.nim with fullRaised := false } } else s, 0)

/-- EVID_LOST, EVID and length of a block's record. -/
def evidFields (e : Option (Nat × Nat)) : Nat × Nat × Nat :=
  match e with
  | some (v, n) => (0, v, n)
  | none => (2, 0, 0)

/-! ### Streams (R267, Table 11.6) -/

def streamOn (s : State) (i : Nat) : Bool := s.objBit Obj.NIM_STREAM_EN i

/-- Bytes of S2 pages waiting for Stratus. -/
def State.nimBacklog (s : State) : Nat :=
  ((s.nim.blocks.filter (fun b => b.stream == 2 && !b.drop)).map (fun b => b.data.length)).foldl (· + ·) 0

/-- Queue a stream block. Pages of S2 are dropped from a backlog of 64 MiB on, until it falls below 32 MiB (R400). -/
def State.queueBlock (s : State) (b : StreamBlk) : State :=
  let w := s.nimBacklog
  let drop := b.stream == 2 && (decide (64 * mib < w) || s.nim.s2Drop && decide (32 * mib ≤ w))
  let nim := { s.nim with
    blocks := s.nim.blocks ++ [{ b with drop := drop, data := if drop then [] else b.data }]
    s2Drop := if b.stream = 2 then drop else s.nim.s2Drop }
  { s with nim := nim }

namespace NimEnv

/-- Channels of a stream block from image pixel x on. -/
def streamChans (e : NimEnv) (x : Nat) : Nat := (e.chans x).length

/-- An image value as a byte: nearest integer, 0 without data. -/
def valueOf (p : Option (List Rat)) (ch : Nat) : Byte :=
  match p with
  | some v => BitVec.ofNat 8 (nearest (v.getD ch (v.getD 0 0))).toNat
  | none => 0

/-- A rectangle at full resolution. -/
def crop (e : NimEnv) (x0 w y0 h : Nat) : Bytes :=
  ((List.range h).map (fun i => ((List.range w).map (fun k =>
    let p := e.image (x0 + k) (y0 + i)
    (List.range (e.streamChans x0)).map (valueOf p))).flatten)).flatten

/-- Mean of the values with data. -/
def meanOf (l : List (Option (List Rat))) (ch : Nat) : Byte :=
  let v := l.filterMap id
  if v.isEmpty then 0
  else valueOf (some [(v.foldl (fun (t : Rat) p => t + p.getD ch (p.getD 0 0)) 0) / (v.length : Rat)]) 0

/-- Camera lines of the page, over all cameras. -/
def camLines (e : NimEnv) : Nat := e.window.1 + e.window.2

/-- The page box-averaged by 2^k in both directions. -/
def reduced (e : NimEnv) (k : Nat) : Bytes :=
  let n := 2 ^ k
  ((List.range ((e.camLines + n - 1) / n)).map (fun i => ((List.range ((imgW + n - 1) / n)).map (fun x =>
    let box := ((List.range n).map (fun a => (List.range n).map (fun b => (n * i + a, n * x + b)))).flatten
    let px := (box.filter (fun y => decide (y.1 < e.camLines) && decide (y.2 < imgW))).map (fun y => e.image y.2 y.1)
    (List.range (e.streamChans 0)).map (meanOf px))).flatten)).flatten

/-- The largest residual size in each 16 x 16 block. -/
def residualMap (e : NimEnv) (g : Array (Array Pix)) : Bytes :=
  ((List.range ((e.camLines + 15) / 16)).map (fun i => (List.range ((imgW + 15) / 16)).map (fun x =>
    let box := ((List.range 16).map (fun a => (List.range 16).map (fun b => (16 * i + a, 16 * x + b)))).flatten
    let m := box.foldl (fun (m : Rat) y => max m (sizeOf (gpix g y.1 y.2).r)) 0
    BitVec.ofNat 8 (min 255 m.floor.toNat)))).flatten

/-- FORMAT of a block: its scale and its pixels. -/
def format (e : NimEnv) (x scale : Nat) : Nat := scale + (if e.streamChans x = 3 then 0 else 16)

end NimEnv

/-- NIM_STREAM_BLOCK: the oldest block of a stream is written and announced on Q40 + s. An S2 page passes through
Stratus first, and is lost while PD10 is off. -/
def State.streamBlock (s : State) (i : Nat) : State :=
  match s.nim.blocks.find? (fun b => b.stream == i) with
  | none => s
  | some b =>
    let s := { s with nim := { s.nim with blocks := s.nim.blocks.erase b } }
    let x := if b.drop ∨ (i = 2 ∧ !s.ready 10) then (s.evidLost, none)
      else s.evidPut true (if i = 2 then s2Block b.level b.data else b.data)
    let f := evidFields x.2
    x.1.push (40 + i) (layout 28 [(0, 1, 0x23), (1, 1, f.1), (2, 1, i), (3, 1, b.format), (4, 4, b.job), (8, 2, b.x0),
      (10, 2, b.w), (12, 2, b.y0), (14, 2, b.h), (16, 4, f.2.1), (20, 4, f.2.2)])

/-! ### Statistics per frame (R265, Table 11.5) -/

/-- 1/256 counts, 16 bits. -/
def q8 (v : Rat) : Nat := bitsOf 16 (clampI (-32768) 65535 (NimEnv.nearest (v * 256)))

def meanQ (l : List Rat) : Rat := if l.isEmpty then 0 else l.foldl (· + ·) 0 / (l.length : Rat)

/-- The statistics block of a frame of camera c. -/
def NimEnv.stats (e : NimEnv) (c : Nat) (f : Frame) : Bytes :=
  let p0 := e.st.objN (Obj.CAM_PX_FIRST c)
  let x0 := (e.st.camRange [] c).1
  let w := (e.st.camRange [] c).2 + 1 - x0
  let n := e.camChans c
  let px : List (List (Option (List Rat))) := (List.range f.lines.length).map (fun m =>
    (List.range w).map (fun k => e.framePix c f (p0 + k) m))
  let focusCh := if n = 3 then 1 else 0
  let focus := (px.map (fun row =>
    let a := row.toArray
    (List.range (w - 2)).filterMap (fun k =>
      match a.getD k none, a.getD (k + 1) none, a.getD (k + 2) none with
      | some u, some v, some t => some (absQ (u.getD focusCh 0 - 2 * v.getD focusCh 0 + t.getD focusCh 0))
      | _, _, _ => none))).flatten
  let all := px.flatten.filterMap id
  let cmp := (List.range f.lines.length).map (fun m => (e.rowOf m))
  let col := fun (k : Nat) => (cmp.map (fun r => r.getD (x0 + k) {})).filter (fun p => p.st == 3)
  let preds := ((List.range w).map col).flatten
  let chs := List.range n
  let mean := fun (ch : Nat) => meanQ (all.map (fun v => v.getD ch 0))
  let pmean := fun (ch : Nat) => meanQ (preds.map (fun p => p.pr.getD ch 0))
  let hist := (chs.map (fun ch => (List.range 256).map (fun v =>
    le 4 ((all.filter (fun q => NimEnv.nearest (q.getD ch 0) == (v : Nat))).length)))).flatten.flatten
  let prof := ((List.range w).map (fun k => (chs.map (fun ch => le 2 (q8 (meanQ ((col k).map (fun p => p.r.getD ch 0))))))
    |>.flatten)).flatten
  layout 64 ([(0, 4, f.number), (4, 4, f.epoch), (8, 2, w), (10, 1, n), (11, 1, f.marks),
    (12, 4, f.lines.length + f.extra), (16, 4, (NimEnv.nearest (meanQ focus * 256)).toNat)] ++
    chs.map (fun ch => (20 + 2 * ch, 2, q8 (mean ch))) ++ chs.map (fun ch => (26 + 2 * ch, 2, q8 (pmean ch)))) ++ hist ++ prof

/-- The page of a job as held, or with the settings in force now. -/
def State.pageOf (s : State) (id : Nat) : NimPage := (s.nim.pages.find? (fun p => p.job == id)).getD (s.newPage id)

/-- Post the statistics of one closed frame. -/
def State.postStats (s : State) (c : Nat) (f : Frame) : State :=
  let x := s.cam c
  let s := s.setCam c { x with frames := x.frames.map (fun g => if g.number = f.number ∧ g.job = f.job ∧ g.closed then
    { g with stats := true } else g) }
  if s.obj Obj.NIM_ENABLE = 0 ∨ !s.ready 8 then s
  else
    let j := (s.job? f.job).getD { id := f.job }
    let e := s.nimEnv j (s.pageOf f.job) 0 j.lines
    let y := s.evidPut false (padTo 64 (e.stats c f))
    let v := evidFields y.2
    y.1.push (44 + c) (layout 28 [(0, 1, 0x21), (1, 1, v.1), (2, 1, c), (3, 1, f.marks), (4, 4, f.number), (8, 4, f.epoch),
      (12, 4, f.job), (16, 4, v.2.1), (20, 4, v.2.2)])

/-- Statistics of every frame that has closed. -/
def State.flushStats (s : State) : State :=
  (List.range 4).foldl (fun s c =>
    ((s.cam c).frames.filter (fun f => f.closed && !f.stats)).foldl (fun s f => s.postStats c f) s) s

def execCamTriggerSend (c : CamNo) (s : State) : Outcome := .next (s.camTrigger c.val).flushStats
def execCamFrameClose (c : CamNo) (marker : Bool) (s : State) : Outcome := .next (s.camClose c.val marker).flushStats
def execCamTimeout (c : CamNo) (s : State) : Outcome := .next (s.camTimeout c.val).flushStats
def execCamLinkLockLoss (c : CamNo) (link : Fin 16) (s : State) : Outcome := .next (s.camUnlock c.val link.val).flushStats
def execNimStreamBlock (stream : Fin 4) (s : State) : Outcome := .next (s.streamBlock stream.val)

end Sys2Proof.Machine
end

