-- ==== Sys2Proof/Machine/Nimbus.lean ====
section
/-! DEFINITION. Nimbus's bands and verdicts (R252 to R264), and what a verdict gives calibration (R275, R277, R279). -/

namespace Sys2Proof.Machine

def State.mapPage (s : State) (id : Nat) (f : NimPage → NimPage) : State :=
  { s with nim := { s.nim with pages := s.nim.pages.map (fun p => if p.job = id then f p else p) } }

/-- Bands of a page. -/
def Job.bands (j : Job) : Nat := (j.lines + 2047) / 2048

/-- The page Nimbus works on: the first on the web without a verdict that has fired a line or may still fire one. -/
def State.nimJob (s : State) : Option Job :=
  s.hq.jobs.find? (fun j => j.onWeb && (j.bar 0).start.isSome && j.verdict.isNone && !(j.st == .aborted && j.noLine))

/-- Cameras whose frame of a job counts: those in ACQUIRING whose acquisition the job belongs to. -/
def State.nimCams (s : State) (j : Job) : List Nat :=
  (List.range 4).filter (fun c => s.camState c == camAcquiring && !(s.cam c).skip.contains j.id)

/-- Page lines below l1 have been compared on every camera; without a camera they have passed on every bar and their check
lines have been delivered. -/
def State.linesSeen (s : State) (j : Job) (l1 : Nat) : Bool :=
  let cams := s.nimCams j
  decide (l1 ≤ (j.bar 0).checked) &&
  if cams.isEmpty then (List.range 8).all (fun b => decide (l1 ≤ (j.bar b).passed))
  else
    cams.all (fun c =>
      (s.cam c).frames.any (fun f => f.job == j.id &&
        (f.closed || decide (min f.height ((l1 * s.pitchRatio + f.pitches - 1) / f.pitches) ≤ f.lines.length))))

/-- Nimbus runs for a page. -/
def State.nimRuns (s : State) (p : NimPage) : Bool :=
  s.ready 8 && ({ s with objs := p.objs }).obj Obj.NIM_ENABLE == 1

/-! ### BAND_COMPLETE (R253, R264) -/

/-- An entry of a band block: a suspected pair with loss, E of the winner and of the runner-up. -/
def bandEntry (probe : Bool) (x : Nat × Nat × Nat × Nat) : Bytes :=
  layout 8 [(0, 1, x.1 / 4096), (2, 2, x.1 % 4096), (4, 1, x.2.1), (5, 1, x.2.2.1), (6, 1, x.2.2.2), (7, 1, b2n probe)]

/-- Pairs probed in band 0 of a job, by key. -/
def State.probedOn (s : State) (job : Nat) : List Nat :=
  (s.lcw.pairs.filter (fun e => e.2.state == 3 && e.2.probe == job)).map (·.1)

/-- The PROBE item of a pair: its column, with the loss and E found for it in band 0. -/
def probeItem (susp : List (Nat × Nat × Nat × Nat)) (last k : Nat) : NimItem :=
  let x := susp.find? (fun y => y.1 == k)
  let h := k / 4096
  let col := 4032 * (h % 16) + k % 4096
  { kind := 2, ty := 7, bar := h / 16, head := h, x0 := k % 4096, x1 := col / 2, first := 0, last := last,
    loss := (x.map (fun y => y.2.1)).getD 0, e := (x.map (fun y => y.2.2.1)).getD 0 }

/-- Sums of column losses by bar. -/
def addLosses (d : List (Rat × Nat)) (l : List (Nat × Rat)) : List (Rat × Nat) :=
  l.foldl (fun d x => upd d x.1 (fun y => (y.1 + x.2, y.2 + 1))) d

/-- Fold a band's findings into its page. -/
def NimPage.addBand (p : NimPage) (b : NimEnv.Band) (observed : List Nat) (probes : List NimItem) : NimPage :=
  { p with
    bands := p.bands + 1
    nozzle := p.nozzle || b.nozzle
    unresolved := p.unresolved || !b.unres.isEmpty
    suspects := (p.suspects ++ b.susp.map (fun x => x.1)).eraseDups
    judged := (p.judged ++ observed).eraseDups
    items := p.items ++ b.items ++ probes
    density := addLosses p.density b.losses }

/-- Post a band's record and give its evidence to Lacewing. -/
def State.postBand (s : State) (j : Job) (k l0 l1 : Nat) (b : NimEnv.Band) : State :=
  let probed := if k = 0 then s.probedOn j.id else []
  let y := s.evidPut false ((b.susp.map (fun x => bandEntry (probed.contains x.1) x)).flatten)
  let v := evidFields y.2
  let s := y.1.push (32 + j.cls) (layout 28 [(0, 1, 0x22), (1, 1, v.1), (2, 1, k), (4, 4, j.id), (8, 4, s.stamp),
    (12, 2, b.susp.length), (14, 2, b.unres.length), (16, 1, b.bars), (18, 2, l1 - l0), (20, 4, v.2.1), (24, 4, v.2.2)])
  b.unres.foldl (fun s x => s.count (Obj.NIM_UNRESOLVED_CNT x) 1) s

/-- A bar fired every line of a band. -/
def Job.wholeBand (j : Job) (l1 b : Nat) : Bool := decide (l1 ≤ (j.bar b).fired)

def State.bandDone (s : State) : State :=
  match s.nimJob with
  | none => s
  | some j =>
    let s := if s.nim.pages.any (fun p => p.job == j.id) then s
      else { s with nim := { s.nim with pages := s.nim.pages ++ [s.newPage j.id] } }
    let p := s.pageOf j.id
    let k := p.bands
    let l0 := 2048 * k
    let l1 := min j.lines (l0 + 2048)
    if j.bands ≤ k ∨ !s.linesSeen j l1 then s
    else
      let observed := (s.lcw.pairs.filter (fun e => e.2.state != 0)).map (·.1)
      let probes := if k = 0 then s.probedOn j.id else []
      if !s.nimRuns p then
        ((s.mapPage j.id (fun p => p.addBand {} [] [])).bandEvidence j.id k [] [] (j.wholeBand l1)).forward (.band j.id (k + 1))
      else
        let seen := s.nimEnv j p 0 l1
        let b := (s.nimEnv j p l0 l1).band (seen.unobserved seen.whole)
        let s := s.postBand j k l0 l1 b
        let s := s.mapPage j.id (fun p =>
          p.addBand b (b.judged.filter observed.contains) (probes.map (probeItem b.susp (l1 - 1))))
        (s.bandEvidence j.id k (b.susp.map (fun x => (x.1, x.2.1))) b.judged (j.wholeBand l1)).forward (.band j.id (k + 1))

/-! ### Cells (R252) -/

/-- A cell: row and column of cells, off pixels, whether it is INDETERMINATE and part of the page area, and its largest
residual size. -/
structure Cell where
  i : Nat
  k : Nat
  off : Nat
  indet : Bool
  area : Bool
  size : Rat

def NimEnv.cell (e : NimEnv) (g : Array (Array NimEnv.Pix)) (i k : Nat) : Cell :=
  let px := ((List.range 8).map (fun a => (List.range 8).map (fun b => NimEnv.gpix g (8 * i + a) (8 * k + b)))).flatten
  let th : Rat := (e.st.objN Obj.NIM_PIX_THRESH : Nat)
  let sz := (px.filter (fun p => p.st == 3)).map (fun p => NimEnv.sizeOf p.r)
  { i := i, k := k, off := (sz.filter (fun v => decide (th < v))).length, indet := px.any (fun p => p.st == 2)
    area := px.any (fun p => decide (2 ≤ p.st)), size := sz.foldl max 0 }

/-- The cells of the page area. -/
def NimEnv.cells (e : NimEnv) (g : Array (Array NimEnv.Pix)) : List Cell :=
  (((List.range ((g.size + 7) / 8)).map (fun i => (List.range (imgW / 8)).map (fun k => e.cell g i k))).flatten).filter (·.area)

/-- Cells with a common edge. -/
def Cell.adjoins (a b : Cell) : Bool :=
  (a.i == b.i && (a.k + 1 == b.k || b.k + 1 == a.k)) || (a.k == b.k && (a.i + 1 == b.i || b.i + 1 == a.i))

/-- Cells in groups of adjoining ones. -/
def cellGroups (l : List Cell) : List (List Cell) :=
  l.foldl (fun gs c =>
    let hit := gs.filter (fun g => g.any c.adjoins)
    gs.filter (fun g => !g.any c.adjoins) ++ [hit.flatten ++ [c]]) []

/-- The page line of camera line m at the first pixel of a region, within the page. -/
def NimEnv.pageLine (e : NimEnv) (x m : Nat) (end_ : Bool) : Nat :=
  let g := (e.geo x).1
  min (e.job.lines - 1) ((m * g + (if end_ then g - 1 else 0)) / e.ratio)

def NimEnv.region (e : NimEnv) (kind ty : Nat) (l : List Cell) : NimItem :=
  let ks := l.map (fun c => c.k)
  let is := l.map (fun c => c.i)
  let x0 := 8 * ks.foldl min (ks.headD 0)
  let m0 := 8 * is.foldl min (is.headD 0)
  let m1 := 8 * is.foldl max 0 + 7
  { kind := kind, ty := ty, x0 := x0, x1 := min (imgW - 1) (8 * ks.foldl max 0 + 7), first := e.pageLine x0 m0 false
    last := e.pageLine x0 m1 true, loss := min 255 ((l.map (fun (c : Cell) => c.size)).foldl max 0).floor.toNat }

/-! ### Known causes (Table 11.1) -/

/-- Runs of consecutive numbers in a rising list, as first and last. -/
def runs : List Nat → List (Nat × Nat)
  | [] => []
  | a :: t => match runs t with
    | (b, c) :: u => if a + 1 = b then (a, c) :: u else (a, a) :: (b, c) :: u
    | [] => [(a, a)]

/-- The largest residual size over image pixels x0 to x1 of page lines first to last. -/
def NimEnv.worst (e : NimEnv) (g : Array (Array NimEnv.Pix)) (x0 x1 first last : Nat) : Nat :=
  min 255 ((List.range g.size).foldl (fun (m : Rat) i => (List.range (x1 + 1 - x0)).foldl (fun m k =>
    let x := x0 + k
    let p := NimEnv.gpix g i x
    if p.st = 3 ∧ (e.rasterLines x i).any (fun l => decide (first ≤ l) && decide (l ≤ last)) then max m (NimEnv.sizeOf p.r) else m)
    m) 0).floor.toNat

/-- Items of one known cause on one bar: its lines in runs. -/
def NimEnv.known (e : NimEnv) (g : Array (Array NimEnv.Pix)) (ty bar head x0 x1 : Nat) (ls : List Nat) : List NimItem :=
  (runs ls).map (fun r => { kind := 3, ty := ty, bar := bar, head := head, x0 := x0, x1 := x1, first := r.1, last := r.2,
                            loss := e.worst g x0 x1 r.1 r.2 })

/-- STREAM, LATE and THERMAL items of a page. -/
def NimEnv.causes (e : NimEnv) (s : State) (g : Array (Array NimEnv.Pix)) : List NimItem :=
  let ls := List.range e.job.lines
  let stream := ((List.range 8).map (fun b => e.known g 4 b 0xFF 0 (imgW - 1) (ls.filter (fun i => (e.barLine b (i : Nat)).mark == 1)))).flatten
  let late := ((List.range 8).map (fun b => e.known g 5 b 0xFF 0 (imgW - 1)
    (ls.filter (fun i => s.lcw.lateLines.contains (e.job.id, b, i) && (e.barLine b (i : Nat)).mark != 2)))).flatten
  let hot := s.lcw.marks.filter (fun m => m.job == e.job.id && m.cause == 5)
  let heads := (hot.map (fun m => (m.bar, min 15 (m.col / 4032)))).eraseDups
  let thermal := (heads.map (fun h => e.known g 6 h.1 (headOf h.1 h.2) (2016 * h.2) (min (imgW - 1) (2016 * h.2 + 2047))
    (ls.filter (fun i => hot.any (fun m => m.bar == h.1 && m.line == i && min 15 (m.col / 4032) == h.2))))).flatten
  stream ++ late ++ thermal

/-! ### The detail block (R263) -/

/-- Sort items by first page line, keeping their order otherwise. -/
def insItem (x : NimItem) : List NimItem → List NimItem
  | [] => [x]
  | a :: t => if x.first < a.first then x :: a :: t else a :: insItem x t

def NimItem.bytes (x : NimItem) : Bytes :=
  layout 16 [(0, 1, x.kind), (1, 1, x.ty), (2, 1, x.bar), (3, 1, x.head), (4, 2, x.x0), (6, 2, x.x1), (8, 2, x.first),
    (10, 2, x.last), (12, 1, min 255 x.loss), (13, 1, x.e), (14, 2, x.crop)]

def BarReg.bytes (r : BarReg) (unobserved : Bool) : Bytes :=
  layout 16 [(0, 4, bitsOf 32 r.along), (4, 4, bitsOf 32 r.across), (8, 2, r.tiles), (10, 2, r.out),
    (12, 1, b2n r.valid + 2 * b2n unobserved)]

/-- An item has a crop in S0. -/
def NimItem.cropped (x : NimItem) : Bool := x.kind == 1 || x.kind == 2

/-- Number the crops of stored items. -/
def numberCrops : Nat → Nat → List NimItem → List NimItem
  | _, _, [] => []
  | i, mx, x :: t => if x.cropped ∧ i < mx then { x with crop := i } :: numberCrops (i + 1) mx t else x :: numberCrops i mx t

/-- A 64 x 64 crop around the middle of an item, clipped to the image. -/
def NimEnv.cropBlock (e : NimEnv) (x : NimItem) : StreamBlk :=
  let cx := if x.kind = 1 then (x.x0 + x.x1) / 2 else x.x1
  let g := (e.geo cx).1
  let cy := (x.first + x.last) / 2 * e.ratio / g
  let x0 := cx - 32
  let y0 := cy - 32
  let w := min imgW (cx + 32) - x0
  let h := min e.camLines (cy + 32) - y0
  { stream := 0, format := e.format x0 0, job := e.job.id, x0 := x0, w := w, y0 := y0, h := h, data := e.crop x0 w y0 h }

/-! ### The verdict (R260 to R262) -/

/-- What the verdict of a page says. -/
structure Verdict where
  types : Nat := 0
  cause : Nat := 0
  unobserved : Nat := 0
  defect : Nat := 0
  indet : Nat := 0
  coverage : Nat := 0
  regs : List BarReg := List.replicate 8 {}
  found : List NimItem := []
  items : List NimItem := []

def Verdict.verified (v : Verdict) : Bool := v.cause == 0

/-- VERDICT: 0 PASS, 1 DEFECT, 2 INDETERMINATE. -/
def Verdict.value (v : Verdict) : Nat := if v.cause ≠ 0 then 2 else if v.types ≠ 0 then 1 else if 0 < v.indet then 2 else 0

/-- Causes of UNVERIFIED. -/
def State.unvCauses (s : State) (j : Job) (p : NimPage) (compared : Nat) : Nat :=
  let checked := (j.bar 0).checked
  let had := (s.scarab.delivered.filter (fun c => c.job == j.id)).length
  b2n (compared == 0) + 2 * b2n j.checkLate + 4 * b2n j.diverged +
    8 * b2n (!s.nimRuns p || decide (had < checked)) + 16 * b2n (!p.committed)

/-- Everything a page's comparison gives, with the tile estimates. -/
def State.decideVerdict (s : State) (j : Job) (p : NimPage) : Verdict × List (Nat × Nat × Rat × Rat) :=
  if !s.nimRuns p then ({ cause := s.unvCauses j p 0 }, [])
  else
    let e := s.nimEnv j p 0 j.lines
    let g := e.whole
    let cells := e.cells g
    let bad := cells.filter (fun c => decide (e.st.objN Obj.NIM_CELL_COUNT ≤ c.off))
    let ind := cells.filter (fun c => c.indet)
    let cmp := (cells.filter (fun c => !c.indet)).length
    let un := e.unobserved g
    let ts := e.tiles g (fun c => (Config.freeInt (s.free + 1 + c) : Rat))
    let regs := (List.range 8).map (e.register ts)
    let limit := (e.st.objN Obj.NIM_REG_LIMIT : Int)
    let far := regs.any (fun r => r.valid && (decide (limit < r.along.natAbs) || decide (limit < r.across.natAbs)))
    let known := e.causes s g
    let has := fun (t : Nat) => (known ++ p.items).any (fun x => x.ty == t)
    let types := b2n (!bad.isEmpty) + 2 * b2n p.nozzle + 4 * b2n p.unresolved + 8 * b2n far + 16 * b2n (has 4) +
      32 * b2n (has 5) + 64 * b2n (has 6) + 128 * b2n (has 7)
    let found := ((cellGroups bad).map (e.region 1 0) ++ p.items ++ known ++ (cellGroups ind).map (e.region 4 0xFF)).foldl
      (fun l x => insItem x l) []
    let v : Verdict :=
      { types := types, cause := s.unvCauses j p cmp, unobserved := un, defect := min 0xFFFF bad.length
        indet := min 0xFFFF ind.length, coverage := if cells.isEmpty then 0 else 10000 * cmp / cells.length
        regs := regs, found := found }
    let stored := found.take (e.st.objN Obj.NIM_DEFECT_MAX)
    let crops := if v.value = 1 ∧ streamOn e.st 0 then e.st.objN Obj.NIM_S0_MAX else 0
    ({ v with items := numberCrops 0 crops stored }, ts)

/-- The detail block. -/
def Verdict.detail (v : Verdict) (e : NimEnv) : Bytes :=
  layout 64 [(0, 4, e.job.id), (4, 2, e.camLines), (6, 2, e.job.bands), (8, 4, v.items.length), (12, 4, v.found.length)] ++
    (((List.range 8).zip v.regs).map (fun x => x.2.bytes (bitAt v.unobserved x.1))).flatten ++ (v.items.map NimItem.bytes).flatten

/-- The registration objects and events of a verdict (R258). -/
def State.postReg (s : State) (j : Job) (v : Verdict) : State :=
  ((List.range 8).zip v.regs).foldl (fun s x =>
    let b := x.1
    let r := x.2
    let n := r.tiles + r.out
    let range := decide (n < 2 * r.out)
    let s := (s.setBit (Obj.NIM_BAR_STATUS b) 2 (bitAt v.unobserved b)).setBit (Obj.NIM_BAR_STATUS b) 3 range
    let s := if range then s.event 24 0x0B02 [(12, 1, b), (16, 4, j.id), (20, 2, r.out), (22, 2, n)] else s
    if !r.valid then s
    else
      let s := { s with nim := { s.nim with
        reg := upd s.nim.reg b (fun _ => r.along), regAcross := upd s.nim.regAcross b (fun _ => r.across) } }
      ((((s.setObj (Obj.NIM_REG_ALONG b) r.along).setObj (Obj.NIM_REG_ACROSS b) r.across).setObj (Obj.NIM_REG_TILES b) (r.tiles : Nat)).setObj
        (Obj.NIM_REG_JOB b) (j.id : Nat))) s

/-! ### Results for calibration (R275, R277, R279) -/

/-- No change of the registration of bar b or the reference bar is waiting for its boundary or for the host. -/
def State.regQuiet (s : State) (b r : Nat) : Bool :=
  let hit := fun (x : Nat) => x == b || x == r
  !s.cal.staged.any (fun c => hit (unitBar c.cls c.inst)) &&
  !s.cal.props.any (fun p => (p.cls == 3 || p.cls == 4) && hit (unitBar p.cls p.inst)) &&
  !s.toa.pending.any (fun c => c.waiting.any (fun x => registersBar x.key b || registersBar x.key r))

/-- A page is settled for bar b (R277). -/
def State.settledFor (s : State) (j : Job) (b : Nat) : Bool :=
  let r := s.objN Obj.CAL_REG_REF
  let ok := fun (x : Nat) => match (s.calBar x).settled with
    | some p => decide (fwd32 p j.psn < 2 ^ 31)
    | none => true
  ok b && ok r && s.regQuiet b r

/-- A verdict's registration of bar b may be used (R275). -/
def usableReg (j : Job) (v : Verdict) (b : Nat) : Bool :=
  v.verified && j.st != .aborted && (v.regs.getD b {}).valid && !bitAt v.unobserved b

/-- A tile column lies in columns that one head alone serves: its head position. -/
def tileHead (tx : Nat) : Option Nat :=
  let p := min 15 (512 * tx / 4032)
  if (List.range 512).all (fun i => jointOf (512 * tx + i) == 0 && min 15 ((512 * tx + i) / 4032) == p) then some p else none

/-- A verdict's results for bar b and its heads. -/
def State.calResults (s : State) (j : Job) (e : NimEnv) (v : Verdict) (ts : List (Nat × Nat × Rat × Rat)) (b : Nat) : State :=
  let ref := s.objN Obj.CAL_REG_REF
  let r := v.regs.getD b {}
  let q := v.regs.getD ref {}
  let both := usableReg j v b && usableReg j v ref
  let s := if both then s.setObj (Obj.CAL_RESID_ACROSS b) (r.across - q.across) else s
  let settled := s.settledFor j b
  let s := if both ∧ settled ∧ b ≠ ref then
      s.setCalBar b { s.calBar b with results := (s.calBar b).results ++ [(r.along - q.along, j.id)] }
    else s
  if !usableReg j v b ∨ !settled then s
  else
    (barHeads b).foldl (fun s h =>
      let st := s.objN (Obj.CAL_STATE_H h) % 4
      if st < 2 then s
      else
        let mine := ts.filter (fun t => t.2.1 == b && tileHead t.1 == some (h % 16) && NimEnv.inRange t.2.2)
        let u := s.calUnit 3 h
        let est := mine.map (fun t => NimEnv.nearest (NimEnv.pxUm t.2.2.2 (e.geo (256 * t.1)).1) - r.along)
        s.setCalUnit 3 h { u with tiles := u.tiles ++ est, pages := u.pages + 1, job := j.id }) s

/-- CAL_DENS_RESID of each bar with a judged column, on a VERIFIED page (R279). -/
def State.densities (s : State) (p : NimPage) : State :=
  ((List.range 8).zip p.density).foldl (fun s x =>
    if x.2.2 = 0 then s
    else s.setObj (Obj.CAL_DENS_RESID x.1) (min 1000 (NimEnv.nearest (x.2.1 / (x.2.2 : Rat) * 1000)))) s

/-! ### VERDICT_POST -/

/-- Queue the stream blocks of a page (Table 11.6). -/
def State.queueStreams (s : State) (e : NimEnv) (v : Verdict) : State :=
  let s := { s with nim := { s.nim with count := s.nim.count + 1 } }
  let h := e.camLines
  let page := fun (st scale level : Nat) (d : Bytes) =>
    ({ stream := st, format := scale, job := e.job.id, x0 := 0, w := imgW, y0 := 0, h := h, data := d, level := level } : StreamBlk)
  let s := (v.items.filter (fun x => x.crop != 0xFFFF)).foldl (fun s x => s.queueBlock (e.cropBlock x)) s
  let k := e.st.objN Obj.NIM_S1_SCALE
  let s := if streamOn e.st 1 then s.queueBlock (page 1 (e.format 0 k) 0 (e.reduced k)) else s
  let s := if streamOn e.st 2 then
      s.queueBlock (page 2 (32 + 4) (e.st.objN Obj.NIM_S2_LEVEL) (e.reduced 4 ++ e.residualMap e.whole))
    else s
  let rect := e.st.blob Obj.NIM_S3_RECT 0 12
  let n := getN rect 8 2
  let due := (decide (0 < n) && decide (s.nim.count % max 1 n = 0)) || (v.value == 1 && bitAt (byteAt rect 10) 0)
  if streamOn e.st 3 ∧ due then
    let x0 := getN rect 0 2
    let w := min (getN rect 2 2) (imgW - x0)
    let y0 := getN rect 4 2
    let hh := min (getN rect 6 2) (h - y0)
    s.queueBlock { stream := 3, format := e.format x0 0, job := e.job.id, x0 := x0, w := w, y0 := y0, h := hh, data := e.crop x0 w y0 hh }
  else s

/-- Post the verdict of a page whose bands are all done and whose frames have closed. -/
def State.postVerdict (s : State) (j : Job) (p : NimPage) : State :=
  let x := s.decideVerdict j p
  let v := x.1
  let e := s.nimEnv j p 0 j.lines
  let runs := s.nimRuns p
  let s := if runs then { s with free := s.free + 16 * 126 * (e.whole.size / 256 + 1) } else s
  let status := if v.verified then 4 else 5
  let detail := if runs then v.detail e else []
  let y := if runs then s.evidPut false (padTo 64 detail) else (s, some (s.objN Obj.NIM_EVID_PROD, 0))
  let f := evidFields y.2
  let trunc := decide (v.items.length < v.found.length)
  let rec0 := layout 28 [(0, 1, 0x20), (1, 1, f.1 + 4 * b2n trunc + 8 * b2n (j.st == .aborted)), (2, 1, status), (3, 1, v.value),
    (4, 4, j.id), (8, 4, s.stamp), (12, 2, v.types), (14, 1, v.cause), (15, 1, v.unobserved), (16, 2, v.defect), (18, 2, v.indet),
    (20, 2, v.coverage), (22, 2, min 0xFFFF p.suspects.length), (24, 4, f.2.1)]
  let s := y.1.push (32 + j.cls) rec0
  let s := s.journal 5 (rec0 ++ (if y.2.isSome ∧ runs then sha384 detail else zeros 48))
  let s := s.count (if !v.verified then Obj.NIM_UNVERIFIED_CNT else if v.value = 0 then Obj.NIM_PASS_CNT
    else if v.value = 1 then Obj.NIM_DEFECT_CNT else Obj.NIM_INDET_CNT) 1
  let s := s.mapJob j.id (fun k => { k with verdict := some status, unverified := k.unverified || !v.verified })
  let s := if runs then s.postReg j v else s
  let s := s.forward (.verdict j.id status s.nim.reg s.nim.regAcross)
  let s := (List.range 8).foldl (fun s b => s.calResults j e v x.2 b) s
  let s := if v.verified then s.densities p else s
  let s := s.agePairs j.id j.mask p.judged
  let s := if runs then s.queueStreams e v else s
  s.forgetPage j.id

/-- VERDICT_POST. -/
def State.verdictDue (s : State) : State :=
  match s.nimJob with
  | none => s
  | some j =>
    let p := s.pageOf j.id
    let ended := j.st == .fired || (j.st == .aborted && (List.range 8).all (fun b => !j.busyOn b))
    let open_ := (s.nimCams j).any (fun c => (s.cam c).frames.any (fun f => f.job == j.id && !f.closed))
    if p.bands < j.bands ∨ !ended ∨ open_ then s else s.flushStats.postVerdict j p

def execBandComplete (s : State) : Outcome := .next s.bandDone
def execVerdictPost (s : State) : Outcome := .next s.verdictDue

end Sys2Proof.Machine
end

