-- ==== Sys2Proof/Machine/Calibration.lean ====
section
/-! DEFINITION. Calibration (chapter 12): runs, acceptance by repetition, proposals, and saving and restoring. -/

namespace Sys2Proof.Machine

/-! ### Units (R271, R272) -/

/-- The unit exists; PE lanes are no units. -/
def calExists (cls inst : Nat) : Bool :=
  (cls == 1 && decide (inst < 174) && laneGroup inst != 1) || (cls == 2 && decide (inst < 8)) || (cls == 3 && decide (inst < 128))

/-- Domain of a unit. -/
def calDomain (cls inst : Nat) : Nat :=
  if cls = 1 then Obj.domain (0x6C00 + 4 * inst) else if cls = 2 then 2 else 4 + inst / 32

/-- T_ref of a unit. -/
def calRefKey (cls inst : Nat) : Nat :=
  if cls = 1 then Obj.CAL_T_REF_N inst else if cls = 2 then Obj.CAL_T_REF_D inst else Obj.CAL_T_REF_H inst

/-- CAL_DISAGREE_CNT of a unit; class 4 names a bar. -/
def calDisKey (cls inst : Nat) : Nat :=
  if cls = 1 then Obj.CAL_DISAGREE_N inst else if cls = 2 then Obj.CAL_DISAGREE_D inst
  else if cls = 3 then Obj.CAL_DISAGREE_H inst else Obj.CAL_DISAGREE_B inst

/-- The temperature of a subchannel or head; a lane's comes with its result. -/
def State.calTemp (s : State) (cls inst : Nat) (r : List Int) : Int :=
  if cls = 1 then r.getD 2 0 else if cls = 2 then s.obj (Obj.DRAM_TEMP inst) else s.obj (Obj.HL_TEMP inst)

def State.calDelta (s : State) (a b : Int) : Bool := decide (s.obj Obj.CAL_TEMP_DELTA < (a - b).natAbs)

/-- The unit may run: its domain is ready and a lane is locked. -/
def State.calRuns (s : State) (cls inst : Nat) : Bool :=
  s.ready (calDomain cls inst) && (cls != 1 || bitAt (s.objN (Obj.LANE_STATUS inst)) lnLocked)

/-- Start the first run of a pair. -/
def State.calStart (s : State) (cls inst : Nat) : State :=
  (s.setCalState cls inst 2).setCalUnit cls inst { s.calUnit cls inst with
    first := none, temp0 := s.calTemp cls inst [], retryAt := none, tiles := [], pages := 0 }

/-- CAL_UNIT_DUE: a unit that is due, or whose temperature has moved, starts its run. -/
def State.calDue (s : State) (cls inst : Nat) : State :=
  let u := s.calUnit cls inst
  let st := s.calState cls inst
  let moved := cls == 1 || s.calDelta (s.calTemp cls inst []) (s.obj (calRefKey cls inst))
  if !calExists cls inst ∨ 2 ≤ st ∨ u.retryAt.isSome ∨ !(st = 1 ∨ moved) then s
  else if s.calRuns cls inst then s.calStart cls inst
  else s.setCalState cls inst 1

/-- CAL_RUN: the named unit becomes due. -/
def State.calRunSet (s : State) (v : Nat) : State × Nat :=
  let cls := field v 24 8
  let inst := field v 0 16
  if !calExists cls inst ∨ field v 16 8 ≠ 0 then (s, 4)
  else if !s.ready (calDomain cls inst) then (s, 5)
  else if cls = 1 ∧ !bitAt (s.objN (Obj.LANE_STATUS inst)) lnLocked then (s, 0x0A)
  else if 2 ≤ s.calState cls inst then (s, 0)
  else ((s.setCalState cls inst 1).setCalUnit cls inst { s.calUnit cls inst with retryAt := none }, 0)

/-! ### Acceptance (R273, R274, R381) -/

/-- The mean of two results, a half rounded toward the value in force. -/
def meanToward (a b cur : Int) : Int :=
  let f := (a + b) / 2
  if (a + b) % 2 = 0 ∨ cur ≤ f then f else f + 1

/-- Delays of a 256-byte delay set (R378), as offset and width. -/
def delayFields : List (Nat × Nat) :=
  (List.range 16).map (fun i => (i, 1)) ++
    ((List.range 10).map (fun y => [(16 + 24 * y, 2), (18 + 24 * y, 2)] ++ (List.range 19).map (fun i => (20 + 24 * y + i, 1)))).flatten

/-- A result of class 2 is the narrowest read eye and the 256 bytes of the delay set chosen. -/
def setOf (r : List Int) : Bytes := slice ((r.drop 1).map (fun v => BitVec.ofNat 8 v.toNat)) 0 256

/-- The results of a pair agree. -/
def State.calAgrees (s : State) (cls inst : Nat) (a b : List Int) : Bool :=
  let near := fun (x y : Int) (n : Nat) => decide ((x - y).natAbs ≤ n)
  if cls = 1 then
    near (a.getD 0 0) (b.getD 0 0) (s.objN Obj.CAL_PHASE_AGREE) &&
      decide (s.obj (Obj.LANE_EYE_MIN_W inst) ≤ a.getD 1 0) && decide (s.obj (Obj.LANE_EYE_MIN_W inst) ≤ b.getD 1 0)
  else if cls = 2 then
    delayFields.all (fun f => near (getN (setOf a) f.1 f.2 : Nat) (getN (setOf b) f.1 f.2 : Nat) (s.objN Obj.DRAM_CAL_AGREE)) &&
      decide (s.obj Obj.DRAM_EYE_MIN ≤ a.getD 0 0) && decide (s.obj Obj.DRAM_EYE_MIN ≤ b.getD 0 0)
  else near (a.getD 0 0) (b.getD 0 0) (s.objN Obj.CAL_REG_AGREE)

/-- CAL_DISAGREE: cause 1 disagree, 2 unstable; the third in a row is an ADVISORY fault. -/
def State.calDisagrees (s : State) (cls inst cause fails : Nat) (a b : Int) : State :=
  let s := s.event 24 0x0C01 [(12, 1, cls), (13, 1, cause), (14, 2, inst), (16, 4, bitsOf 32 a), (20, 4, bitsOf 32 b)]
  let s := s.count (calDisKey cls inst) 1
  if 3 ≤ fails then s.latch 0x0C01 advisory inst [] false false none else s

/-! ### Taking effect (Table 12.1, R381) -/

/-- A lane's phase awaits its boundary: a line boundary of an HL lane's bar, a frame-end edge for a CX lane; a TW or EN
lane takes it between frames, at once. -/
def State.takePhase (s : State) (n : Nat) (v : Int) (restoring : Bool) : State :=
  let p := s.obj (Obj.CAL_PHASE n)
  if v = p then if restoring then s.calApplied 1 n 0 4 0 else s
  else
    let s := s.setCalUnit 1 n { s.calUnit 1 n with target := some v, base := p, restoring := restoring }
    if laneGroup n = 0 ∨ laneGroup n = 2 then s else s.jumpPhase n

/-- The delays of one rank of a waiting set go to its function copies; with the last rank the CA delays, and CAL_APPLIED
with a change the spec does not define. -/
def State.takeDelays (s : State) (ch rank : Nat) : State :=
  let u := s.calUnit 2 ch
  if u.set.isEmpty ∨ bitAt u.setDone rank then s
  else
    let s := s.setBlob (Obj.CAL_DELAY_SET ch) (16 + 120 * rank) (slice u.set (16 + 120 * rank) 120)
    let done := putBit u.setDone rank true
    if done = (if Config.dramTwoRanks then 3 else 1) then
      let s := s.setBlob (Obj.CAL_DELAY_SET ch) 0 (slice u.set 0 16)
      let x := s.drawInt
      let s := x.2.setCalUnit 2 ch { x.2.calUnit 2 ch with set := [], setDone := 0 }
      s.calApplied 2 ch 0 (4 * b2n u.restoring) x.1
    else s.setCalUnit 2 ch { u with setDone := done }

/-- DRAM is READY once every subchannel holds a delay set (R481). -/
def State.dramTrained (s : State) : State :=
  if s.obj Obj.DRAM_STATE = 2 ∧ (List.range 8).all (fun c => (s.calUnit 2 c).hasRef && (s.calUnit 2 c).set.isEmpty) then
    s.setObj Obj.DRAM_STATE 3
  else s

/-- A subchannel's delay set awaits the next REFab of each rank; in TRAINING it is written at once. -/
def State.takeSet (s : State) (ch : Nat) (d : Bytes) (restoring : Bool) : State :=
  let s := s.setCalUnit 2 ch { s.calUnit 2 ch with set := d, setDone := 0, restoring := restoring }
  if s.obj Obj.DRAM_STATE = 2 then ((s.takeDelays ch 0).takeDelays ch 1).dramTrained else s

/-- A correction for an along-web error beyond the dead band: staged, or held as a proposal (R278 to R280). -/
def State.correct (s : State) (cls inst : Nat) (e : Int) (job : Nat) : State :=
  if e.natAbs ≤ s.objN Obj.CAL_REG_DEAD then s
  else
    let m := s.obj Obj.CAL_REG_STEP_MAX
    let d := -clampI (-m) m e
    if bitAt (s.objN Obj.CAL_APPROVE) (if cls = 3 then 2 else 1) then s.propose cls inst d job 0
    else { s with cal := { s.cal with staged := s.cal.staged ++ [⟨cls, inst, d, false⟩] } }

/-- An accepted pair of a lane, subchannel or head. -/
def State.calAccepts (s : State) (cls inst : Nat) (a b : List Int) (t : Int) : State :=
  let u := s.calUnit cls inst
  let s := s.setCalUnit cls inst { u with first := none, fails := 0, hasRef := true, accepted := true, tiles := [], pages := 0 }
  let s := (s.setObj (calRefKey cls inst) t).setCalState cls inst 0
  if cls = 1 then
    let k := Obj.CAL_EYE_UI_N inst
    let s := s.setObj k (meanToward (a.getD 1 0) (b.getD 1 0) (s.obj k))
    s.takePhase inst (meanToward (a.getD 0 0) (b.getD 0 0) (s.obj (Obj.CAL_PHASE inst))) false
  else if cls = 2 then
    let k := Obj.CAL_EYE_UI_D inst
    let s := s.setObj k (meanToward (a.getD 0 0) (b.getD 0 0) (s.obj k))
    let cur := s.blob (Obj.CAL_DELAY_SET inst) 0 256
    let d := delayFields.foldl (fun (d : Bytes) f =>
      Sys2Proof.splice d f.1 (le f.2 (meanToward (getN (setOf a) f.1 f.2 : Nat) (getN (setOf b) f.1 f.2 : Nat) (getN cur f.1 f.2 : Nat)).toNat))
      (zeros 256)
    s.takeSet inst d false
  else
    let e := meanToward (a.getD 0 0) (b.getD 0 0) 0
    (s.setObj (Obj.CAL_RESID inst) e).correct 3 inst e u.job

/-- A run of a lane, subchannel or head ends with a result: the first of a pair is kept, the second decides it. -/
def State.calResult (s : State) (cls inst : Nat) (r : List Int) : State :=
  let u := s.calUnit cls inst
  let t := s.calTemp cls inst r
  let again := fun (s : State) (fails : Nat) =>
    (s.setCalState cls inst 1).setCalUnit cls inst { s.calUnit cls inst with
      first := none, fails := fails, tiles := [], pages := 0, retryAt := some (s.now + s.objN Obj.CAL_RETRY_S * 1000 * msNs) }
  if !s.calRuns cls inst then s.calInterrupt cls inst
  else
    match u.first with
    | none =>
      (s.setCalState cls inst 3).setCalUnit cls inst { u with
        first := some r, temp0 := if cls = 1 then t else u.temp0, tiles := [], pages := 0 }
    | some a =>
      let f := u.fails + 1
      if s.calDelta t u.temp0 then again (s.calDisagrees cls inst 2 f (a.getD 0 0) (r.getD 0 0)) f
      else if s.calAgrees cls inst a r then s.calAccepts cls inst a r t
      else again (s.calDisagrees cls inst 1 f (a.getD 0 0) (r.getD 0 0)) f

/-- A result of a bar: pairs slide (R274). -/
def State.barResult (s : State) (b : Nat) (e : Int) (job : Nat) : State :=
  let x := s.calBar b
  match x.first with
  | none => s.setCalBar b { x with first := some e }
  | some a =>
    if s.calAgrees 4 b [a] [e] then
      let m := meanToward a e 0
      let s := (s.setCalBar b { x with first := none, fails := 0 }).setObj (Obj.CAL_RESID_ALONG b) m
      s.correct 4 b m job
    else
      let f := x.fails + 1
      (s.setCalBar b { x with first := some e, fails := f }).calDisagrees 4 b 1 f a e

/-- CAL_RUN_COMPLETE. A lane's result is its phase, eye width and temperature; a subchannel's its eye and delay set; a
head's and a bar's come from verdicts. -/
def State.calComplete (s : State) (cls inst : Nat) (r : List Int) : State :=
  if cls = 4 then
    match (s.calBar inst).results with
    | [] => s
    | x :: t => (s.setCalBar inst { s.calBar inst with results := t }).barResult inst x.1 x.2
  else if !calExists cls inst ∨ s.calState cls inst < 2 then s
  else if cls = 3 then
    let u := s.calUnit 3 inst
    if u.pages < s.objN Obj.CAL_HEAD_PAGES ∨ u.tiles.length < s.objN Obj.NIM_REG_MIN_TILES then s
    else s.calResult 3 inst [NimEnv.nearest (NimEnv.median (u.tiles.map (fun (v : Int) => (v : Rat))))]
  else s.calResult cls inst r

/-- CAL_RETRY: CAL_RETRY_S after a disagreement. -/
def State.calRetry (s : State) (cls inst : Nat) : State :=
  match (s.calUnit cls inst).retryAt with
  | none => s
  | some t => if t ≤ s.now ∧ s.calRuns cls inst then s.calStart cls inst else s

/-! ### Host approval (R280) -/

/-- A proposal that still stands. -/
def State.proposal? (s : State) (q : Nat) : Option Proposal :=
  s.cal.props.find? (fun p => p.seq == q && decide (s.now < p.since + s.objN Obj.CAL_PROPOSAL_S * 1000 * msNs))

def State.calAcceptSet (s : State) (q : Nat) : State × Nat :=
  match s.proposal? q with
  | none => (s, 1)
  | some p =>
    let s := s.withdraw (fun x => x.seq == q)
    if p.cls = 5 then
      let n := p.value.toNat
      (s.deadDue p.inst n (s.nozStatus p.inst n) p.job p.loss, 0)
    else ({ s with cal := { s.cal with staged := s.cal.staged ++ [⟨p.cls, p.inst, p.value, true⟩] } }, 0)

def State.calRejectSet (s : State) (q : Nat) : State × Nat :=
  match s.proposal? q with
  | none => (s, 1)
  | some _ => (s.withdraw (fun x => x.seq == q), 0)

/-- CAL_PROPOSAL_EXPIRE. -/
def State.calExpire (s : State) (q : Nat) : State :=
  if (s.proposal? q).isSome then s else s.withdraw (fun x => x.seq == q)

/-- CAL_PROPOSALS. -/
def State.calProposals (s : State) : Bytes :=
  slice ((s.cal.props.map (fun p => layout 16 [(0, 4, p.seq), (4, 1, p.cls), (6, 2, p.inst), (8, 4, bitsOf 32 p.value), (12, 4, p.job)])).flatten)
    0 1024

/-- CAL_STATUS of a bar: settled, and a proposal pending. -/
def State.calBarStatus (s : State) (b : Nat) : Nat :=
  b2n (s.regQuiet b (s.objN Obj.CAL_REG_REF)) +
    2 * b2n (s.cal.props.any (fun p => (p.cls == 3 || p.cls == 4) && unitBar p.cls p.inst == b))

/-! ### Saving and restoring (R281, R282) -/

/-- All lane, subchannel and head units. -/
def calUnits : List (Nat × Nat) :=
  ((List.range 174).filter (fun n => laneGroup n != 1)).map (fun n => (1, n)) ++
    (List.range 8).map (fun n => (2, n)) ++ (List.range 128).map (fun n => (3, n))

/-- VLEN of a class. -/
def calVlen (cls : Nat) : Nat := if cls = 1 then 1 else if cls = 2 then 256 else 0

def State.calEntry (s : State) (cls inst : Nat) : Bytes :=
  let q := if cls = 1 then s.objN (Obj.CAL_EYE_UI_N inst) else if cls = 2 then s.objN (Obj.CAL_EYE_UI_D inst)
    else min 0xFFFF (s.obj (Obj.CAL_RESID inst)).natAbs
  let fl := b2n (s.calUnit cls inst).accepted + 2 * b2n (bitAt (s.objN (calStateKey cls inst)) 2)
  let v := if cls = 1 then le 1 (bitsOf 8 (s.obj (Obj.CAL_PHASE inst)))
    else if cls = 2 then s.blob (Obj.CAL_DELAY_SET inst) 0 256 else []
  layout 12 [(0, 1, cls), (1, 1, fl), (2, 2, inst), (4, 2, bitsOf 16 (s.obj (calRefKey cls inst))), (6, 2, q), (8, 2, calVlen cls)] ++
    padTo 4 v

/-- CAL_IMAGE. -/
def State.calImage (s : State) : Bytes :=
  let body := (calUnits.map (fun u => s.calEntry u.1 u.2)).flatten
  let hdr := layout 12 [(0, 1, 1), (2, 2, calUnits.length), (4, 4, 16 + body.length), (8, 4, s.time.sec)]
  hdr ++ le 4 (crc32c (hdr ++ body)) ++ body

/-- Cut the entries of an image: class, instance, T_ref and VALUE; none where one does not fit. -/
def calEntries : Nat → Bytes → Option (List (Nat × Nat × Int × Bytes))
  | 0, b => if b.isEmpty then some [] else none
  | n + 1, b =>
    let cls := byteAt b 0
    let inst := getN b 2 2
    let len := 12 + (calVlen cls + 3) / 4 * 4
    if b.length < len ∨ !calExists cls inst ∨ getN b 8 2 ≠ calVlen cls then none
    else (calEntries n (b.drop len)).map (fun t => (cls, inst, getI b 4 2, slice b 12 (calVlen cls)) :: t)

/-- One restored entry. In TRAINING a restored delay set is checked with bursts, whose outcome is open (R481). -/
def State.restoreEntry (s : State) (cls inst : Nat) (t : Int) (v : Bytes) : State :=
  let s := s.setObj (calRefKey cls inst) t
  let training := cls == 2 && s.obj Obj.DRAM_STATE == 2
  let x := s.drawNat
  let pass := !training || decide (x.1 % 2 = 0)
  let s := if training then x.2 else s
  let u := s.calUnit cls inst
  let s := s.setCalUnit cls inst { u with hasRef := pass, retryAt := none }
  let due := !pass || (cls != 1 && s.calDelta (s.calTemp cls inst []) t)
  let s := s.setObj (calStateKey cls inst) (putBit (s.objN (calStateKey cls inst)) 2 true : Nat)
  let s := s.setCalState cls inst (b2n due)
  if cls = 1 then s.takePhase inst (getI v 0 1) true
  else if cls = 2 then s.takeSet inst v true
  else s.calApplied 3 inst 0 4 0

/-- CAL_RESTORE. -/
def State.calRestoreSet (s : State) (d : Bytes) : State × Nat :=
  let bad := d.length < 16 ∨ byteAt d 0 ≠ 1 ∨ getN d 4 4 ≠ d.length ∨ getN d 12 4 ≠ crc32c (d.take 12 ++ d.drop 16)
  match if bad then none else calEntries (getN d 2 2) (d.drop 16) with
  | none => (s, 4)
  | some l =>
    let x := l.foldl (fun (x : State × Nat × Nat) e =>
      let s := x.1
      if (s.calUnit e.1 e.2.1).accepted ∨ 2 ≤ s.calState e.1 e.2.1 then (s, x.2.1, x.2.2 + 1)
      else (s.restoreEntry e.1 e.2.1 e.2.2.1 e.2.2.2, x.2.1 + 1, x.2.2)) (s, 0, 0)
    (x.1.setObj Obj.CAL_RESTORE_RESULT (x.2.1 + 65536 * x.2.2 : Nat), 0)

def execCalUnitDue (cls inst : Nat) (s : State) : Outcome := .next (s.calDue cls inst)
def execCalRunComplete (cls inst : Nat) (result : List Int) (s : State) : Outcome := .next (s.calComplete cls inst result)
def execCalRetry (cls inst : Nat) (s : State) : Outcome := .next (s.calRetry cls inst)
def execCalProposalExpire (seq : Nat) (s : State) : Outcome := .next (s.calExpire seq)

end Sys2Proof.Machine
end

