-- ==== Sys2Proof/Machine/Cirrus.lean ====
section
/-! DEFINITION. Cirrus (chapter 13): the tick of device time, anchors, the PTP slots, the servo and its sources, steps and
the pulse-per-second pins. -/

namespace Sys2Proof.Machine

/-! ### The counters (R284 to R288) -/

/-- INC, in 2^-32 ns (R285). -/
def State.inc (s : State) : Nat := ((1 + s.time.rate / (10 ^ 9 : Nat)) * (2 ^ 32 : Nat)).floor.toNat

def nsPerSec : Nat := 1000000000

/-- ARGS of a TIME_ANCHOR behind its STAMP: flags [2] STEP, [3] RESUME. -/
def State.anchorArgs (s : State) (flags : Nat) : Bytes :=
  le 4 s.stamp ++ le 6 s.time.sec ++ le 4 s.time.ns ++ le 4 s.time.frac ++ le 1 s.time.state ++ le 1 (s.time.source % 4 + flags)

/-- Raise and journal an anchor; TIME_LAST_ANCHOR keeps it. -/
def State.postAnchor (s : State) (x : Bytes) : State :=
  let ev := Sys2Proof.splice (Sys2Proof.splice (s.eventBytes 0x0D01 0 0 []) 4 (x.take 4)) 12 (x.drop 4)
  (((s.setBlob Obj.TIME_LAST_ANCHOR 0 x).push 24 ev).journal 0x0B ev)

/-- r moves toward r_tgt at no more than TIME_RATE_SLEW (R293), in one nanosecond. -/
def State.slewRate (s : State) : Rat :=
  let m : Rat := (s.objN Obj.TIME_RATE_SLEW : Nat) / (nsPerSec : Rat)
  s.time.rate + clampQ (-m) m (s.time.tgt - s.time.rate)

/-- One DCLK cycle. DCLK runs while PD1 is on; in RETENTION each cycle of ACLK is counted instead (R464). -/
def State.tick (s : State) : State :=
  if s.ready 1 then
    let i := s.inc
    let f := s.time.frac + i
    let n := s.time.ns + f / 2 ^ 32
    let t := { s.time with acc := s.time.acc + i, frac := f % 2 ^ 32, rate := s.slewRate }
    if n < nsPerSec then { s with time := { t with ns := n } }
    else
      let s := { s with time := { t with ns := n - nsPerSec, sec := (t.sec + 1) % 2 ^ 48 } }
      { s with time := { s.time with anchors := s.time.anchors ++ [s.anchorArgs 0] } }
  else if s.domain 1 = 1 then { s with time := { s.time with dormant := s.time.dormant + 1 } }
  else s

/-- TIME_ANCHOR: the anchor of a SEC carry is raised. -/
def State.timeAnchorDue (s : State) : State :=
  match s.time.anchors with
  | [] => s
  | a :: t => ({ s with time := { s.time with anchors := t } }).postAnchor a

/-! ### Sources (R294, R295, R297) -/

def ptpListening : Nat := 1
def ptpUncal : Nat := 2
def ptpLocked : Nat := 3
def ptpLost : Nat := 4

def State.ptp (s : State) (d : Nat) : PtpSlot := if d = 2 then s.time.pps else Tab.get {} s.time.slots d

def State.setPtp (s : State) (d : Nat) (x : PtpSlot) : State :=
  if d = 2 then { s with time := { s.time with pps := x } }
  else { s with time := { s.time with slots := Tab.set {} s.time.slots d x } }

/-- The slot's own object of its state, and PTP_SLOT_STATE. PPS_IN has neither. -/
def State.ptpState (s : State) (d st cause : Nat) : State :=
  let x := s.ptp d
  if x.state = st then s
  else
    let s := s.setPtp d { x with state := st }
    if d = 2 then s else (s.setObj (Obj.PTP_STATE d) (st : Nat)).event 24 0x0D05 [(12, 1, d), (13, 1, st), (14, 1, cause)]

/-- PTP_LOCK_NS of a source, 2^-16 ns. -/
def State.lockWindow (s : State) (d : Nat) : Nat := s.objN (Obj.PTP_LOCK_NS (if d = 2 then 0 else d)) * 65536

/-- A source may serve: a LOCKED slot, or PPS_IN LOCKED with PPS_IN_SOURCE set. -/
def State.srcLocked (s : State) (d : Nat) : Bool :=
  (s.ptp d).state == ptpLocked && (d != 2 || (s.obj Obj.PPS_IN_SOURCE == 1 && s.obj Obj.PPS_IN_ENABLE == 1))

/-- TIME_STATE under R297 with the present source, 3 for none. -/
def State.timeStateNow (s : State) : Nat :=
  let d := s.time.source
  if d = 3 then (if s.time.state = 0 then 0 else 3)
  else if s.srcLocked d ∧ !s.time.stepPending ∧ (s.ptp d).filt.any (fun f => decide (f.natAbs ≤ s.lockWindow d)) then 2
  else 1

/-- Whole seconds of the holdover in progress. -/
def State.holdSec (s : State) : Nat := (s.now - s.time.holdStart) / nsPerSec

/-- Bring TIME_STATE up to date, with TIME_HOLDOVER on entering and leaving. -/
def State.timeEval (s : State) : State :=
  let old := s.time.state
  let new := s.timeStateNow
  if new = old then s
  else
    let s := { s with time := { s.time with state := new } }
    let s := s.setObj Obj.TIME_STATE (new : Nat)
    if new = 3 then
      ({ s with time := { s.time with holdStart := s.now, tgt := s.time.rint, stepPending := false } }).event 24 0x0D04 [(12, 1, 1)]
    else if old = 3 then
      let s := s.count Obj.TIME_HOLD_S s.holdSec
      s.event 24 0x0D04 [(12, 1, 0), (16, 4, s.objN Obj.TIME_HOLD_S)]
    else s

/-- The device changes its source, 3 for none; r_int and r are kept (R294). -/
def State.switchSource (s : State) (new : Nat) : State :=
  let old := s.time.source
  if new = old then s.timeEval
  else
    let code := fun (d : Nat) => if d = 3 then 0xFF else d
    let x := s.drawInt
    let diff : Int × State := match (s.ptp old).filt, (s.ptp new).filt, decide (old ≠ 3 ∧ new ≠ 3) with
      | some a, some b, true => (b - a, s)
      | _, _, _ => x
    let s := { diff.2 with time := { diff.2.time with source := new, stepPending := false } }
    let s := s.setObj Obj.TIME_SOURCE (code new : Nat)
    let s := match (s.ptp new).master with
      | some m => if new < 2 then s.setObj Obj.TIME_UTC_OFFSET m.utcOffset else s
      | none => s
    let s := s.event 24 0x0D02 [(12, 1, code old), (13, 1, code new), (16, 8, bitsOf 64 diff.1)]
    s.timeEval

/-- Choose the source under R294 and R298. -/
def State.chooseSource (s : State) : State :=
  let l0 := s.srcLocked 0
  let l1 := s.srcLocked 1
  let best := if l0 && l1 then (if s.obj Obj.TIME_PREF = 1 then 1 else 0) else if l0 then 0 else if l1 then 1
    else if s.srcLocked 2 then 2 else 3
  let d := s.time.source
  if d < 2 then
    let st := (s.ptp d).state
    if st = ptpLocked ∨ st = ptpUncal then s.timeEval else s.switchSource best
  else if d = 2 ∧ best = 3 ∧ (s.ptp 2).state = ptpUncal ∧ s.obj Obj.PPS_IN_SOURCE = 1 ∧ s.obj Obj.PPS_IN_ENABLE = 1 then s.timeEval
  else s.switchSource best

/-! ### Steps (R296) -/

/-- The eight bars are idle and no job is STAGED. -/
def State.mayStep (s : State) : Bool := s.allIdle && !s.hq.jobs.any (fun j => j.bars.any (fun b => b.staged))

/-- Device time moves by d units of 2^-32 ns. `host` says who asked. -/
def State.stepTime (s : State) (d : Int) (host : Bool) : State :=
  let t := (((s.devNs * 2 ^ 32 + s.time.frac : Nat) : Int) + d).toNat
  let move := d / 65536
  let shift := fun (x : PtpSlot) => { x with filt := x.filt.map (fun f => f + move), theta := x.theta + move }
  let s := { s with time := { s.time with
    sec := t / 2 ^ 32 / nsPerSec % 2 ^ 48, ns := t / 2 ^ 32 % nsPerSec, frac := t % 2 ^ 32
    stepPending := false
    slots := s.time.slots.map (fun (e : Nat × PtpSlot) => (e.1, shift e.2))
    pps := shift s.time.pps
    anchors := s.time.anchors.filter (fun a => getN a 0 4 ≠ s.stamp)
    stepHeads := (List.range 128).filter (fun h => s.inService h)
    stepFrames := List.range 128 } }
  let s := [0, 1].foldl (fun s i => match (s.ptp i).filt with
    | some f => s.setObj (Obj.PTP_OFFSET i) f
    | none => s) s
  let s := (s.enterHold false).timeEval
  let s := s.event 24 0x0D03 [(12, 1, b2n host), (16, 8, bitsOf 64 (d / 2 ^ 32))]
  s.postAnchor (s.anchorArgs 4)

/-- The source calls for a step while its offset exceeds TIME_STEP_MIN; it is made at once, or waits. -/
def State.sourceStep (s : State) : State :=
  let d := s.time.source
  if d = 3 then s
  else
    let th := (s.ptp d).theta
    if th.natAbs ≤ s.objN Obj.TIME_STEP_MIN * 65536 then
      ({ s with time := { s.time with stepPending := false } }).timeEval
    else if s.mayStep then s.stepTime (-th * 65536) false
    else ({ s with time := { s.time with stepPending := true } }).timeEval

/-- TIME_STEP_DEFERRED. -/
def State.deferredStep (s : State) : State := if s.time.stepPending && s.mayStep then s.sourceStep else s

/-- TIME_STEP: the host sets the time it carries, under the same conditions. -/
def State.hostStep (s : State) (v : Bytes) : State × Nat :=
  if v.length ≠ 16 ∨ getN v 6 2 ≠ 0 ∨ nsPerSec ≤ getN v 8 4 then (s, 4)
  else
    let t : Int := ((getN v 0 6 * nsPerSec + getN v 8 4) * 2 ^ 32 + getN v 12 4 : Nat)
    let d := t - ((s.devNs * 2 ^ 32 + s.time.frac : Nat) : Int)
    if d.natAbs ≤ s.objN Obj.TIME_STEP_MIN * 2 ^ 32 ∨ !s.mayStep then (s, 0x0A) else (s.stepTime d true, 0)

/-! ### The servo (R293) -/

/-- One measurement of the selected source: theta in 2^-16 ns, ns since the previous one. -/
def State.servo (s : State) (theta : Int) (dtNs : Nat) : State :=
  let th : Rat := (theta : Rat) / 65536
  let dt : Rat := (dtNs : Rat) / (nsPerSec : Rat)
  let mx : Rat := (s.objN Obj.TIME_RATE_MAX : Nat)
  let sl : Rat := (s.objN Obj.TIME_SLEW_MAX : Nat)
  let rint := clampQ (-mx) mx (s.time.rint - s.objF Obj.TIME_KI * th * dt)
  let rph := clampQ (-sl) sl (-(s.objF Obj.TIME_KP) * th)
  { s with time := { s.time with rint := rint, tgt := clampQ (-mx) mx (rint + rph) } }

/-- A measurement enters a slot's filter, whose result the spec leaves open; sixteen in a row within PTP_LOCK_NS of it
lock the slot. A card without fire authority follows its twin link instead (R427). -/
def State.filterIn (s : State) (d : Nat) (theta : Int) : State :=
  let x := s.ptp d
  let y := s.drawInt
  let s := y.2
  let f := y.1
  let good := if (theta - f).natAbs ≤ s.lockWindow d then x.good + 1 else 0
  let dt := s.now - x.lastNs
  let dt := if x.filt.isSome then dt else 0
  let s := s.setPtp d { x with filt := some f, theta := theta, good := good, bad := 0, lastNs := s.now }
  let s := if d < 2 then s.setObj (Obj.PTP_OFFSET d) f else s
  let s := if x.state = ptpUncal ∧ 16 ≤ good then s.ptpState d ptpLocked 0 else s
  let s := if (s.ptp 0).state = ptpLocked ∧ (s.ptp 1).state = ptpLocked then
      s.setObj Obj.TIME_DOMAIN_DIFF (((s.ptp 1).filt.getD 0) - ((s.ptp 0).filt.getD 0))
    else s
  let s := s.chooseSource
  if s.time.source = d ∧ s.hasAuthority then (s.servo theta dt).sourceStep else s

/-- An outlier is discarded; sixteen in a row unlock a slot and start its filter anew (R292). -/
def State.outlier (s : State) (d : Nat) : State :=
  let x := s.ptp d
  let s := s.count (Obj.PTP_OUTLIER_CNT d) 1
  if x.bad + 1 < 16 then s.setPtp d { x with bad := x.bad + 1, good := 0 }
  else
    let s := s.setPtp d { x with bad := 0, good := 0, filt := none }
    (if x.state = ptpLocked then s.ptpState d ptpUncal 3 else s).chooseSource

/-- PTP_MEASUREMENT. -/
def State.ptpMeasure (s : State) (d : Nat) (m : PtpMeas) : State :=
  let x := s.ptp d
  if s.obj (Obj.PTP_ENABLE d) = 0 ∨ !bitAt (s.objN (Obj.PTP_PORTS d)) m.port ∨ x.master.isNone then s
  else
    let s := if x.state = ptpLost then s.ptpState d ptpUncal 0 else s
    let theta := m.offset - s.obj (Obj.PTP_ASYM d) * 65536 / 1000
    let far := match x.filt with
      | some f => decide (8 * s.lockWindow d < (theta - f).natAbs)
      | none => false
    if far then s.outlier d
    else
      let s := (s.setObj (Obj.PTP_PATH_DELAY d) m.pathDelay).setObj (Obj.PTP_RX_PORT d) (m.port : Nat)
      let s := if s.time.source = d then s.setObj Obj.TIME_UTC_OFFSET m.utcOffset else s
      s.filterIn d theta

/-- A slot is LOST: 1 timeout, 2 grandmaster change. -/
def State.ptpLose (s : State) (d cause : Nat) (master : Option Announce) : State :=
  let s := s.setPtp d { s.ptp d with master := master, filt := none, good := 0, bad := 0, lastNs := s.now }
  let s := if d < 2 then s.count (Obj.PTP_LOSS_CNT d) 1 else s
  (s.ptpState d ptpLost cause).chooseSource

/-- PTP_LOSS. -/
def State.ptpTimeout (s : State) (d : Nat) : State :=
  let x := s.ptp d
  if (x.state = ptpUncal ∨ x.state = ptpLocked) ∧ x.lastNs + s.objN (Obj.PTP_LOSS_MS d) * msNs ≤ s.now then s.ptpLose d 1 none else s

/-- The comparison of Announce data: the first is better. -/
def announceBetter (a b : Announce) : Bool :=
  let k := fun (m : Announce) => [m.priority1, m.clockClass, m.accuracy, m.variance, m.priority2, m.gmId, m.stepsRemoved, m.port]
  decide (k a < k b)

/-- PTP_ANNOUNCE: the best master across both ports is selected. -/
def State.ptpAnnounced (s : State) (d : Nat) (m : Announce) : State :=
  let x := s.ptp d
  let take := fun (s : State) => (s.setObj (Obj.PTP_GM_ID d) (m.gmId : Nat)).setObj (Obj.PTP_RX_PORT d) (m.port : Nat)
  if s.obj (Obj.PTP_ENABLE d) = 0 ∨ !bitAt (s.objN (Obj.PTP_PORTS d)) m.port then s
  else
    match x.master with
    | none => (take (s.setPtp d { x with master := some m, lastNs := s.now })).ptpState d ptpUncal 0
    | some o =>
      if o.gmId = m.gmId ∧ o.port = m.port then
        let s := s.setPtp d { x with master := some m }
        if s.time.source = d then s.setObj Obj.TIME_UTC_OFFSET m.utcOffset else s
      else if !announceBetter m o then s
      else if o.gmId = m.gmId then take (s.setPtp d { x with master := some m })
      else (take (s.ptpLose d 2 (some m))).ptpState d ptpUncal 0

/-- A write of PTP_ENABLE. -/
def State.ptpEnableSet (s : State) (d v : Nat) : State :=
  let s := s.setObj (Obj.PTP_ENABLE d) (v : Nat)
  let st := (s.ptp d).state
  if v = 0 then ((s.setPtp d { state := st }).ptpState d 0 0).chooseSource
  else if st = 0 then s.ptpState d ptpListening 0 else s

/-- TIME_PREF: a LOCKED slot becomes the source at once. -/
def State.timePrefSet (s : State) (v : Nat) : State × Nat :=
  if !s.srcLocked v then (s, 0x0A) else ((s.setObj Obj.TIME_PREF (v : Nat)).switchSource v, 0)

/-! ### Pulse per second (R298, R299) -/

/-- PPS_IN_EDGE: a rising edge. -/
def State.ppsEdge (s : State) : State :=
  if s.obj Obj.PPS_IN_ENABLE = 0 then s
  else
    let t := (((s.devNs * 2 ^ 32 + s.time.frac : Nat) : Int) - s.obj Obj.PPS_IN_DELAY * 2 ^ 32).toNat
    let ns := t / 2 ^ 32 % nsPerSec
    let err : Int := if ns ≤ nsPerSec / 2 then (ns : Nat) else (ns : Int) - (nsPerSec : Nat)
    let full := le 6 (t / 2 ^ 32 / nsPerSec) ++ [0, 0] ++ le 4 ns ++ le 4 (t % 2 ^ 32)
    let s := (s.setBlob Obj.PPS_IN_EDGE 0 full).setObj Obj.PPS_IN_ERR err
    if s.obj Obj.PPS_IN_SOURCE = 0 then s
    else
      let st := (s.ptp 2).state
      let s := if st = ptpUncal ∨ st = ptpLocked then s else s.ptpState 2 ptpUncal 0
      s.filterIn 2 (err * 65536)

/-- PPS_IN_LOSS: 1.5 s without an edge. -/
def State.ppsLoss (s : State) : State :=
  let x := s.ptp 2
  if (x.state = ptpUncal ∨ x.state = ptpLocked) ∧ x.lastNs + 3 * nsPerSec / 2 ≤ s.now then s.ptpLose 2 1 none else s

/-- Device time passes a whole second plus an offset (ns) on this edge. -/
def State.passesSecond (s : State) (off : Int) : Bool :=
  let sec : Int := (nsPerSec : Int) * 2 ^ 32
  let t : Int := ((s.devNs * 2 ^ 32 + s.time.frac : Nat) : Int) - off * 2 ^ 32
  decide (t / sec ≠ (t - (s.inc : Nat)) / sec)

/-- End of the pulse of PPS_OUT[k], 0 while it is inactive. -/
def State.ppsEnd (s : State) (k : Nat) : Nat := Tab.get 0 s.time.ppsOut k

/-- PPS_OUT_START. -/
def State.ppsStart (s : State) (k : Nat) : State :=
  let m := s.obj (Obj.PPS_OUT_MODE k)
  if (m = 1 ∨ (m = 2 ∧ s.time.state = 2)) ∧ s.ppsEnd k = 0 ∧ s.passesSecond (s.obj (Obj.PPS_OUT_OFFSET k)) then
    { s with time := { s.time with ppsOut := Tab.set 0 s.time.ppsOut k (s.now + s.objN (Obj.PPS_OUT_WIDTH k)) } }
  else s

/-- PPS_OUT_END. -/
def State.ppsStop (s : State) (k : Nat) : State :=
  if s.ppsEnd k ≤ s.now then { s with time := { s.time with ppsOut := Tab.set 0 s.time.ppsOut k 0 } } else s

/-- The level of PPS_OUT[k]. -/
def State.ppsLevel (s : State) (k : Nat) : Bool := (s.ppsEnd k != 0) != (s.obj (Obj.PPS_OUT_POL k) == 1)

/-! ### Waking (R464) -/

/-- Device time and STAMP advance by the dormant count; TIME_STATE is HOLDOVER until a source is LOCKED. -/
def State.resumeTime (s : State) : State :=
  let n := 100 * s.time.dormant
  let t := s.devNs + n
  let s := { s with time := { s.time with
    sec := t / nsPerSec % 2 ^ 48, ns := t % nsPerSec, acc := s.time.acc + n * 2 ^ 32, dormant := 0 } }
  let s := if s.time.state = 3 then s
    else
      let s := { s with time := { s.time with state := 3, source := 3, holdStart := s.now, tgt := s.time.rint, stepPending := false } }
      ((s.setObj Obj.TIME_STATE 3).setObj Obj.TIME_SOURCE 0xFF).event 24 0x0D04 [(12, 1, 1)]
  s.postAnchor (s.anchorArgs 8)

def execTimeAnchor (s : State) : Outcome := .next s.timeAnchorDue
def execPtpAnnounce (d : Fin 2) (m : Announce) (s : State) : Outcome := .next (s.ptpAnnounced d.val m)
def execPtpMeasurement (d : Fin 2) (m : PtpMeas) (s : State) : Outcome := .next (s.ptpMeasure d.val m)
def execPtpLoss (d : Fin 2) (s : State) : Outcome := .next (s.ptpTimeout d.val)
def execTimeStepDeferred (s : State) : Outcome := .next s.deferredStep
def execPpsInEdge (s : State) : Outcome := .next s.ppsEdge
def execPpsInLoss (s : State) : Outcome := .next s.ppsLoss
def execPpsOutStart (k : Fin 2) (s : State) : Outcome := .next (s.ppsStart k.val)
def execPpsOutEnd (k : Fin 2) (s : State) : Outcome := .next (s.ppsStop k.val)

end Sys2Proof.Machine
end

