-- ==== Sys2Proof/Machine/Mantis.lean ====
section
/-! DEFINITION. Mantis (chapter 16): the profile generator, moves, outputs, feedback, enable, limits and homing, standstill
current and cam slaving. Positions in counts, times in seconds, as exact rationals. -/

namespace Sys2Proof.Machine

/-! ### Profiles (R335 to R337) -/

/-- A commanded state: position, velocity, acceleration. -/
structure Kin where
  p : Rat
  v : Rat
  a : Rat
  deriving DecidableEq, Repr

/-- The limits in force. -/
structure AxLim where
  vmax : Rat
  acc : Rat
  dec : Rat
  jerk : Rat
  deriving DecidableEq, Repr

/-- A segment: duration and jerk. -/
abbrev Seg := Rat × Rat

/-- The commanded state after a time of constant jerk. -/
def Kin.adv (k : Kin) (t j : Rat) : Kin :=
  { p := k.p + k.v * t + k.a * t * t / 2 + j * t * t * t / 6, v := k.v + k.a * t + j * t * t / 2, a := k.a + j * t }

def Kin.run (k : Kin) (l : List Seg) : Kin := l.foldl (fun k g => k.adv g.1 g.2) k

/-- Run a plan for a time: the state and the rest of the plan. -/
def Kin.sample (k : Kin) (t : Rat) : List Seg → Kin × List Seg
  | [] => (k.adv t 0, [])
  | g :: l => if g.1 ≤ t then (k.adv g.1 g.2).sample (t - g.1) l else (k.adv t g.2, (g.1 - t, g.2) :: l)

def isqrtBits (m : Nat) : Nat → Nat → Nat
  | 0, r => r
  | n + 1, r => if (r + 2 ^ n) * (r + 2 ^ n) ≤ m then isqrtBits m n (r + 2 ^ n) else isqrtBits m n r

/-- The largest multiple of 2^-32 whose square is at most q. -/
def sqrtQ (q : Rat) : Rat :=
  let m := (q * (2 ^ 64 : Nat)).floor.toNat
  ((isqrtBits m (Nat.log2 m / 2 + 1) 0 : Nat) : Rat) / (2 ^ 32 : Nat)

/-- Raise the velocity from v0 at acceleration a0 to v1 at acceleration 0, where letting a0 run out at once ends at or below
v1: at most A, and |a0| above A is first reduced at the jerk limit (R336). -/
def rampUp (v0 a0 v1 lim j : Rat) : List Seg :=
  if lim < a0 then [((a0 - lim) / j, -j), ((v1 - v0 - a0 * a0 / (2 * j)) / lim, 0), (lim / j, -j)]
  else
    let top := sqrtQ (j * (v1 - v0) + a0 * a0 / 2)
    let ap := min lim (max a0 top)
    if ap ≤ 0 then [(-a0 / j, j)]
    else [((ap - a0) / j, j), ((v1 - v0 - (2 * ap * ap - a0 * a0) / (2 * j)) / ap, 0), (ap / j, -j)]

/-- Velocity at which the acceleration has run out at the jerk limit. -/
def runOut (v a j : Rat) : Rat := v + a * absQ a / (2 * j)

/-- Go from a velocity and acceleration to a velocity at acceleration 0, as fast as the limits allow. -/
def toVel (m : AxLim) (v0 a0 v1 : Rat) : List Seg :=
  let vz := runOut v0 a0 m.jerk
  let up := decide (vz ≤ v1)
  let pos := decide (0 ≤ v0) && decide (0 ≤ v1) && decide (0 ≤ vz)
  let neg := decide (v0 ≤ 0) && decide (v1 ≤ 0) && decide (vz ≤ 0)
  let lim := if pos then (if up then m.acc else m.dec) else if neg then (if up then m.dec else m.acc) else min m.acc m.dec
  if up then rampUp v0 a0 v1 lim m.jerk
  else (rampUp (-v0) (-a0) (-v1) lim m.jerk).map (fun (g : Seg) => (g.1, -g.2))

def stopPlan (m : AxLim) (k : Kin) : List Seg := toVel m k.v k.a 0

/-- The largest k below 2^n of a falling property. -/
def mostNat (ok : Nat → Bool) : Nat → Nat → Nat
  | 0, k => k
  | n + 1, k => if ok (k + 2 ^ n) then mostNat ok n (k + 2 ^ n) else mostNat ok n k

/-- Accelerate to a velocity and stop from it. -/
def viaVel (m : AxLim) (k : Kin) (vp : Rat) : List Seg × List Seg := (toVel m k.v k.a vp, toVel m vp 0 0)

/-- The soonest plan to a target ahead in the positive direction. -/
def planAhead (m : AxLim) (k : Kin) (target : Rat) : List Seg :=
  let vz := runOut k.v k.a m.jerk
  let endOf := fun (l : List Seg) => (k.run l).p
  let via := fun (vp : Rat) => let x := viaVel m k vp; x.1 ++ x.2
  if k.a < 0 ∧ 0 ≤ vz ∧ vz ≤ m.vmax ∧ target < endOf (via vz) then
    -- decelerating, and less deceleration reaches the target
    let full := -k.a / m.jerk
    let plan := fun (t : Rat) => let k1 := k.adv t m.jerk; (t, m.jerk) :: stopPlan m k1
    let n := mostNat (fun i => decide (endOf (plan (full * (i : Rat) / (2 ^ 40 : Nat))) ≤ target)) 40 0
    plan (full * (n : Rat) / (2 ^ 40 : Nat))
  else
    let lo := if vz ≤ m.vmax then max vz 0 else 0
    let at' := fun (i : Nat) => lo + (m.vmax - lo) * (i : Rat) / (2 ^ 40 : Nat)
    let vp := if endOf (via m.vmax) ≤ target then m.vmax
      else at' (mostNat (fun i => decide (endOf (via (at' i)) ≤ target)) 40 0)
    let x := viaVel m k vp
    if vp ≤ 0 then x.1 else x.1 ++ ((target - endOf (x.1 ++ x.2)) / vp, 0) :: x.2

def mirror (k : Kin) : Kin := { p := -k.p, v := -k.v, a := -k.a }

/-- The plan to a target in either direction. -/
def planDir (m : AxLim) (k : Kin) (target : Rat) : List Seg :=
  if k.p ≤ target then planAhead m k target
  else (planAhead m (mirror k) (-target)).map (fun (g : Seg) => (g.1, -g.2))

/-- Distance within which a target counts as reached: 2^-20 count. -/
def axEps : Rat := 1 / (2 ^ 20 : Nat)

/-- The plan to a target at standstill, and the predicted overshoot where the shortest stop passes it or it lies behind the
direction of motion (R337). -/
def planTo (m : AxLim) (k : Kin) (target : Rat) : List Seg × Option Rat :=
  let stop := stopPlan m k
  let e := k.run stop
  let d := target - e.p
  let dir := if k.v = 0 then k.a else k.v
  if absQ d ≤ axEps then (stop, none)
  else if dir = 0 then (planDir m k target, none)
  else if (0 < dir ∧ 0 < d) ∨ (dir < 0 ∧ d < 0) then
    if 0 < d then (planAhead m k target, none)
    else ((planAhead m (mirror k) (-target)).map (fun (g : Seg) => (g.1, -g.2)), none)
  else (stop ++ planDir m { p := e.p, v := 0, a := 0 } target, some (-d))

/-! ### An axis -/

def AxisSt.kin (m : AxisSt) : Kin := { p := m.p, v := m.v, a := m.a }

/-- The highest step rate of R341, in steps per second. -/
def State.stepRate (s : State) (x : Nat) : Rat :=
  min 4000000 (1000000000 / (2 * (s.objN (Obj.AX_STEP_W x) : Rat)))

def State.axLim (s : State) (x : Nat) : AxLim :=
  let v := s.objF (Obj.AX_VMAX x)
  { vmax := if s.obj (Obj.AX_OUT_MODE x) = 1 then min v (s.stepRate x) else v,
    acc := s.objF (Obj.AX_ACC x), dec := s.objF (Obj.AX_DEC x), jerk := s.objF (Obj.AX_JERK x) }

/-- The loop bound to an axis (R362). -/
def State.axLoop (s : State) (x : Nat) : Option Nat :=
  let l := s.objN (Obj.AX_LOOP x)
  if s.obj (Obj.AX_OUT_MODE x) = 2 ∧ l < 32 then some l else none

/-- The axis bound to a loop (R362). -/
def State.loopAxis (s : State) (l : Nat) : Option Nat := (List.range 24).find? (fun x => s.axLoop x == some l)

def State.slaved (s : State) (x : Nat) : Bool := s.obj (Obj.AX_CAM_ENGAGE x) == 1

/-- A GPIO input named by an object is at its active level. -/
def State.pinActive (s : State) (pin : Nat) (high : Bool) : Bool := decide (pin < 32) && s.objBit Obj.GPIO_IN pin == high

/-- A hardware limit of the axis is active (R345). -/
def State.limActive (s : State) (x : Nat) (positive : Bool) : Bool :=
  s.pinActive (s.objN (if positive then Obj.AX_LIM_POS_PIN x else Obj.AX_LIM_NEG_PIN x))
    (s.objBit (Obj.AX_LIM_POL x) (b2n positive))

/-! ### Standstill current (R347) -/

def pctDuty (p : Nat) : Nat := f32OfRat ((p : Rat) / 100)

/-- The current reference follows the axis. -/
def State.curRefresh (s : State) (x : Nat) : State :=
  let k := s.objN (Obj.AX_CUR_PWM x)
  if 32 ≤ k then s
  else s.setObj (Obj.PWM_DUTY k)
    (pctDuty (s.objN (if s.axBit x bCurReduced then Obj.AX_IDLE_CUR x else Obj.AX_RUN_CUR x)) : Nat)

/-- Motion starts: a reduced current returns, and the first sample is held. -/
def State.wakeCurrent (s : State) (x : Nat) : State :=
  if s.axBit x bCurReduced then
    let s := (s.setAxBit x bCurReduced false).curRefresh x
    s.setAx x (fun m => { m with wake := s.now + s.objN (Obj.AX_CUR_WAKE_US x) * 1000 })
  else s

/-- AX_IDLE_CURRENT. -/
def State.idleCurrent (s : State) (x : Nat) : State :=
  let m := s.ax x
  if s.objN (Obj.AX_CUR_PWM x) < 32 ∧ m.atRest ∧ !m.moving ∧ !s.slaved x ∧ !s.axBit x bCurReduced ∧ s.ready 11 ∧
      m.still + s.objN (Obj.AX_IDLE_MS x) * 1000000 ≤ s.now then
    (s.setAxBit x bCurReduced true).curRefresh x
  else s

/-! ### Moves (R338, R339) -/

/-- Start a move: it gets the next AX_MOVE_SEQ. -/
def State.startMove (s : State) (x st : Nat) : State :=
  let s := s.setObj (Obj.AX_MOVE_SEQ x) (((s.objN (Obj.AX_MOVE_SEQ x) + 1) % 65536 : Nat) : Int)
  let s := (s.count (Obj.AX_MOVES x) 1).setObj (Obj.AX_MOVE_STATE x) (st : Nat)
  (s.setAx x (fun m => { m with moving := true, abort := false, again := false, excess := 0, dirty := true })).wakeCurrent x

/-- Stop the axis as R339 does: a move in progress is aborted, a cam is released. -/
def State.axHalt (s : State) (x : Nat) : State :=
  let m := s.ax x
  let s := if s.slaved x then (s.setObj (Obj.AX_CAM_ENGAGE x) 0).setObj (Obj.AX_CAM_STATE x) 3 else s
  if m.moving || !m.atRest || s.obj (Obj.AX_CAM_STATE x) == 3 then
    (s.setAx x (fun m => { m with abort := m.moving, dirty := true })).setObj (Obj.AX_MOVE_STATE x) 3
  else s

/-- The states in which AX_TARGET and AX_HOME are refused (R339, R344). -/
def State.axRefuses (s : State) (x : Nat) : Bool :=
  let m := s.ax x
  !s.axBit x bAxen || !m.accept || m.off || s.obj (Obj.AX_CAM_STATE x) != 0 || s.slaved x || m.homing != 0 ||
    s.axBit x bFbInvalid

/-- A write of AX_TARGET. -/
def State.axTargetSet (s : State) (x : Nat) (v : Int) : State × Nat :=
  let m := s.ax x
  let t := q32Val v
  if s.axRefuses x then (s, 0x0A)
  else if s.axBit x bHomed ∧ (v < s.obj (Obj.AX_SOFT_MIN x) ∨ s.obj (Obj.AX_SOFT_MAX x) < v) then (s, 0x04)
  else if (s.limActive x true ∧ m.p < t) ∨ (s.limActive x false ∧ t < m.p) then (s, 0x04)
  else
    let s := s.setObj (Obj.AX_TARGET x) v
    if m.moving ∧ m.abort then (s.setAx x (fun m => { m with again := true }), 0)
    else if m.moving then (s.setAx x (fun m => { m with dirty := true }), 0)
    else (s.startMove x 1, 0)

/-- A write of 1 to AX_STOP. -/
def State.axStopSet (s : State) (x : Nat) : State × Nat :=
  if (s.ax x).moving then (s.axHalt x, 0) else (s, 0x0B)

/-- A write of AX_ENABLE. -/
def State.axEnableSet (s : State) (x v : Nat) : State × Nat :=
  let m := s.ax x
  if v = 1 then
    if s.stoHeld (x / 3) then (s, 0x0A)
    else if s.axBit x bAxen then ((s.setObj (Obj.AX_ENABLE x) 1).setAx x (fun m => { m with off := false }), 0)
    else
      let s := (s.setObj (Obj.AX_ENABLE x) 1).setAxBit x bAxen true
      (s.setAx x (fun m => { m with accept := false, enabledAt := s.now, off := false }), 0)
  else if !s.axBit x bAxen then (s.setObj (Obj.AX_ENABLE x) 0, 0)
  else
    let s := (s.setObj (Obj.AX_ENABLE x) 0).axHalt x
    if m.moving || !m.atRest then (s.setAx x (fun m => { m with off := true }), 0)
    else ((s.setObj (Obj.AX_CAM_STATE x) 0).axDisable x, 0)

/-- AX_EN_DELAY_EXPIRE. -/
def State.enDelay (s : State) (x : Nat) : State :=
  let m := s.ax x
  if s.axBit x bAxen ∧ !m.accept ∧ m.enabledAt + s.objN (Obj.AX_EN_DELAY x) * 1000000 ≤ s.now then
    s.setAx x (fun m => { m with accept := true })
  else s

/-! ### Homing (R346) -/

/-- A write of 1 to AX_HOME. -/
def State.axHomeSet (s : State) (x : Nat) : State × Nat :=
  let m := s.ax x
  if s.axRefuses x ∨ m.abort then (s, 0x0A)
  else
    let s := if m.moving then s.setObj (Obj.AX_MOVE_STATE x) 4 else s.startMove x 4
    ((s.setAxBit x bHomed false).setAx x (fun m => { m with homing := 1, dirty := true }), 0)

/-- The home event at a position: the positions shift together, and the axis stops. -/
def State.homeEvent (s : State) (x : Nat) (pos : Rat) : State :=
  let d := q32Val (s.obj (Obj.AX_HOME_POS x)) - pos
  let m := s.ax x
  if m.homing ≠ 1 ∨ m.abort then s
  else
    let s := s.setAx x (fun m => { m with
      p := m.p + d, fbOff := m.fbOff + d, homing := 2, dirty := true, steps := (m.p + d).floor })
    let s := (s.setAxBit x bHomed true).setObj (Obj.AX_MOVE_STATE x) 3
    s.event 24 0x1005 [(12, 1, x), (13, 1, s.objN (Obj.AX_HOME_SRC x)), (16, 8, q32Bits pos)]

/-- The index of an encoder is latched: the home event of the axes homing on it. -/
def State.homeIndex (s : State) (e : Nat) : State :=
  (List.range 24).foldl (fun s x =>
    if s.axEnc x == some e ∧ s.obj (Obj.AX_HOME_SRC x) = 0 then s.homeEvent x (s.fbOf x (s.encPos e)) else s) s

/-- A GPIO input reaches its active edge: the home event of the axes homing on it. -/
def State.homePin (s : State) (pin : Nat) (level : Bool) : State :=
  (List.range 24).foldl (fun s x =>
    if s.objN (Obj.AX_HOME_PIN x) = pin ∧ s.obj (Obj.AX_HOME_SRC x) = 1 ∧ s.objBit (Obj.AX_LIM_POL x) 2 = level ∧
        s.ready 11 then
      s.homeEvent x (if (s.axEnc x).isSome then s.fbPos x else (s.ax x).p)
    else s) s

/-- AXE_INDEX: the latch of R123, and homing on it. -/
def State.indexAndHome (s : State) (e : Nat) : State :=
  let took := s.obj (Obj.AXE_MODE e) == 1 && s.ready 11 && s.objBit (Obj.AXE_STATUS e) bDir
  let s := s.axeIndex e
  if took then s.homeIndex e else s

/-! ### Feedback (R342, R343) -/

/-- The following error, where it is evaluated. -/
def State.axError (s : State) (x : Nat) : Option Rat :=
  if (s.axEnc x).isSome ∧ s.obj (Obj.AX_MODE x) = 0 ∧ !s.axBit x bFbInvalid then
    some (absQ ((s.ax x).p - s.fbPos x))
  else none

/-- An unsigned count of 32 bits, toward zero and saturating. -/
def u32Of (q : Rat) : Nat := min q.floor.toNat (2 ^ 32 - 1)

/-- Follow the error at a sample. -/
def State.trackError (s : State) (x : Nat) : State :=
  match s.axError x with
  | none => s.setAx x (fun m => { m with feSince := none })
  | some e =>
    let s := if s.objN (Obj.AX_FE_PEAK x) < u32Of e then s.setObj (Obj.AX_FE_PEAK x) (u32Of e : Nat) else s
    if s.obj (Obj.AX_FE_LIMIT x) < e then
      s.setAx x (fun m => { m with feSince := some (m.feSince.getD s.now) })
    else (s.setAx x (fun m => { m with feSince := none })).condEnd 0x1402 x

/-- DETAIL of an SF2 fault (Table 20.5). -/
def State.sf2Detail (s : State) (x why : Nat) : Bytes := le 4 (u32Of (absQ ((s.ax x).p - s.fbPos x))) ++ le 1 why

/-- AX_FOLLOWING_ERROR. -/
def State.followingError (s : State) (x : Nat) : State :=
  match (s.ax x).feSince with
  | none => s
  | some t =>
    if s.ready 11 ∧ (s.axError x).isSome ∧ t + s.objN (Obj.AX_FE_MS x) * 1000000 ≤ s.now then
      let s := s.latch 0x1402 safety x (s.sf2Detail x 0) true false none
      (s.setAx x (fun m => { m with feSince := none })).trackError x
    else s

/-- AX_LIMIT_ACTIVE. -/
def State.limitActive (s : State) (x : Nat) (positive : Bool) : State :=
  let m := s.ax x
  let seen := if positive then m.limPos else m.limNeg
  if s.limActive x positive ∧ !seen ∧ s.ready 11 then
    let s := s.setAx x (fun m =>
      { m with limPos := m.limPos || positive, limNeg := m.limNeg || !positive })
    s.latch 0x1403 safety x (s.sf2Detail x (if positive then 2 else 1)) true false none
  else s

/-- A limit switch is released. -/
def State.limitReleased (s : State) (x : Nat) : State :=
  let n := s.limActive x false
  let p := s.limActive x true
  let s := s.setAx x (fun m => { m with limNeg := m.limNeg && n, limPos := m.limPos && p })
  if n || p then s else s.condEnd 0x1403 x

/-- AXE_SSI_SAMPLE: the sample of R125, and its axes when SSI_INVALID changes (R343). -/
def State.ssiAndAxes (s : State) (e : Nat) (busy : Bool) (bits : List Bool) : State :=
  let was := s.objBit (Obj.AXE_STATUS e) bSsiInvalid
  let s := s.ssiSample e busy bits
  let now := s.objBit (Obj.AXE_STATUS e) bSsiInvalid
  if was = now then s
  else (List.range 24).foldl (fun s x =>
    if s.axEnc x ≠ some e then s
    else if now then (s.setAxBit x bFbInvalid true).axHalt x
    else s.setAxBit x bFbInvalid false) s

/-! ### Cam slaving (R348 to R350) -/

/-- The master position. -/
def State.camMaster (s : State) (x : Nat) : Rat :=
  let c := s.objN (Obj.AX_CAM_MASTER x)
  if c < 0x20 then (s.ax c).p else s.fbPos (c - 0x20)

/-- Point j of a cam table. -/
def State.camPoint (s : State) (k j : Nat) : Int := sext 32 (s.blobN (Obj.CAM_TABLE k) (4 * j) 4)

/-- s(m) of R348. -/
def State.camTarget (s : State) (x : Nat) : Rat :=
  let k := s.objN (Obj.AX_CAM_TABLE x)
  let q := clampQ 0 1023
    ((s.camMaster x - q32Val (s.obj (Obj.AX_CAM_M0 x))) * 1023 / q32Val (s.obj (Obj.AX_CAM_SPAN x)))
  let j := min q.floor.toNat 1022
  (s.camPoint k j : Rat) + (q - (j : Rat)) * ((s.camPoint k (j + 1) - s.camPoint k j : Int) : Rat)

/-- The chain of masters from an axis returns to the slave. -/
def State.camLoops (s : State) (slave : Nat) : Nat → Nat → Bool
  | 0, _ => true
  | n + 1, x =>
    let m := s.objN (Obj.AX_CAM_MASTER x) % 0x20
    m == slave || (s.slaved m && s.camLoops slave n m)

/-- A write of AX_CAM_ENGAGE. -/
def State.camEngageSet (s : State) (x v : Nat) : State × Nat :=
  if v = 1 then
    if s.slaved x then (s, 0)
    else if s.axRefuses x ∨ (s.ax x).moving then (s, 0x0A)
    else if s.camLoops x 24 x then (s, 0x04)
    else
      let s := ((s.setObj (Obj.AX_CAM_ENGAGE x) 1).setObj (Obj.AX_MOVE_STATE x) 5).wakeCurrent x
      (s.setObj (Obj.AX_CAM_STATE x) (if absQ ((s.ax x).p - s.camTarget x) ≤ 1 then 2 else 1), 0)
  else if s.slaved x then (s.axHalt x, 0)
  else (s, 0)

/-- AX_CAM_STATE after a sample. -/
def State.slaveState (s : State) (x : Nat) : State :=
  let was := s.obj (Obj.AX_CAM_STATE x)
  let locked := decide (absQ ((s.ax x).p - s.camTarget x) ≤ 1)
  let s := s.setObj (Obj.AX_CAM_STATE x) (if locked then 2 else 1)
  if was = 2 ∧ !locked then s.count (Obj.AX_CAM_LAG_CNT x) 1 else s

/-- A write of a cam table. -/
def State.camTableSet (s : State) (k : Nat) (data : Bytes) : State × Nat :=
  if data.length ≠ 4100 ∨ crc32c (data.take 4096) ≠ getN data 4096 4 then (s, 0x04)
  else if (List.range 24).any (fun x => s.slaved x && s.objN (Obj.AX_CAM_TABLE x) == k) then (s, 0x0A)
  else (s.setBlob (Obj.CAM_TABLE k) 0 data, 0)

/-! ### The sample (R335) -/

/-- Plan anew where the rules ask for it. -/
def State.replan (s : State) (x : Nat) : State :=
  let m := s.ax x
  let lim := s.axLim x
  if s.slaved x then s.setAx x (fun m => { m with plan := (planTo lim m.kin (s.camTarget x)).1, dirty := false })
  else if !m.dirty then s
  else if m.homing = 1 ∧ !m.abort then
    s.setAx x (fun m => { m with plan := toVel lim m.v m.a (s.objF (Obj.AX_HOME_VEL x)), dirty := false })
  else if m.moving ∧ !m.abort ∧ m.homing = 0 then
    let t := q32Val (s.obj (Obj.AX_TARGET x))
    let r := planTo lim m.kin t
    let s := s.setAx x (fun m => { m with plan := r.1, dirty := false })
    match r.2 with
    | some o =>
      let s := (s.setAx x (fun m => { m with excess := o })).setObj (Obj.AX_MOVE_STATE x) 2
      (s.event 24 0x1002 [(12, 1, x), (14, 2, s.objN (Obj.AX_MOVE_SEQ x)), (16, 4, overshootI32 o)]).count
        (Obj.AX_OVERSHOOT_CNT x) 1
    | none =>
      let past := (0 < m.excess ∧ t < m.p) ∨ (m.excess < 0 ∧ m.p < t)
      s.setObj (Obj.AX_MOVE_STATE x) (if past then 2 else 1)
  else s.setAx x (fun m => { m with plan := stopPlan lim m.kin, dirty := false })

/-- Generator sample: 10 us. -/
def axDt : Rat := 1 / 100000

/-- Step pulses of the travel since the last whole count (R341). -/
def State.stepOut (s : State) (x : Nat) : State :=
  let m := s.ax x
  let up := m.p.floor - m.steps
  let dn := m.steps - -(-m.p).floor
  let n := if 0 < up then up else if 0 < dn then dn else 0
  if n = 0 then s
  else
    let s := s.setAx x (fun m => { m with steps := if 0 < up then m.steps + n else m.steps - n })
    if s.obj (Obj.AX_OUT_MODE x) = 1 ∧ s.axBit x bAxen then s.emit (.steps x (decide (0 < up)) n.toNat) else s

/-- The axis has come to rest: a move, a homing move, a cam release or a disable ends. -/
def State.axSettle (s : State) (x : Nat) : State :=
  let m := s.ax x
  let s := if s.obj (Obj.AX_CAM_STATE x) = 3 then
      (s.setObj (Obj.AX_CAM_STATE x) 0).setObj (Obj.AX_MOVE_STATE x) 0 else s
  let s := if m.moving then s.moveEnd x m.abort else if s.obj (Obj.AX_MOVE_STATE x) = 3 then s.setObj (Obj.AX_MOVE_STATE x) 0 else s
  if m.off then s.axDisable x
  else if m.again then s.startMove x 1
  else s

/-- Advance the commanded state by one sample. -/
def State.axMove (s : State) (x : Nat) : State :=
  let m := s.ax x
  let r := m.kin.sample axDt m.plan
  let open' := m.homing == 1 && !m.abort
  if r.2.isEmpty ∧ !open' then
    let t := q32Val (s.obj (Obj.AX_TARGET x))
    let goal := if s.slaved x then some (s.camTarget x) else if m.moving ∧ !m.abort ∧ m.homing = 0 then some t else none
    let e := (m.kin.run m.plan).p
    let p := match goal with
      | some g => if absQ (e - g) ≤ 1 / (2 ^ 16 : Nat) then g else e
      | none => e
    s.setAx x (fun m => { m with p := p, v := 0, a := 0, plan := [], still := if m.atRest then m.still else s.now })
  else s.setAx x (fun m => { m with p := r.1.p, v := r.1.v, a := r.1.a, plan := r.2 })

/-- AX_SAMPLE. -/
def State.axSample (s : State) (x : Nat) : State :=
  if !s.ready 11 then s
  else if s.now < (s.ax x).wake then s
  else
    let s := s.replan x
    let busy := (s.ax x).moving || s.slaved x || !(s.ax x).plan.isEmpty || !(s.ax x).atRest ||
      s.obj (Obj.AX_CAM_STATE x) == 3
    let s := if busy then (s.axMove x).stepOut x else s
    let s := if s.slaved x then s.slaveState x else s
    let s := if (s.ax x).plan.isEmpty && (s.ax x).atRest && !s.slaved x &&
        !((s.ax x).homing == 1 && !(s.ax x).abort) then s.axSettle x else s
    let s := s.trackError x
    let m := s.ax x
    let s := s.setAx x (fun m => { m with odd := !m.odd })
    if m.odd then s.forward (.axis x m.p m.v m.a) else s

/-- The velocity of the feedback position, counts/s. -/
def State.fbSpeed (s : State) (x : Nat) : Rat :=
  match s.axEnc x with
  | some e => (s.obj (Obj.AXE_SPEED e) : Rat) * q32Val (s.obj (Obj.AX_ENC_RATIO x))
  | none => 0

/-- AX_CONTACT (R352). -/
def State.axContact (s : State) (x : Nat) : State :=
  match (s.ax x).contactSince with
  | none => s
  | some t =>
    if s.ready 11 ∧ !s.axBit x bContact ∧ t + s.objN (Obj.AX_CONTACT_MS x) * 1000000 ≤ s.now then
      (s.setAxBit x bContact true).event 24 0x1004 [(12, 1, x), (16, 8, q32Bits (s.fbPos x))]
    else s

/-- A write of AX_MODE (R351, R362); the caller has checked its range. -/
def State.axModeSet (s : State) (x v : Nat) : State × Nat :=
  if v = 1 ∧ s.obj (Obj.AX_OUT_MODE x) = 1 then (s, 0x04)
  else
    let s := s.setObj (Obj.AX_MODE x) (v : Nat)
    match s.axLoop x with
    | some l => (s.setObj (Obj.LP_MODE l) (v : Nat), 0)
    | none => (s, 0)

def execAxSample (x : Axis) (s : State) : Outcome := .next (s.axSample x.val)
def execAxEnDelayExpire (x : Axis) (s : State) : Outcome := .next (s.enDelay x.val)
def execAxLimitActive (x : Axis) (positive : Bool) (s : State) : Outcome := .next (s.limitActive x.val positive)
def execAxFollowingError (x : Axis) (s : State) : Outcome := .next (s.followingError x.val)
def execAxIdleCurrent (x : Axis) (s : State) : Outcome := .next (s.idleCurrent x.val)
def execAxContact (x : Axis) (s : State) : Outcome := .next (s.axContact x.val)
def execAxeIndex (x : Axis) (s : State) : Outcome := .next (s.indexAndHome x.val)
def execAxeSsiSample (x : Axis) (busy : Bool) (bits : List Bool) (s : State) : Outcome :=
  .next (s.ssiAndAxes x.val busy bits)

end Sys2Proof.Machine
end

