-- ==== Sys2Proof/Machine/LoopEngine.lean ====
section
/-! DEFINITION. The loop engine (chapter 17, R354 to R366): sources, the observer and the law, limits and anti-windup,
start, invalid inputs and trips, hand-over, following error and trace. -/

namespace Sys2Proof.Machine

def State.loop (s : State) (l : Nat) : LoopSt := Tab.get {} s.loops l

def State.setLoop (s : State) (l : Nat) (f : LoopSt → LoopSt) : State :=
  { s with loops := Tab.set {} s.loops l (f (s.loop l)) }

/-! ### Dimensions, coefficients and sources (R355, Table 17.1, Table 17.5) -/

def State.lpN (s : State) (l : Nat) : Nat := field (s.objN (Obj.LP_DIMS l)) 0 4
def State.lpM (s : State) (l : Nat) : Nat := field (s.objN (Obj.LP_DIMS l)) 4 4
def State.lpP (s : State) (l : Nat) : Nat := field (s.objN (Obj.LP_DIMS l)) 8 4
def State.lpQ (s : State) (l : Nat) : Nat := field (s.objN (Obj.LP_DIMS l)) 12 4

/-- Entry i of a table of F32 values. -/
def State.f32At (s : State) (k i : Nat) : Nat := s.blobN k (4 * i) 4

def State.lawKey (l mode : Nat) : Nat := if mode = 0 then Obj.LP_LAW_0 l else Obj.LP_LAW_1 l

/-- Byte i of a list of codes. -/
def codeAt (v i : Nat) : Nat := field v (8 * i) 8

/-- The value of a source, as binary32; `ref` is the LP_REF entry of the same index. -/
def State.sourceVal (s : State) (l code ref : Nat) : Nat :=
  if code < 0x10 then f32OfRat ((Tab.get 0 s.io.adc code : Nat) : Rat)
  else if code < 0x28 then f32OfRat ((s.obj (Obj.AXE_SPEED (code - 0x10)) : Int) : Rat)
  else if 0x30 ≤ code ∧ code < 0x48 then f32OfRat (s.fbPos (code - 0x30) - (s.ax (code - 0x30)).p)
  else if 0x50 ≤ code ∧ code < 0x68 then f32OfRat (s.ax (code - 0x50)).v
  else if 0x70 ≤ code ∧ code < 0x88 then f32OfRat (s.ax (code - 0x70)).a
  else if 0x90 ≤ code ∧ code < 0xFE then (s.loop ((code - 0x90) / 4)).u.getD (code % 4) 0
  else if code = 0xFE then s.f32At (Obj.LP_REF l) ref
  else 0

/-- A source is invalid (R360). -/
def State.sourceBad (s : State) (code : Nat) : Bool :=
  if 0x10 ≤ code ∧ code < 0x28 then s.objBit (Obj.AXE_STATUS (code - 0x10)) bSsiInvalid
  else if 0x90 ≤ code ∧ code < 0xFE then s.obj (Obj.LP_STATE ((code - 0x90) / 4)) != 1
  else false

/-- Sample period in ns: LP_DIV frames of 20 us. -/
def State.lpPeriod (s : State) (l : Nat) : Nat := s.objN (Obj.LP_DIV l) * 20000

/-- A change per second, over one sample, as binary32. -/
def State.perSample (s : State) (l rate : Nat) : Nat := f32OfRat (f32Val rate * (s.lpPeriod l : Rat) / 1000000000)

/-! ### Destinations (R354, R368, R369, R371) -/

def State.destOf (s : State) (l j : Nat) : Nat := codeAt (s.objN (Obj.LP_OUT_DST l)) j

def State.pwm (s : State) (k : Nat) : Pwm := Tab.get {} s.io.pwm k

def State.setPwm (s : State) (k : Nat) (w : Pwm) : State := { s with io := { s.io with pwm := Tab.set {} s.io.pwm k w } }

/-- An owner sets the duty of a PWM output (0 to 31) or a valve output (0x40 + v). -/
def State.ownDuty (s : State) (dst duty : Nat) : State :=
  if dst < 32 then s.setObj (Obj.PWM_DUTY dst) (duty : Nat)
  else if 0x40 ≤ dst ∧ dst < 0x50 then s.setObj (Obj.VALVE_DUTY (dst - 0x40)) (duty : Nat)
  else s

/-- The duty a destination holds at this instant. -/
def State.dutyNow (s : State) (dst : Nat) : Nat :=
  if dst < 32 then (s.pwm dst).duty
  else if 0x40 ≤ dst ∧ dst < 0x50 then s.objN (Obj.VALVE_DUTY (dst - 0x40))
  else 0

/-- The output u_j at which a duty is reached, in full scale. -/
def State.fullScale (s : State) (l j duty : Nat) : Nat :=
  let sc := f32Val (s.f32At (Obj.LP_OUT_SCALE l) j)
  if sc = 0 then 0 else f32OfRat ((f32Val duty - f32Val (s.f32At (Obj.LP_OUT_OFFS l) j)) / sc)

/-- The value at which Halo or STO holds an output (R358, Table 16.3). -/
def State.heldAt (s : State) (l j : Nat) : Option Nat :=
  let dst := s.destOf l j
  match s.loopAxis l with
  | some x =>
    if j = 0 ∧ s.stoHeld (x / 3) then some 0
    else if 0x40 ≤ dst ∧ dst < 0x50 ∧ s.valveHeld then some (s.fullScale l j 0) else none
  | none => if 0x40 ≤ dst ∧ dst < 0x50 ∧ s.valveHeld then some (s.fullScale l j 0) else none

/-! ### Trace (R364, R365) -/

def f32OfNat (n : Nat) : Nat := f32OfRat ((n : Nat) : Rat)

/-- The hand-over gap of the output with the largest gap. -/
def LoopSt.maxGap (t : LoopSt) : Nat :=
  (t.gap.foldl (fun (b : Nat) (g : Nat × Nat) => if absQ (f32Val b) < absQ (f32Val g.2) then g.2 else b) 0)

/-- A trace node (Table 17.2). -/
def State.traceNode (s : State) (l k : Nat) : Nat :=
  let t := s.loop l
  if k < 4 then t.y.getD k 0
  else if k < 8 then t.r.getD (k - 4) 0
  else if k < 16 then t.xc.getD (k - 8) 0
  else if k < 24 then t.xh.getD (k - 16) 0
  else if k < 28 then t.nu.getD (k - 24) 0
  else if k < 32 then t.v.getD (k - 28) 0
  else if k < 36 then t.u.getD (k - 32) 0
  else if k < 40 then t.iota.getD (k - 36) 0
  else if k = 40 then t.fe
  else if k = 41 then f32OfNat t.mode
  else if k = 42 then t.maxGap
  else if k = 43 then f32OfNat (s.objN (Obj.LP_STATUS l))
  else if k < 48 then t.duty.getD (k - 44) 0
  else if k < 64 then f32OfNat (Tab.get 0 s.io.adc (k - 48))
  else 0

def State.setTrace (s : State) (l : Nat) (f : Trace → Trace) : State := s.setLoop l (fun t => { t with trace := f t.trace })

/-- A trigger event of the kind LP_TR_EDGE selects (R365). -/
def State.traceEvent (s : State) (l edge : Nat) : State :=
  if s.obj (Obj.LP_TR_STATE l) = 2 ∧ s.objN (Obj.LP_TR_EDGE l) = edge ∧ !(s.loop l).trace.trig then
    s.setTrace l (fun t => { t with fire := true })
  else s

/-- The trigger node crosses LP_TR_LEVEL between two recorded samples. -/
def State.traceCross (s : State) (l now : Nat) : Bool :=
  let e := s.objN (Obj.LP_TR_EDGE l)
  let lv := s.objF (Obj.LP_TR_LEVEL l)
  match (s.loop l).trace.prev with
  | none => false
  | some was =>
    let a := f32Val was
    let b := f32Val now
    let rise := decide (a < lv) && decide (lv ≤ b)
    let fall := decide (lv ≤ a) && decide (b < lv)
    (e == 1 && rise) || (e == 2 && fall) || (e == 3 && (rise || fall))

/-- The trace holds 4,096 samples: DONE. -/
def State.traceFull (s : State) (l : Nat) : State :=
  if (s.loop l).trace.trig ∧ 4096 ≤ (s.loop l).trace.samples.length then
    (s.setObj (Obj.LP_TR_STATE l) 3).event 24 0x1103 [(12, 1, l), (16, 4, s.objN (Obj.TRACE_TRIG_STAMP l))]
  else s

/-- Record one sample. -/
def State.traceRecord (s : State) (l : Nat) : State :=
  let nodes := s.objN (Obj.LP_TR_NODES l)
  let row := (List.range (s.objN (Obj.LP_TR_CH l))).map (fun c => s.traceNode l (codeAt nodes c))
  let pre := s.objN (Obj.LP_TR_PRE l)
  let tn := s.traceNode l (s.objN (Obj.LP_TR_TRIG l))
  let t := (s.loop l).trace
  if s.obj (Obj.LP_TR_STATE l) = 1 then
    let s := s.setTrace l (fun t => { t with samples := row :: t.samples, prev := some tn })
    if pre ≤ t.samples.length + 1 then s.setObj (Obj.LP_TR_STATE l) 2 else s
  else if t.trig then
    (s.setTrace l (fun t => { t with samples := row :: t.samples, prev := some tn })).traceFull l
  else if t.fire || s.traceCross l tn then
    let s := s.setTrace l (fun t => { t with
      samples := row :: t.samples.take pre, prev := some tn, trig := true, fire := false })
    (s.setObj (Obj.TRACE_TRIG_STAMP l) (s.stamp : Nat)).traceFull l
  else s.setTrace l (fun t => { t with samples := (row :: t.samples).take pre, prev := some tn })

/-- One evaluation of a loop that is recording. -/
def State.traceStep (s : State) (l : Nat) : State :=
  let st := s.obj (Obj.LP_TR_STATE l)
  if st ≠ 1 ∧ st ≠ 2 then s
  else if (s.loop l).trace.skip + 1 < s.objN (Obj.LP_TR_DIV l) then
    s.setTrace l (fun t => { t with skip := t.skip + 1 })
  else (s.setTrace l (fun t => { t with skip := 0 })).traceRecord l

/-- TRACE_DATA: 4,096 samples oldest first. -/
def State.traceData (s : State) (l : Nat) : Bytes :=
  let ch := s.objN (Obj.LP_TR_CH l)
  slice (((s.loop l).trace.samples.reverse.map (fun (r : List Nat) => (r.map (le 4)).flatten)).flatten) 0 (4096 * 4 * ch)

/-- A write of LP_TR_ARM. -/
def State.trArmSet (s : State) (l v : Nat) : State × Nat :=
  let st := s.obj (Obj.LP_TR_STATE l)
  if v = 1 then
    if st = 1 ∨ st = 2 then (s, 0x0A)
    else
      let s := (s.setObj (Obj.LP_TR_ARM l) 1).setObj (Obj.LP_TR_STATE l) (if s.obj (Obj.LP_TR_PRE l) = 0 then 2 else 1)
      (s.setTrace l (fun _ => {}), 0)
  else ((s.setObj (Obj.LP_TR_ARM l) 0).setObj (Obj.LP_TR_STATE l) 0, 0)

/-- A write of 1 to LP_TR_FORCE. -/
def State.trForceSet (s : State) (l : Nat) : State × Nat := (s.traceEvent l 7, 0)

/-! ### Trips (R360, R363) -/

def bRunning : Nat := 0
def bTripped : Nat := 1
def bLpHandover : Nat := 2
def bLimited : Nat := 3
def bInvalid : Nat := 4

def State.setLpBit (s : State) (l i : Nat) (b : Bool) : State := s.setBit (Obj.LP_STATUS l) i b

/-- HANDOVER of a loop and of the axis it is bound to. -/
def State.setHandover (s : State) (l : Nat) (b : Bool) : State :=
  let s := s.setLpBit l bLpHandover b
  match s.loopAxis l with
  | some x => s.setAxBit x bHandover b
  | none => s

/-- The loop trips: its outputs take LP_SAFE_OUT at once. -/
def State.loopTrip (s : State) (l cause idx : Nat) : State :=
  let s := ((s.setObj (Obj.LP_STATE l) 2).setLpBit l bRunning false).setLpBit l bTripped true
  let s := (s.setHandover l false).setLoop l (fun t => { t with gap := [], feNs := 0, bad := 0, start := none, law := false })
  let s := (List.range (s.lpQ l)).foldl (fun s j =>
    let dst := s.destOf l j
    let d := s.f32At (Obj.LP_SAFE_OUT l) j
    let s := s.ownDuty dst d
    if dst < 32 then s.setPwm dst { s.pwm dst with duty := d } else s) s
  let s := s.count (Obj.LP_TRIP_CNT l) 1
  let ev := s.eventBytes 0x1102 0 0 [(12, 1, l), (13, 1, cause), (14, 1, idx)]
  ((s.push 24 ev).latch 0x1102 serviceF l (slice ev 16 12) true false none).traceEvent l 5

/-! ### The evaluation (R356 to R358, R361) -/

/-- What one evaluation computes before its outputs are written. -/
structure Eval where
  y : List Nat
  r : List Nat
  bad : List Nat
  nu : List Nat
  xc : List Nat
  v : List Nat
  u : List Nat
  iota : List Nat
  xh : List Nat
  gap : List (Nat × Nat)
  limited : Bool
  handed : Bool
  dMax : Nat × Nat
  uOut : List Nat
  deriving DecidableEq, Repr

/-- The limits of R357 on output j in a mode (R362). -/
def State.lpLimits (s : State) (l mode j : Nat) : Nat × Nat :=
  match s.loopAxis l with
  | some x =>
    if j = 0 then
      let h := s.objN (if mode = 0 then Obj.AX_OUT_LIMIT x else Obj.AX_FORCE_LIMIT x)
      (f32Negate h, h)
    else (s.f32At (Obj.LP_ULIM l) (8 * mode + 2 * j), s.f32At (Obj.LP_ULIM l) (8 * mode + 2 * j + 1))
  | none => (s.f32At (Obj.LP_ULIM l) (8 * mode + 2 * j), s.f32At (Obj.LP_ULIM l) (8 * mode + 2 * j + 1))

def State.lpBand (s : State) (l : Nat) : Rat :=
  match s.loopAxis l with
  | some x => s.objF (Obj.AX_HO_BAND x)
  | none => s.objF (Obj.LP_HO_BAND l)

def State.lpSlew (s : State) (l : Nat) : Nat :=
  match s.loopAxis l with
  | some x => s.objN (Obj.AX_HO_SLEW x)
  | none => s.objN (Obj.LP_HO_SLEW l)

/-- One output of the law. -/
structure OutEval where
  v : Nat
  u : Nat
  iota : Nat
  gap : Option Nat
  limited : Bool
  d : Nat
  deriving DecidableEq, Repr

/-- Output j: preload at a hand-over or start, limits, slewing and anti-windup. `hand` says that the incoming law takes over
in this sample, `slew` whether its outputs may then slew. -/
def State.evalOut (s : State) (l mode j : Nat) (xc r y : List Nat) (hand slew : Bool) (uPrev iotaPrev : Nat)
    (slewing : Bool) : OutEval :=
  let k := State.lawKey l mode
  let n := s.lpN l
  let p := s.lpP l
  let m := s.lpM l
  let at' := fun (i : Nat) => s.f32At k i
  let kx := f32Dot 0 ((List.range n).map (fun i => (f32Negate (at' (8 * j + i)), xc.getD i 0)))
  let base := f32Dot kx ((List.range p).map (fun c => (at' (32 + 4 * j + c), r.getD c 0)))
  let lim := at' (84 + j)
  let clipI := fun (x : Nat) => f32Clip (f32Negate (f32Abs lim)) (f32Abs lim) x
  let iota := if hand then clipI (f32Sub uPrev base) else iotaPrev
  let v := f32Add base iota
  let lh := s.lpLimits l mode j
  let u1 := f32Clip lh.1 lh.2 v
  let ur := s.f32At (Obj.LP_URATE l) j
  let step := s.perSample l ur
  let uin := if f32Val ur = 0 then u1 else f32Clip (f32Sub uPrev step) (f32Add uPrev step) u1
  let d := f32Sub v uPrev
  let slewing := if hand then slew && decide (s.lpBand l < absQ (f32Val d)) else slewing
  let st := s.perSample l (s.lpSlew l)
  let gapNow := f32Sub uin uPrev
  let within := decide (absQ (f32Val gapNow) ≤ f32Val st)
  let still := slewing && !within
  let uSlew := if still then (if f32Neg gapNow then f32Sub uPrev st else f32Add uPrev st) else uin
  let held := s.heldAt l j
  let u := held.getD uSlew
  let limited := held.isSome || uin != v
  let wTerms := (List.range p).map (fun c => (at' (48 + 8 * j + c), r.getD c 0)) ++
    (List.range m).map (fun i => (at' (52 + 8 * j + i), y.getD i 0))
  let wSum := f32Dot 0 wTerms
  let withW := f32Dot iota wTerms
  let away := f32Val wSum * (f32Val v - f32Val u)
  let iota' :=
    if still then withW
    else if s.obj (Obj.LP_AW_MODE l) = 0 ∧ held.isNone then f32Fma (at' (80 + j)) (f32Sub u v) withW
    else if limited ∧ 0 < away then iota
    else withW
  { v := v, u := u, iota := clipI iota', gap := if still then some (f32Sub uin u) else none, limited := limited, d := d }

/-- The steps of R356 in one sample. -/
def State.evaluate (s : State) (l : Nat) : Eval :=
  let t := s.loop l
  let n := s.lpN l
  let m := s.lpM l
  let p := s.lpP l
  let q := s.lpQ l
  let mode := s.objN (Obj.LP_MODE l)
  let ob := fun (i : Nat) => s.f32At (Obj.LP_OBSERVER l) i
  let inSrc := s.objN (Obj.LP_IN_SRC l)
  let y := (List.range m).map (fun i =>
    f32Fma (s.f32At (Obj.LP_IN_GAIN l) i) (s.sourceVal l (codeAt inSrc i) i) (s.f32At (Obj.LP_IN_OFFS l) i))
  let bad := (List.range m).filter (fun i => s.sourceBad (codeAt inSrc i))
  let r := (List.range p).map (fun c => s.sourceVal l (codeAt (s.objN (Obj.LP_REF_SRC l)) c) c)
  let xh := (List.range n).map (fun i => t.xh.getD i 0)
  let nu := (List.range m).map (fun i =>
    if bad.contains i then 0
    else f32Dot (y.getD i 0) ((List.range n).map (fun j => (f32Negate (ob (96 + 8 * i + j)), xh.getD j 0))))
  let xc := (List.range n).map (fun i =>
    f32Dot (xh.getD i 0) ((List.range m).map (fun j => (ob (128 + 4 * i + j), nu.getD j 0))))
  let yW := (List.range m).map (fun i => if bad.contains i then 0 else y.getD i 0)
  let hand := t.start.isSome || mode != t.mode || t.law
  let slew := t.start.isNone
  let uPrev := t.start.getD t.u
  let outs := (List.range q).map (fun j =>
    s.evalOut l mode j xc r yW hand slew (uPrev.getD j 0) (t.iota.getD j 0) (t.gap.any (fun (g : Nat × Nat) => g.1 == j)))
  let u := outs.map OutEval.u
  let xh' := (List.range n).map (fun i =>
    f32Dot (f32Dot 0 ((List.range n).map (fun j => (ob (8 * i + j), xc.getD j 0))))
      ((List.range q).map (fun j => (ob (64 + 4 * i + j), u.getD j 0))))
  let dMax := ((List.range q).foldl (fun (b : Nat × Nat) j =>
    let d := (outs.map OutEval.d).getD j 0
    if absQ (f32Val b.2) < absQ (f32Val d) then (j, d) else b) (0, (outs.map OutEval.d).getD 0 0))
  { y := y, r := r, bad := bad, nu := nu, xc := xc, v := outs.map OutEval.v, u := u, iota := outs.map OutEval.iota,
    xh := xh', gap := (List.range q).filterMap (fun j => ((outs.map OutEval.gap).getD j none).map (fun g => (j, g))),
    limited := outs.any (fun (o : OutEval) => o.limited), handed := hand, dMax := dMax,
    uOut := (List.range q).map (fun j => uPrev.getD j 0) }

/-- The first value that is not finite, as the index within its vector. -/
def Eval.notFinite (e : Eval) : Option Nat :=
  let at' := fun (l : List Nat) => l.findIdx? (fun b => !f32Finite b)
  match at' e.nu with
  | some i => some i
  | none => match at' e.xc with
    | some i => some i
    | none => match at' e.v with
      | some i => some i
      | none => match at' e.u with
        | some i => some i
        | none => match at' e.iota with
          | some i => some i
          | none => at' e.xh

/-- Following error of R363 after an evaluation. -/
def State.loopError (s : State) (l : Nat) (e : Eval) : State :=
  let fe := f32Sub (e.r.getD (s.objN (Obj.LP_FE_REF l)) 0) (e.y.getD (s.objN (Obj.LP_FE_IN l)) 0)
  let s := s.setLoop l (fun t => { t with fe := fe })
  let mode := s.objN (Obj.LP_MODE l)
  let off := !s.objBit (Obj.LP_FE_MODES l) mode || !e.gap.isEmpty || (e.handed && (s.loop l).mode != mode)
  if off then s.setLoop l (fun t => { t with feNs := 0 })
  else
    let a := absQ (f32Val fe)
    let s := if s.objF (Obj.LP_FE_PEAK l) < a then s.setObj (Obj.LP_FE_PEAK l) (f32Abs fe : Nat) else s
    if s.objF (Obj.LP_FE_LIMIT l) < a then s.setLoop l (fun t => { t with feNs := t.feNs + s.lpPeriod l })
    else s.setLoop l (fun t => { t with feNs := 0 })

/-- CONTACT of the axis a loop is bound to (R352). -/
def State.loopContact (s : State) (l : Nat) : State :=
  match s.loopAxis l with
  | none => s
  | some x =>
    let t := s.loop l
    let f := s.objN (Obj.AX_FORCE_LIMIT x)
    if t.mode = 1 ∧ f32Val f ≤ absQ (f32Val (t.u.getD 0 0)) ∧ absQ (s.fbSpeed x) < s.objF (Obj.AX_CONTACT_VEL x) then
      s.setAx x (fun m => { m with contactSince := some (m.contactSince.getD s.now) })
    else (s.setAx x (fun m => { m with contactSince := none })).setAxBit x bContact false

/-- MODE_HANDOVER (Table 16.5, R361, R362). -/
def State.handoverEvent (s : State) (l mode : Nat) (e : Eval) : State :=
  let who := match s.loopAxis l with
    | some x => x
    | none => 0x80 + l
  let s := s.setObj (Obj.LP_HO_DIFF l) (e.dMax.2 : Nat)
  s.event 24 0x1003 [(12, 1, who), (13, 1, mode), (14, 1, e.dMax.1), (16, 4, e.dMax.2), (20, 4, e.uOut.getD e.dMax.1 0)]

/-- Take the results of an evaluation and write its outputs. -/
def State.loopTake (s : State) (l : Nat) (e : Eval) : State :=
  let old := s.loop l
  let mode := s.objN (Obj.LP_MODE l)
  let s := s.loopError l e
  let duty := (List.range (s.lpQ l)).map (fun j =>
    f32Clip 0 f32One (f32Fma (s.f32At (Obj.LP_OUT_SCALE l) j) (e.u.getD j 0) (s.f32At (Obj.LP_OUT_OFFS l) j)))
  let s := s.setLoop l (fun t => { t with
    mode := mode, start := none, law := false, y := e.y, r := e.r, nu := e.nu, xc := e.xc, xh := e.xh, v := e.v, u := e.u,
    iota := e.iota, duty := duty, gap := e.gap })
  let s := (List.range (s.lpQ l)).foldl (fun s j => s.ownDuty (s.destOf l j) (duty.getD j 0)) s
  let s := (s.setHandover l (!e.gap.isEmpty)).setLpBit l bLimited e.limited
  let s := if e.limited then s.count (Obj.LP_SAT_CNT l) 1 else s
  let s := if e.handed ∧ old.start.isNone then s.handoverEvent l mode e else s
  let s := if mode ≠ old.mode ∧ old.start.isNone then s.traceEvent l 6 else s
  s.loopContact l

/-- LOOP_EVAL. -/
def State.loopEval (s : State) (l : Nat) : State :=
  if !s.ready 11 then s
  else if s.obj (Obj.LP_STATE l) = 2 then s.traceStep l
  else if s.obj (Obj.LP_STATE l) ≠ 1 then s
  else
    let e := s.evaluate l
    let s := s.setLpBit l bInvalid (!e.bad.isEmpty)
    let s := if e.bad.isEmpty then s.setLoop l (fun t => { t with bad := 0 })
      else (s.count (Obj.LP_INVALID_CNT l) 1).setLoop l (fun t => { t with bad := t.bad + 1 })
    let s := match e.notFinite with
      | some i => s.loopTrip l 2 i
      | none =>
        if !e.bad.isEmpty ∧ s.objN (Obj.LP_INVALID_MAX l) ≤ (s.loop l).bad then s.loopTrip l 1 (e.bad.getD 0 0)
        else s.loopTake l e
    let s := s.traceStep l
    let t := s.loop l
    s.forward (.loopState l t.mode t.xh t.iota t.u)

/-- LOOP_FE. -/
def State.loopFe (s : State) (l : Nat) : State :=
  if s.obj (Obj.LP_STATE l) ≠ 1 ∨ !s.ready 11 ∨ (s.loop l).feNs < s.objN (Obj.LP_FE_MS l) * 1000000 then s
  else
    let act := s.objN (Obj.LP_FE_ACTION l)
    let fe := (s.loop l).fe
    let s := (s.event 24 0x1101 [(12, 1, l), (13, 1, act), (16, 4, fe)]).count (Obj.LP_FE_CNT l) 1
    let s := (s.setLoop l (fun t => { t with feNs := 0 })).traceEvent l 4
    let s := if act = 0 then s else s.loopTrip l 3 (s.objN (Obj.LP_FE_IN l))
    if act = 2 then s.latch 0x1405 safety l (le 4 fe) false false none else s

/-! ### Enable and mode (R359, R361, R362, R371) -/

/-- Destinations a loop names. -/
def State.dests (s : State) (l : Nat) : List Nat := ((List.range (s.lpQ l)).map (s.destOf l)).filter (· != 0xFF)

/-- The owner of a PWM output, or of a valve output 0x40 + v (R371). -/
def State.ownerOf (s : State) (dst : Nat) : Nat :=
  match (List.range 32).find? (fun l => s.obj (Obj.LP_ENABLE l) == 1 && (s.dests l).contains dst) with
  | some l => 0x40 + l
  | none =>
    match (List.range 24).find? (fun x => decide (dst < 32) && s.objN (Obj.AX_CUR_PWM x) == dst) with
    | some x => 0x80 + x
    | none => 0

/-- ADC channels an input or reference of a loop names. -/
def State.loopAdc (s : State) (l : Nat) : List Nat :=
  (((List.range (s.lpM l)).map (codeAt (s.objN (Obj.LP_IN_SRC l)))) ++
    ((List.range (s.lpP l)).map (codeAt (s.objN (Obj.LP_REF_SRC l))))).filter (fun c => decide (c < 16))

/-- A write of LP_ENABLE. -/
def State.lpEnableSet (s : State) (l v : Nat) : State × Nat :=
  if v = 1 then
    let d := s.dests l
    if s.obj (Obj.LP_ENABLE l) = 1 then (s, 0)
    else if d.any (fun k => s.ownerOf k != 0 || decide (1 < d.count k)) then (s, 0x04)
    else if (s.loopAdc l).any (fun c => !s.objBit Obj.ADC_ENABLE c) then (s, 0x04)
    else
      let start := (List.range (s.lpQ l)).map (fun j =>
        if s.destOf l j = 0xFF then 0 else s.fullScale l j (s.dutyNow (s.destOf l j)))
      let s := (s.setObj (Obj.LP_ENABLE l) 1).setObj (Obj.LP_STATE l) 1
      let s := (s.setObj (Obj.LP_STATUS l) ((s.objN (Obj.LP_STATUS l) / 32 * 32 + 1 : Nat) : Int))
      (s.setLoop l (fun t => { mode := s.objN (Obj.LP_MODE l), start := some start, trace := t.trace }), 0)
  else
    let s := (s.setObj (Obj.LP_ENABLE l) 0).setObj (Obj.LP_STATE l) 0
    let s := (s.setHandover l false).setObj (Obj.LP_STATUS l) ((s.objN (Obj.LP_STATUS l) / 32 * 32 : Nat) : Int)
    let s := s.setLoop l (fun t => { t with gap := [], feNs := 0, bad := 0, start := none, law := false })
    (s.condEnd 0x1102 l, 0)

/-- A write of LP_MODE. -/
def State.lpModeSet (s : State) (l v : Nat) : State × Nat :=
  if (s.loopAxis l).isSome then (s, 0x0A) else (s.setObj (Obj.LP_MODE l) (v : Nat), 0)

/-- A write of the law of a mode: the active law is replaced by a hand-over (R359). -/
def State.lpLawWritten (s : State) (l mode : Nat) : State :=
  if s.obj (Obj.LP_STATE l) = 1 ∧ (s.loop l).mode = mode then s.setLoop l (fun t => { t with law := true }) else s

def execLoopEval (l : LoopNo) (s : State) : Outcome := .next (s.loopEval l.val)
def execLoopFe (l : LoopNo) (s : State) : Outcome := .next (s.loopFe l.val)

end Sys2Proof.Machine
end

