-- ==== Sys2Proof/Machine/Io.lean ====
section
/-! DEFINITION. Analogue inputs and general outputs (R367 to R371): the ADC, PWM and valve outputs and GPIO. -/

namespace Sys2Proof.Machine

/-! ### ADC (R367) -/

/-- Entry of HALO_PRES_WIN: low, high, filter in 0.1 ms, enabled. -/
def State.presWin (s : State) (ch : Nat) : Nat × Nat × Nat × Bool :=
  let b := Obj.HALO_PRES_WIN
  (s.blobN b (8 * ch) 2, s.blobN b (8 * ch + 2) 2, s.blobN b (8 * ch + 4) 2, bitAt (s.blobN b (8 * ch + 6) 2) 0)

/-- A reading lies within an ADC window. -/
def State.inPresWin (s : State) (ch raw : Nat) : Bool :=
  let w := s.presWin ch
  decide (w.1 ≤ raw) && decide (raw ≤ w.2.1)

/-- ADC_CONVERSION. -/
def State.adcConversion (s : State) (ch raw : Nat) : State :=
  if !s.ready 11 || !s.objBit Obj.ADC_ENABLE ch then s
  else
    let s := { s with io := { s.io with adc := Tab.set 0 s.io.adc ch raw } }
    let since := if s.inPresWin ch raw then 0
      else if Tab.get 0 s.io.outSince ch = 0 then s.now + 1 else Tab.get 0 s.io.outSince ch
    let s := { s with io := { s.io with outSince := Tab.set 0 s.io.outSince ch since } }
    if since = 0 then s.condEnd 0x1404 ch else s

def popCount (n v : Nat) : Nat := ((List.range n).filter (bitAt v)).length

/-- A write of ADC_RATE or ADC_ENABLE; the caller has checked the range of the type. -/
def State.adcSet (s : State) (rate : Bool) (v : Nat) : State × Nat :=
  let en := s.objN Obj.ADC_ENABLE
  if rate then
    if v < 1000 ∨ 1000000 < v ∨ 1000000 < v * popCount 16 en then (s, 0x04)
    else (s.setObj Obj.ADC_RATE (v : Nat), 0)
  else if 1000000 < s.objN Obj.ADC_RATE * popCount 16 v then (s, 0x04)
  else
    let gone := (List.range 16).filter (fun c => bitAt en c && !bitAt v c)
    let used := fun (c : Nat) => (s.presWin c).2.2.2 ||
      (List.range 32).any (fun l => s.obj (Obj.LP_ENABLE l) == 1 && (s.loopAdc l).contains c)
    if gone.any used then (s, 0x0A)
    else
      let s := s.setObj Obj.ADC_ENABLE (v : Nat)
      ({ s with io := { s.io with adc := gone.foldl (fun t c => Tab.erase c t) s.io.adc } }, 0)

/-- ADC_VALUE. -/
def State.adcValue (s : State) : Bytes := ((List.range 16).map (fun c => le 2 (Tab.get 0 s.io.adc c))).flatten

/-! ### PWM and valve outputs (R368, R369, R371) -/

/-- PWM_PERIOD: the new duty and period take effect. -/
def State.pwmPeriod (s : State) (i : Nat) : State :=
  if !s.ready 11 then s
  else s.setPwm i { duty := s.objN (Obj.PWM_DUTY i), period := s.objN (Obj.PWM_PERIOD_NS i), since := s.now }

/-- The function level of an output with a duty, a time into a period of the given length, both in ns: active for the duty
rounded to the nearest 2.5 ns. -/
def pwmActive (duty period t : Nat) : Bool :=
  let units := rneNat (f32Val duty * (period : Rat) * 2 / 5)
  decide (2 * t < 5 * units)

/-- The level of PWM output i at the ball. -/
def State.pwmLevel (s : State) (i : Nat) : Bool :=
  let w := s.pwm i
  let on := s.ready 11 && decide (s.now - w.since < w.period) && pwmActive w.duty w.period (s.now - w.since)
  on != s.objBit (Obj.PWM_POL i) 0

/-- The level of a valve output at the ball. -/
def State.valveLevel (s : State) (v : Nat) : Bool :=
  let d := s.objN (Obj.VALVE_DUTY v)
  let per := s.objN (Obj.VALVE_PERIOD_NS v)
  !s.valveHeld && (if s.obj (Obj.VALVE_MODE v) = 0 then decide (1 / 2 ≤ f32Val d) else pwmActive d per (s.now % per))

/-- A host write of PWM_DUTY or VALVE_DUTY. -/
def State.dutySet (s : State) (valve : Bool) (i v : Nat) : State × Nat :=
  let dst := if valve then 0x40 + i else i
  if s.ownerOf dst ≠ 0 then (s, 0x0A) else (s.ownDuty dst v, 0)

/-! ### GPIO (R370) -/

/-- GPIO_USE. -/
def State.gpioUse (s : State) : Nat :=
  let pins := (List.range 24).flatMap (fun x =>
    [s.objN (Obj.AX_LIM_NEG_PIN x), s.objN (Obj.AX_LIM_POS_PIN x), s.objN (Obj.AX_HOME_PIN x)]) ++
    ((List.range 8).map (fun b => s.blobN Obj.CIC_CAP_GPIO b 1)).filterMap
      (fun v => if bitAt v 7 then none else some (field v 0 5)) ++
    (let v := s.objN Obj.CIC_WAKE_PIN; if bitAt v 7 then [] else [field v 0 5])
  (List.range 32).foldl (fun v i => v + b2n (pins.contains i) * 2 ^ i) 0

/-- Outputs are read back at the ball. -/
def State.gpioReadback (s : State) : State :=
  let dir := s.objN Obj.GPIO_DIR
  let out := s.objN Obj.GPIO_OUT
  (List.range 32).foldl (fun s i => if bitAt dir i then s.setBit Obj.GPIO_IN i (bitAt out i) else s) s

/-- A write of GPIO_DIR. -/
def State.gpioDirSet (s : State) (v : Nat) : State × Nat :=
  if s.gpioUse &&& v ≠ 0 then (s, 0x0A) else ((s.setObj Obj.GPIO_DIR (v : Nat)).gpioReadback, 0)

/-- GPIO_INPUT: a filtered level reaches the limit switches and home pins. -/
def State.gpioInput (s : State) (pin : Nat) (level : Bool) : State :=
  if s.objBit Obj.GPIO_DIR pin || s.objBit Obj.GPIO_IN pin == level then s
  else
    let s := s.setBit Obj.GPIO_IN pin level
    let s := (List.range 24).foldl (fun s x =>
      if s.objN (Obj.AX_LIM_NEG_PIN x) = pin ∨ s.objN (Obj.AX_LIM_POS_PIN x) = pin then s.limitReleased x else s) s
    s.homePin pin level

def execAdcConversion (ch : Fin 16) (raw : BitVec 16) (s : State) : Outcome := .next (s.adcConversion ch.val raw.toNat)
def execPwmPeriod (i : Fin 32) (s : State) : Outcome := .next (s.pwmPeriod i.val)
def execGpioInput (pin : Fin 32) (level : Bool) (s : State) : Outcome := .next (s.gpioInput pin.val level)

end Sys2Proof.Machine
end

