-- ==== Sys2Proof/Machine/Dram.lean ====
section
/-! DEFINITION. The DRAM controller (chapter 18): the Reed-Solomon code, reads, writes and scrub, refresh, sweeps, drift,
rows and power-down, the data rate and bring-up. -/

namespace Sys2Proof

/-! ### GF(2^16) and RS(48,32) (R375) -/

/-- Multiply by alpha: x^16 + x^12 + x^3 + x + 1. -/
def gfX (a : Nat) : Nat := if a < 2 ^ 15 then 2 * a else (2 * a) ^^^ 0x1100B

/-- The product of two elements. -/
def gfMulBits (a b : Nat) : Nat → Nat
  | 0 => 0
  | n + 1 => gfX (gfMulBits a b n) ^^^ (if bitAt b (15 - n) then a else 0)

def gfMul (a b : Nat) : Nat := gfMulBits a b 16

def gfPow (a : Nat) : Nat → Nat
  | 0 => 1
  | n + 1 => gfMul a (gfPow a n)

/-- Square-and-multiply inverse: a^(2^16 - 2). -/
def gfInvBits (a : Nat) : Nat → Nat × Nat
  | 0 => (a, 1)
  | n + 1 => let x := gfInvBits a n; let q := gfMul x.1 x.1; (q, gfMul x.2 q)

def gfInv (a : Nat) : Nat := (gfInvBits a 15).2

/-- Value of a polynomial, lowest coefficient first. -/
def gfEval (x : Nat) : List Nat → Nat
  | [] => 0
  | c :: t => c ^^^ gfMul x (gfEval x t)

/-- Sum of polynomials. -/
def gfAddP : List Nat → List Nat → List Nat
  | [], q => q
  | p, [] => p
  | a :: p, b :: q => (a ^^^ b) :: gfAddP p q

def gfScaleP (c : Nat) (p : List Nat) : List Nat := p.map (gfMul c)

/-- The generator's 16 coefficients below x^16: the product of x + alpha^i, lowest first. -/
def rsGen : List Nat :=
  ((List.range 16).foldl (fun (g : List Nat) i => gfAddP (0 :: g) (gfScaleP (gfPow 2 i) g)) [1]).take 16

/-- Check symbols 32 to 47 of 32 data symbols: the remainder of the division by the generator. -/
def rsCheck (data : List Nat) : List Nat :=
  let gen := rsGen.reverse
  data.foldl (fun (r : List Nat) d =>
    let f := d ^^^ r.getD 0 0
    gfAddP (r.drop 1 ++ [0]) (gfScaleP f gen)) (List.replicate 16 0)

/-- The 48 symbols of an error pattern given as (symbol, change). -/
def errWord (e : List (Nat × Nat)) : List Nat :=
  (List.range 48).map (fun q => e.foldl (fun v (x : Nat × Nat) => if x.1 = q then v ^^^ (x.2 % 65536) else v) 0)

/-- Positions 0 to 39 show no syndrome. -/
def rsClean (w : List Nat) : Bool := (rsCheck (w.take 32)).take 8 == (w.drop 32).take 8

/-- Berlekamp-Massey step state: locator, previous locator, its discrepancy, length, gap. -/
structure BmState where
  lam : List Nat := [1]
  prev : List Nat := [1]
  b : Nat := 1
  len : Nat := 0
  m : Nat := 1

def bmStep (syn : List Nat) (s : BmState) (n : Nat) : BmState :=
  let d := (List.range (s.len + 1)).foldl (fun v i => v ^^^ gfMul (s.lam.getD i 0) (syn.getD (n - i) 0)) 0
  if d = 0 then { s with m := s.m + 1 }
  else
    let t := gfAddP s.lam (gfScaleP (gfMul d (gfInv s.b)) (List.replicate s.m 0 ++ s.prev))
    if 2 * s.len ≤ n then { lam := t, prev := s.lam, b := d, len := n + 1 - s.len, m := 1 }
    else { s with lam := t, m := s.m + 1 }

/-- The errors the decoder finds in 48 symbols, up to 8; none where it finds none it can correct. -/
def rsDecode (w : List Nat) : Option (List (Nat × Nat)) :=
  let loc := fun (q : Nat) => gfPow 2 (47 - q)
  let syn := (List.range 16).map (fun j => gfEval (gfPow 2 j) w.reverse)
  if syn.all (· == 0) then some []
  else
    let s := (List.range 16).foldl (bmStep syn) {}
    let at' := (List.range 48).filter (fun q => gfEval (gfInv (loc q)) s.lam == 0)
    if 8 < s.len ∨ at'.length ≠ s.len then none
    else
      let om := (List.range 16).map (fun k =>
        (List.range (k + 1)).foldl (fun v i => v ^^^ gfMul (s.lam.getD i 0) (syn.getD (k - i) 0)) 0)
      let der := (List.range s.lam.length).map (fun i => if i % 2 = 0 then s.lam.getD (i + 1) 0 else 0)
      some (at'.map (fun q =>
        let xi := gfInv (loc q)
        (q, gfMul (loc q) (gfMul (gfEval xi om) (gfInv (gfEval xi der))))))

namespace Machine

/-! ### Ranks, rows and counters -/

def State.rank (s : State) (c r : Nat) : Rank := Tab.get {} s.dramSt.ranks (2 * c + r)

def State.setRank (s : State) (c r : Nat) (f : Rank → Rank) : State :=
  { s with dramSt := { s.dramSt with ranks := Tab.set {} s.dramSt.ranks (2 * c + r) (f (s.rank c r)) } }

def rankExists (r : Nat) : Bool := r == 0 || Config.dramTwoRanks

/-- The subchannel of a device address (R374). -/
def subOf (a : Nat) : Nat := a / 256 % 8

/-- The rank of a device address: the upper half of the usable bytes lies in rank 1 where there are two. -/
def State.rankOf (s : State) (a : Nat) : Nat := if Config.dramTwoRanks && decide (s.usable ≤ 2 * a) then 1 else 0

/-- The device a symbol of a burst comes from. -/
def deviceOf (q : Nat) : Nat := if Config.dramX16 then (if q < 32 then q / 16 else 2) else q / 8

/-- A counted access of a port: late where it was served after its target (R386), and the row and rank it wakes (R387). -/
def State.dramAccess (s : State) (port a age : Nat) : State :=
  let s := if s.blobN Obj.DRAM_PORT_TARGET (4 * port) 4 < age then s.countElem Obj.DRAM_LATE_CNT port 4 32 1 else s
  let s := s.setRank (subOf a) (s.rankOf a) (fun r => { r with mode := 0, last := s.now })
  { s with dramSt := { s.dramSt with rows := Tab.set (0, 0) s.dramSt.rows (Config.dramBank a) (Config.dramRow a + 1, s.now) } }

/-- A corrected symbol's device counts once per burst; R385 reports a device that reaches DRAM_SUSPECT_CE in a pass. -/
def State.deviceCe (s : State) (c r dev : Nat) : State :=
  let s := s.countElem (Obj.DRAM_DEV_CE c) (5 * r + dev) 4 32 1
  let k := 10 * c + 5 * r + dev
  let n := Tab.get 0 s.dramSt.rises k + 1
  let s := { s with dramSt := { s.dramSt with rises := Tab.set 0 s.dramSt.rises k n } }
  if s.objN Obj.DRAM_SUSPECT_CE ≤ n ∧ !s.dramSt.suspects.contains k then
    ({ s with dramSt := { s.dramSt with suspects := k :: s.dramSt.suspects } }).event 24 0x1204
      [(12, 1, c), (13, 1, r), (14, 1, dev), (16, 4, n)]
  else s

/-- A corrected burst (R376): DRAM_CE_CNT, and each device it changed. -/
def State.corrected (s : State) (c r : Nat) (fix : List (Nat × Nat)) : State :=
  let devs := ((fix.filter (fun (x : Nat × Nat) => decide (x.1 < 40))).map (fun (x : Nat × Nat) => deviceOf x.1)).eraseDups
  devs.foldl (fun s d => s.deviceCe c r d) (s.count (Obj.DRAM_CE_CNT c) 1)

/-- INITIATOR of a port (Table 20.2). -/
def portInitiator (p : Nat) : Nat := ([0x05, 0x06, 0x01, 0x0B, 0x07, 0x03, 0x08, 0x0C] : List Nat).getD p 0

/-- An uncorrectable burst (R376): counted, DRAM_UE raised and a SERVICE fault with the access captured. -/
def State.dramUe (s : State) (port a acc : Nat) : State :=
  let c := subOf a
  let s := s.count (Obj.DRAM_UE_CNT c) 1
  let ev := s.eventBytes 0x1201 0 0 [(12, 1, c), (13, 1, port), (16, 8, a)]
  (s.push 24 ev).latch 0x1201 serviceF c (slice ev 16 12) false false
    (some { initiator := portInitiator port, access := acc, kind := 2, addr := a })

/-- The change an error word makes to the 64 data bytes: pin q carries its symbol over the burst, beat 0 in bit 0. -/
def burstXor (w : List Nat) (d : Bytes) : Bytes :=
  (List.range 64).map (fun i =>
    (d.getD i 0) ^^^ BitVec.ofNat 8 ((List.range 8).foldl
      (fun v b => v + b2n (bitAt (w.getD (8 * (i % 4) + b) 0) (i / 4)) * 2 ^ b) 0))

/-- Outcome of reading a burst with an error pattern: clean, corrected with what the decoder changed, or uncorrectable. -/
inductive Decoded
  | clean
  | fixed (fix : List (Nat × Nat))
  | bad
  deriving DecidableEq, Repr

def decodeBurst (e : List (Nat × Nat)) : Decoded :=
  let w := errWord e
  if rsClean w then .clean
  else match rsDecode w with
    | some f => .fixed f
    | none => .bad

/-- The training region and what lies beyond the usable bytes (R374). -/
def State.unreachable (s : State) (a : Nat) : Bool := decide (a < (s.region regTraining).2)

/-- DRAM_READ. -/
def State.dramRead (s : State) (port a age : Nat) (e : List (Nat × Nat)) : State :=
  let a := a / 64 * 64
  let s := s.dramAccess port a age
  let stored := s.dramGet a 64
  let w := errWord e
  match decodeBurst e with
  | .clean => s.emit (.dramData port (burstXor w stored) false)
  | .fixed f =>
    let d := burstXor (errWord f) (burstXor w stored)
    let s := (s.dramPut a d).corrected (subOf a) (s.rankOf a) f
    s.emit (.dramData port d false)
  | .bad =>
    let s := s.dramUe port a 0
    s.emit (.dramData port (burstXor w stored) true)

/-- DRAM_WRITE: a write of part of a group reads the group's check burst first (R376). -/
def State.dramWrite (s : State) (port a : Nat) (data : Bytes) (age : Nat) (e : List (Nat × Nat)) : State :=
  let s := s.dramAccess port a age
  if data.length = 256 then s.dramPut a data
  else
    match decodeBurst e with
    | .clean => s.dramPut a data
    | .fixed f => (s.corrected (subOf a) (s.rankOf a) f).dramPut a data
    | .bad => s.dramUe port a 1

/-! ### Scrub (R385) -/

/-- Bursts of one pass: the data bursts, then one check burst for each group. -/
def State.scrubTotal (s : State) : Nat := s.usable / 64 + s.usable / 256

/-- DRAM_SCRUB: the next burst, with the errors it reads. -/
def State.dramScrub (s : State) (e : List (Nat × Nat)) : State :=
  if !s.dramReady then s
  else
    let n := s.dramSt.scrub
    let data := s.usable / 64
    let s := { s with dramSt := { s.dramSt with scrub := n + 1 } }
    let s :=
      if n < data then
        let a := 64 * n
        match decodeBurst e with
        | .clean => s
        | .fixed f =>
          (s.dramPut a (burstXor (errWord f) (burstXor (errWord e) (s.dramGet a 64)))).corrected (subOf a) (s.rankOf a) f
        | .bad => s.dramUe 7 a 0
      else
        -- a check burst lies in the partner subchannel and is rebuilt from its data bursts
        let a := 256 * (n - data)
        let c := subOf a ^^^ 1
        if rsClean (errWord e) then s else s.corrected c (s.rankOf a) e
    if s.scrubTotal ≤ n + 1 then { s with dramSt := { s.dramSt with scrub := 0, rises := [], suspects := [] } } else s

/-! ### Refresh (R383, R384) -/

def State.owed (s : State) (c r : Nat) : Nat := field (s.objN (Obj.DRAM_REF_OWED c)) (4 * r) 4

def State.setOwed (s : State) (c r n : Nat) : State :=
  s.setObj (Obj.DRAM_REF_OWED c) (putField (s.objN (Obj.DRAM_REF_OWED c)) (4 * r) 4 n : Nat)

/-- One REFab of a rank; an accepted delay set is written to its function copies during it (R381). -/
def State.refab (s : State) (c r : Nat) : State := (s.emit (.dram c r 1)).takeDelays c r

def State.refabs (s : State) (c r : Nat) : Nat → State
  | 0 => s
  | n + 1 => (s.refab c r).refabs c r n

/-- DRAM_REFRESH: the rank's refresh interval has expired; `canIssue` says that no port of urgency 2 or 3 needs it. -/
def State.dramRefresh (s : State) (c r : Nat) (canIssue : Bool) : State :=
  let st := s.obj Obj.DRAM_STATE
  if !rankExists r ∨ !s.ready 2 ∨ (st ≠ 2 ∧ st ≠ 3) ∨ (s.rank c r).mode = 2 then s
  else
    let n := s.owed c r
    if (s.rank c r).doubled ∨ canIssue then (s.refabs c r (n + 1)).setOwed c r 0
    else if n < s.objN Obj.DRAM_REF_POSTPONE then s.setOwed c r (n + 1)
    else (s.refabs c r (1 + min n 1)).setOwed c r (n - 1)

/-- DRAM_TEMP: the highest of the ranks' latest readings. -/
def State.dramTemp (s : State) (c : Nat) : Int :=
  match (s.rank c 0).temp, (s.rank c 1).temp with
  | some a, some b => max a b
  | some a, none => a
  | none, some b => b
  | none, none => 0

/-- DRAM_MR4_READ. -/
def State.mr4 (s : State) (c r : Nat) (t : Int) : State :=
  let st := s.obj Obj.DRAM_STATE
  if !rankExists r ∨ !s.ready 2 ∨ (st ≠ 2 ∧ st ≠ 3) ∨ (s.rank c r).mode = 2 then s
  else
    let s := s.setRank c r (fun x => { x with temp := some t })
    let s := s.setObj (Obj.DRAM_TEMP c) (s.dramTemp c)
    let hot := s.obj Obj.DRAM_REF2X_C
    let raised := fun (s : State) (on n : Nat) =>
      let s := s.setBit (Obj.DRAM_STATUS c) 3 ((s.rank c 0).doubled || (s.rank c 1).doubled)
      s.event 24 0x1203 [(12, 1, c), (13, 1, r), (14, 1, on), (16, 2, bitsOf 16 t), (18, 1, n)]
    if !(s.rank c r).doubled ∧ hot ≤ t then
      let n := 2 * s.owed c r
      let s := (s.setOwed c r n).setRank c r (fun x => { x with doubled := true })
      raised ((s.refabs c r n).setOwed c r 0) 1 n
    else if (s.rank c r).doubled ∧ t ≤ hot - s.obj Obj.DRAM_REF2X_HYST ∧ s.owed c r = 0 then
      raised (s.setRank c r (fun x => { x with doubled := false })) 0 0
    else s

/-! ### Sweeps, the data rate and drift (R379, R380, R382) -/

/-- Apply a data rate: firmware must sweep again. -/
def State.applyRate (s : State) (v : Nat) : State :=
  let s := s.setObj Obj.DRAM_RATE (v : Nat)
  let s := { s with dramSt := { s.dramSt with rateHeld := none } }
  (List.range 8).foldl (fun s c => if s.calState 2 c = 0 then s.setCalState 2 c 1 else s) s

/-- Entries a sweep records. -/
def sweepSteps (ctrl : Nat) : Nat :=
  let first := field ctrl 24 16
  let last := field ctrl 40 16
  let step := field ctrl 56 8
  if step = 0 ∨ last < first then 0 else (last - first) / step + 1

def sweepOk (ctrl : Nat) : Bool :=
  decide (field ctrl 13 3 < 4) && decide (field ctrl 7 6 < 40) && decide (field ctrl 4 3 < 5) && rankExists (field ctrl 3 1) &&
    decide (0 < field ctrl 16 8) && decide (0 < sweepSteps ctrl) && decide (sweepSteps ctrl ≤ 256)

/-- DRAM_SWEEP_START. -/
def State.sweepStart (s : State) (c ctrl : Nat) : State :=
  let st := s.obj Obj.DRAM_STATE
  if s.dramSt.sweep.isSome ∨ !s.ready 2 ∨ (st ≠ 2 ∧ st ≠ 3) ∨ field ctrl 0 3 ≠ c ∨ !sweepOk ctrl then s
  else
    let s := s.setObj Obj.DRAM_SWEEP_CTRL (ctrl : Nat)
    { s with dramSt := { s.dramSt with sweep := some c } }

/-- Results of a sweep: 256 entries and the STALE bit. -/
def sweepBytes (results : List (Nat × Nat)) (stale : Bool) : Bytes :=
  slice ((results.map (fun (x : Nat × Nat) => le 5 x.1 ++ le 3 (min x.2 0xFFFFFF))).flatten) 0 2048 ++ le 1 (b2n stale)

/-- A sweep ends ABORTED with its results STALE (Table 18.5). -/
def State.sweepAbort (s : State) : State :=
  if s.dramSt.sweep.isNone then s
  else
    let s := s.setBlob Obj.DRAM_SWEEP_RESULT 2048 [1]
    { s with dramSt := { s.dramSt with sweep := none } }

/-- DRAM_SWEEP_COMPLETE. -/
def State.sweepComplete (s : State) (results : List (Nat × Nat)) : State :=
  if s.dramSt.sweep.isNone then s
  else
    let held := s.dramSt.rateHeld
    let n := sweepSteps (s.objN Obj.DRAM_SWEEP_CTRL)
    let s := s.setBlob Obj.DRAM_SWEEP_RESULT 0 (sweepBytes (results.take n) held.isSome)
    let s := { s with dramSt := { s.dramSt with sweep := none } }
    match held with
    | some v => s.applyRate v
    | none => s

/-- JOBS_IN_FLIGHT: slots held. -/
def State.jobsInFlight (s : State) : Nat := s.hq.jobs.length

def dramRates : List Nat := [3200, 3600, 4000, 4400, 4800, 5200, 5600, 6000, 6400]

/-- A write of DRAM_RATE. -/
def State.dramRateSet (s : State) (v : Nat) : State × Nat :=
  if !dramRates.contains v then (s, 0x04)
  else if s.jobsInFlight ≠ 0 then (s, 0x0A)
  else if s.dramSt.sweep.isSome then ({ s with dramSt := { s.dramSt with rateHeld := some v } }, 0)
  else (s.applyRate v, 0)

/-- DRAM_DRIFT. -/
def State.dramDrift (s : State) (c r : Nat) (taps : Int) : State :=
  let st := s.obj Obj.DRAM_STATE
  if !rankExists r ∨ !s.ready 2 ∨ st ≠ 3 ∨ taps.natAbs ≤ s.objN Obj.DRAM_DRIFT_TAPS then s
  else
    let s := if s.calState 2 c = 0 then s.setCalState 2 c 1 else s
    s.event 24 0x1202 [(12, 1, c), (13, 1, r), (16, 4, bitsOf 32 taps)]

/-! ### Rows and power-down (R387) -/

/-- DRAM_ROW_CLOSE. -/
def State.rowClose (s : State) (bank : Nat) : State :=
  let w := Tab.get (0, 0) s.dramSt.rows bank
  if w.1 = 0 ∨ s.now < w.2 + s.objN Obj.DRAM_ROW_IDLE_NS then s
  else { s with dramSt := { s.dramSt with rows := Tab.erase bank s.dramSt.rows } }

/-- DRAM_POWER_DOWN. -/
def State.powerDown (s : State) (c r : Nat) : State :=
  let k := s.rank c r
  if !rankExists r ∨ !s.dramReady ∨ k.mode ≠ 0 ∨ s.now < k.last + s.objN Obj.DRAM_PD_NS then s
  else s.setRank c r (fun x => { x with mode := 1 })

/-- Every rank enters self-refresh, or leaves it (R387). -/
def State.selfRefresh (s : State) (on : Bool) : State :=
  let all := (List.range 16).foldl (fun s k =>
    if rankExists (k % 2) then
      s.setRank (k / 2) (k % 2) (fun x => { x with mode := if on then 2 else 0, last := s.now })
    else s) s
  let all := { all with dramSt := { all.dramSt with rows := if on then [] else all.dramSt.rows } }
  if on then (if s.obj Obj.DRAM_STATE = 3 then all.setObj Obj.DRAM_STATE 4 else all)
  else if s.obj Obj.DRAM_STATE = 4 then all.setObj Obj.DRAM_STATE 3 else all

/-! ### Bring-up (R372, R373, R481) -/

/-- DRAM_INIT_COMPLETE: the population is confirmed, or refused. -/
def State.dramInit (s : State) (ok : Bool) (gib : Nat) : State :=
  if s.obj Obj.DRAM_STATE ≠ 1 ∨ !s.ready 2 then s
  else if ok then
    let s := (s.setObj Obj.DRAM_GIB (gib : Nat)).setObj Obj.DRAM_USABLE_MIB ((gib * 1024 * 4 / 5 : Nat) : Int)
    let s := s.setObj Obj.DRAM_STATE 2
    { s with dramSt := { s.dramSt with trainSince := s.now } }
  else (s.setObj Obj.DRAM_STATE 5).latch Config.dramRefusedCode serviceF 0 [] true false none

/-- DRAM_RESTORE_WAIT_END: what holds no restored set is due and is trained. -/
def State.restoreWaitEnd (s : State) : State :=
  if s.obj Obj.DRAM_STATE ≠ 2 ∨ s.now < s.dramSt.trainSince + s.objN Obj.BOOT_RESTORE_MS * 1000000 then s
  else
    (List.range 8).foldl (fun s c =>
      if (s.calUnit 2 c).hasRef ∨ 2 ≤ s.calState 2 c then s else (s.setCalState 2 c 1).calDue 2 c) s

def execDramRead (port : Fin 8) (addr age : Nat) (errors : List (Nat × Nat)) (s : State) : Outcome :=
  if !s.dramReady then .next s
  else if s.usable ≤ addr then .fault (.noSuchAddress addr)
  else if s.unreachable addr then .next s
  else .next (s.dramRead port.val addr age errors)
def execDramWrite (port : Fin 8) (addr : Nat) (data : Bytes) (age : Nat) (errors : List (Nat × Nat)) (s : State) : Outcome :=
  if !s.dramReady then .next s
  else if s.usable < addr + data.length then .fault (.noSuchAddress addr)
  else if s.unreachable addr then .next s
  else .next (s.dramWrite port.val addr data age errors)
def execDramRefresh (c : Fin 8) (rank : Fin 2) (canIssue : Bool) (s : State) : Outcome :=
  .next (s.dramRefresh c.val rank.val canIssue)
def execDramMr4Read (c : Fin 8) (rank : Fin 2) (temp : Int) (s : State) : Outcome := .next (s.mr4 c.val rank.val temp)
def execDramSweepStart (c : Fin 8) (ctrl : BitVec 64) (s : State) : Outcome := .next (s.sweepStart c.val ctrl.toNat)
def execDramSweepComplete (results : List (Nat × Nat)) (s : State) : Outcome := .next (s.sweepComplete results)
def execDramDrift (c : Fin 8) (rank : Fin 2) (taps : Int) (s : State) : Outcome := .next (s.dramDrift c.val rank.val taps)
def execDramScrub (errors : List (Nat × Nat)) (s : State) : Outcome := .next (s.dramScrub errors)
def execDramRowClose (bank : Nat) (s : State) : Outcome := .next (s.rowClose bank)
def execDramPowerDown (c : Fin 8) (rank : Fin 2) (s : State) : Outcome := .next (s.powerDown c.val rank.val)
def execDramRestoreWaitEnd (s : State) : Outcome := .next s.restoreWaitEnd
def execDramInitComplete (ok : Bool) (gib : Nat) (s : State) : Outcome := .next (s.dramInit ok gib)

end Machine

end Sys2Proof
end

