-- ==== Sys2Proof/Machine/ZstdDecode.lean ====
section
/-! DEFINITION. The content of a compressed block of RFC 8878 (Table 19.1: all modes of the RFC, repeat modes included): the
literals with their Huffman tables, the sequences with their FSE tables, and the copies they make. -/

namespace Sys2Proof.Machine

/-- Number of the highest bit set; 0 of 0. -/
def topBit (n : Nat) : Nat := Nat.log2 n

/-- A bit stream that is read from its end: its value without the end mark, and the bits left. None where no end mark
stands in the last byte. -/
def backBits (b : Bytes) : Option (Nat × Nat) :=
  let l := (b.getLast?.getD 0).toNat
  if l = 0 then none
  else
    let n := 8 * (b.length - 1) + topBit l
    some (unle b % 2 ^ n, n)

/-- The next n bits of a stream read from its end with p bits left; zeros beyond its start. -/
def backPeek (v p n : Nat) : Nat := if n ≤ p then v / 2 ^ (p - n) % 2 ^ n else v % 2 ^ p * 2 ^ (n - p)

/-! ### FSE tables -/

/-- A decoding cell: symbol, bits of the next state, base of the next state. -/
abbrev FseCell := Nat × Nat × Nat

/-- A decoding table with its accuracy log. -/
structure FseTab where
  al : Nat
  cells : Array FseCell
  deriving DecidableEq, Repr

/-- Runs of zero probabilities after a zero: 2 bits each, while they are 3. -/
def fseZeros (v : Nat) : Nat → Nat → List Int → Nat × List Int
  | 0, p, l => (p, l)
  | f + 1, p, l =>
    let r := v / 2 ^ p % 4
    let l := List.replicate r 0 ++ l
    if r = 3 then fseZeros v f (p + 2) l else (p + 2, l)

/-- The probabilities of a table description from bit p on, newest first, until `remaining` is spent. -/
def fseProbs (v syms : Nat) : Nat → Nat → Nat → List Int → Option (Nat × List Int)
  | 0, _, _, _ => none
  | f + 1, p, remaining, l =>
    if remaining = 0 then some (p, l)
    else if syms ≤ l.length then none
    else
      let bits := topBit (remaining + 1) + 1
      let x := v / 2 ^ p % 2 ^ bits
      let low := x % 2 ^ (bits - 1)
      let threshold := 2 ^ bits - 1 - (remaining + 1)
      let short := decide (low < threshold)
      let val := if short then low else if 2 ^ (bits - 1) ≤ x then x - threshold else x
      let p := p + bits - b2n short
      let cost := if val = 0 then 1 else val - 1
      if remaining < cost then none
      else
        let l := ((val : Int) - 1) :: l
        if val = 1 then
          let z := fseZeros v f p l
          fseProbs v syms f z.1 remaining z.2
        else fseProbs v syms f p (remaining - cost) l

/-- The next free cell of the spread. -/
def fseNext (size high : Nat) : Nat → Nat → Nat
  | 0, p => p
  | f + 1, p =>
    let p := (p + size / 2 + size / 8 + 3) % size
    if high ≤ p then fseNext size high f p else p

/-- Spread a symbol over n cells. -/
def fseSpread (size high s : Nat) : Nat → Array Nat × Nat → Array Nat × Nat
  | 0, x => x
  | n + 1, x => fseSpread size high s n (x.1.setIfInBounds x.2 s, fseNext size high size x.2)

/-- A decoding table from its probabilities. -/
def fseTable (al : Nat) (probs : List Int) : FseTab :=
  let size := 2 ^ al
  let ps := (List.range probs.length).zip probs
  let top := (ps.filter (fun x => x.2 == -1)).foldl
    (fun (a : Array Nat × Nat) x => (a.1.setIfInBounds (a.2 - 1) x.1, a.2 - 1)) (Array.replicate size 0, size)
  let sp := ps.foldl (fun (a : Array Nat × Nat) x => fseSpread size top.2 x.1 x.2.toNat a) (top.1, 0)
  let next : Array Nat := (probs.map (fun p => if p = -1 then 1 else p.toNat)).toArray
  let r := (List.range size).foldl (fun (a : Array FseCell × Array Nat) i =>
    let s := sp.1.getD i 0
    let n := a.2.getD s 1
    let bits := al - topBit n
    (a.1.push (s, bits, n * 2 ^ bits - size), a.2.setIfInBounds s (n + 1))) (#[], next)
  ⟨al, r.1⟩

/-- A table description: the table and the bytes it takes. -/
def fseRead (maxAl syms : Nat) (b : Bytes) : Option (FseTab × Nat) :=
  if b.isEmpty then none
  else
    let al := byteAt b 0 % 16 + 5
    if maxAl < al then none
    else
      match fseProbs (unle (b.take 300)) syms (2 ^ al + syms + 2) 4 (2 ^ al) [] with
      | none => none
      | some (p, l) =>
        let n := (p + 7) / 8
        if b.length < n ∨ syms < l.length then none else some (fseTable al l.reverse, n)

def FseTab.cell (t : FseTab) (st : Nat) : FseCell := t.cells.getD st (0, 0, 0)

/-! ### Huffman tables -/

/-- A decoding table: bits of its index, and for each index the symbol and the length of its code. -/
structure HufTab where
  bits : Nat
  cells : Array (Nat × Nat)
  deriving DecidableEq, Repr

/-- Weights coded with FSE: two states read in turn until the stream is used up. -/
def hufWeights (t : FseTab) (v : Nat) : Nat → Nat → Nat → Nat → List Nat → Option (List Nat)
  | 0, _, _, _, _ => none
  | f + 1, p, a, c, l =>
    let x := t.cell a
    if p < x.2.1 then some ((t.cell c).1 :: x.1 :: l)
    else hufWeights t v f (p - x.2.1) c (x.2.2 + backPeek v p x.2.1) (x.1 :: l)

/-- The table of a list of weights, the last one left out. -/
def hufTable (w : List Nat) : Option HufTab :=
  let sum := (w.map (fun x => if x = 0 then 0 else 2 ^ (x - 1))).foldl (· + ·) 0
  if sum = 0 then none
  else
    let bits := topBit sum + 1
    let left := 2 ^ bits - sum
    if 11 < bits ∨ 2 ^ topBit left ≠ left then none
    else
      let all := w ++ [topBit left + 1]
      let sy := (List.range all.length).zip all
      some ⟨bits, ((List.range bits).foldl (fun (a : Array (Nat × Nat)) k =>
        (sy.filter (fun x => x.2 == k + 1)).foldl (fun (a : Array (Nat × Nat)) x =>
          a ++ Array.replicate (2 ^ k) (x.1, bits - k)) a) #[])⟩

/-- A Huffman tree description: the table and the bytes it takes. -/
def hufRead (b : Bytes) : Option (HufTab × Nat) :=
  if b.isEmpty then none
  else
    let h := byteAt b 0
    if 128 ≤ h then
      let n := h - 127
      let k := (n + 1) / 2
      if b.length < 1 + k then none
      else
        let w := (List.range n).map (fun i =>
          let x := byteAt b (1 + i / 2)
          if i % 2 = 0 then x / 16 else x % 16)
        (hufTable w).map (fun t => (t, 1 + k))
    else if b.length < 1 + h then none
    else
      let d := (b.drop 1).take h
      match fseRead 6 256 d with
      | none => none
      | some (t, n) =>
        match backBits (d.drop n) with
        | none => none
        | some (v, p) =>
          if p < 2 * t.al then none
          else
            let a := backPeek v p t.al
            let c := backPeek v (p - t.al) t.al
            match hufWeights t v 256 (p - 2 * t.al) a c [] with
            | none => none
            | some l => if 255 < l.length then none else (hufTable l.reverse).map (fun t => (t, 1 + h))

/-- n symbols of a stream read from its end; none unless they use it up. -/
def hufSyms (t : HufTab) (v : Nat) : Nat → Nat → List Byte → Option (List Byte)
  | 0, p, l => if p = 0 then some l else none
  | n + 1, p, l =>
    let x := t.cells.getD (backPeek v p t.bits) (0, 0)
    if x.2 = 0 ∨ p < x.2 then none else hufSyms t v n (p - x.2) (BitVec.ofNat 8 x.1 :: l)

def hufStream (t : HufTab) (b : Bytes) (n : Nat) : Option Bytes :=
  match backBits b with
  | none => none
  | some (v, p) => (hufSyms t v n p []).map List.reverse

/-! ### Literals -/

/-- What the blocks of a frame hand on: tables and repeated offsets. -/
structure ZSt where
  huf : Option HufTab := none
  ll : Option FseTab := none
  off : Option FseTab := none
  ml : Option FseTab := none
  reps : Nat × Nat × Nat := (1, 4, 8)
  deriving DecidableEq, Repr

/-- Huffman-coded literals: one stream, or four behind their jump table. -/
def hufLiterals (t : HufTab) (four : Bool) (n : Nat) (b : Bytes) : Option Bytes :=
  if !four then hufStream t b n
  else
    let z1 := getN b 0 2
    let z2 := getN b 2 2
    let z3 := getN b 4 2
    let m := (n + 3) / 4
    let d := b.drop 6
    if b.length < 6 + z1 + z2 + z3 ∨ n < 3 * m then none
    else
      match hufStream t (d.take z1) m, hufStream t ((d.drop z1).take z2) m, hufStream t ((d.drop (z1 + z2)).take z3) m,
        hufStream t (d.drop (z1 + z2 + z3)) (n - 3 * m) with
      | some w, some x, some y, some z => some (w ++ x ++ y ++ z)
      | _, _, _, _ => none

/-- The literals section: the literals, the Huffman table afterwards, and the bytes it takes. -/
def zLiterals (st : ZSt) (b : Bytes) : Option (Bytes × ZSt × Nat) :=
  let h := getN b 0 5
  let ty := field h 0 2
  let sf := field h 2 2
  if ty ≤ 1 then
    let x : Nat × Nat := if sf % 2 = 0 then (1, field h 3 5) else if sf = 1 then (2, field h 4 12) else (3, field h 4 20)
    let take := if ty = 0 then x.2 else 1
    if b.length < x.1 + take ∨ 131072 < x.2 then none
    else
      let d := (b.drop x.1).take take
      some (if ty = 0 then d else List.replicate x.2 (d.getD 0 0), st, x.1 + take)
  else
    let x : Nat × Nat × Nat := if sf ≤ 1 then (3, field h 4 10, field h 14 10) else if sf = 2 then (4, field h 4 14, field h 18 14)
      else (5, field h 4 18, field h 22 18)
    let d := (b.drop x.1).take x.2.2
    if b.length < x.1 + x.2.2 ∨ 131072 < x.2.1 then none
    else
      let t : Option (HufTab × Nat) := if ty = 2 then hufRead d else st.huf.map (fun t => (t, 0))
      match t with
      | none => none
      | some (t, n) =>
        match hufLiterals t (sf != 0) x.2.1 (d.drop n) with
        | none => none
        | some l => some (l, { st with huf := some t }, x.1 + x.2.2)

/-! ### Sequences -/

def zLlDefault : List Int :=
  [4, 3, 2, 2, 2, 2, 2, 2, 2, 2, 2, 2, 2, 1, 1, 1, 2, 2, 2, 2, 2, 2, 2, 2, 2, 3, 2, 1, 1, 1, 1, 1, -1, -1, -1, -1]

def zMlDefault : List Int := [1, 4, 3, 2, 2, 2, 2, 2, 2] ++ List.replicate 37 1 ++ List.replicate 7 (-1)

def zOffDefault : List Int := List.replicate 6 1 ++ [2, 2, 2] ++ List.replicate 15 1 ++ List.replicate 5 (-1)

/-- Base and extra bits of the literal-length codes from 16 on and of the match-length codes from 32 on. -/
def zLlCode (c : Nat) : Nat × Nat :=
  if c < 16 then (c, 0)
  else ([(16, 1), (18, 1), (20, 1), (22, 1), (24, 2), (28, 2), (32, 3), (40, 3), (48, 4), (64, 6), (128, 7), (256, 8), (512, 9),
    (1024, 10), (2048, 11), (4096, 12), (8192, 13), (16384, 14), (32768, 15), (65536, 16)] : List (Nat × Nat)).getD (c - 16) (0, 0)

def zMlCode (c : Nat) : Nat × Nat :=
  if c < 32 then (c + 3, 0)
  else ([(35, 1), (37, 1), (39, 1), (41, 1), (43, 2), (47, 2), (51, 3), (59, 3), (67, 4), (83, 4), (99, 5), (131, 7), (259, 8), (515, 9),
    (1027, 10), (2051, 11), (4099, 12), (8195, 13), (16387, 14), (32771, 15), (65539, 16)] : List (Nat × Nat)).getD (c - 32) (0, 0)

/-- One of the three tables by its mode: predefined, RLE, described, or the one before. -/
def zTable (mode maxAl syms al : Nat) (dflt : List Int) (old : Option FseTab) (b : Bytes) : Option (FseTab × Nat) :=
  match mode with
  | 0 => some (fseTable al dflt, 0)
  | 1 => if b.isEmpty ∨ syms ≤ byteAt b 0 then none else some (⟨0, #[(byteAt b 0, 0, 0)]⟩, 1)
  | 2 => fseRead maxAl syms b
  | _ => old.map (fun t => (t, 0))

/-- The match offset of an offset value, and the repeated offsets after it. -/
def zOffset (r : Nat × Nat × Nat) (v lit : Nat) : Nat × (Nat × Nat × Nat) :=
  if 3 < v then (v - 3, (v - 3, r.1, r.2.1))
  else
    let k := if lit = 0 then v + 1 else v
    if k = 1 then (r.1, r)
    else if k = 2 then (r.2.1, (r.2.1, r.1, r.2.2))
    else
      let o := if k = 3 then r.2.2 else r.1 - 1
      (o, (o, r.1, r.2.1))

/-- Append n bytes from `off` back. -/
def zCopy (off : Nat) : Nat → Array Byte → Array Byte
  | 0, a => a
  | n + 1, a => zCopy off n (a.push (a.getD (a.size - off) 0))

/-- Carry out n sequences: content, literals left, repeated offsets. -/
def zSequences (ll off ml : FseTab) (v : Nat) :
    Nat → Nat → Nat × Nat × Nat → Array Byte → Bytes → Nat × Nat × Nat → Option (Array Byte × Bytes × (Nat × Nat × Nat))
  | 0, p, _, a, lits, r => if p = 0 then some (a, lits, r) else none
  | n + 1, p, s, a, lits, r =>
    let cl := ll.cell s.1
    let co := off.cell s.2.1
    let cm := ml.cell s.2.2
    let xl := zLlCode cl.1
    let xm := zMlCode cm.1
    let last := decide (n = 0)
    let bl := if last then 0 else cl.2.1
    let bm := if last then 0 else cm.2.1
    let bo := if last then 0 else co.2.1
    if 31 < co.1 ∨ p < co.1 + xm.2 + xl.2 + bl + bm + bo then none
    else
      let p1 := p - co.1
      let p2 := p1 - xm.2
      let p3 := p2 - xl.2
      let p4 := p3 - bl
      let p5 := p4 - bm
      let lit := xl.1 + backPeek v p2 xl.2
      let len := xm.1 + backPeek v p1 xm.2
      let o := zOffset r (2 ^ co.1 + backPeek v p co.1) lit
      let a := a ++ (lits.take lit).toArray
      if lits.length < lit ∨ o.1 = 0 ∨ a.size < o.1 ∨ 131072 < len then none
      else zSequences ll off ml v n (p5 - bo)
        (cl.2.2 + backPeek v p3 bl, co.2.2 + backPeek v p5 bo, cm.2.2 + backPeek v p4 bm) (zCopy o.1 len a) (lits.drop lit) o.2

/-- One compressed block after the content `a` of its frame: the content afterwards and what it hands on; none where it is
malformed. -/
def zBlock (st : ZSt) (a : Array Byte) (b : Bytes) : Option (Array Byte × ZSt) :=
  match zLiterals st b with
  | none => none
  | some (lits, st, n) =>
    let q := b.drop n
    if q.isEmpty then none
    else
      let b0 := byteAt q 0
      let x : Nat × Nat := if b0 < 128 then (b0, 1) else if b0 < 255 then ((b0 - 128) * 256 + byteAt q 1, 2) else (getN q 1 2 + 0x7F00, 3)
      if x.1 = 0 then (if q.length = x.2 then some (a ++ lits.toArray, st) else none)
      else if q.length < x.2 + 1 ∨ byteAt q x.2 % 4 ≠ 0 then none
      else
        let m := byteAt q x.2
        let d := q.drop (x.2 + 1)
        match zTable (field m 6 2) 9 36 6 zLlDefault st.ll d with
        | none => none
        | some (ll, n1) =>
          match zTable (field m 4 2) 8 32 5 zOffDefault st.off (d.drop n1) with
          | none => none
          | some (off, n2) =>
            match zTable (field m 2 2) 9 53 6 zMlDefault st.ml (d.drop (n1 + n2)) with
            | none => none
            | some (ml, n3) =>
              match backBits (d.drop (n1 + n2 + n3)) with
              | none => none
              | some (v, p) =>
                let al := ll.al + off.al + ml.al
                if p < al then none
                else
                  let s := (backPeek v p ll.al, backPeek v (p - ll.al) off.al, backPeek v (p - ll.al - off.al) ml.al)
                  match zSequences ll off ml v x.1 (p - al) s a lits st.reps with
                  | none => none
                  | some (a, rest, r) =>
                    some (a ++ rest.toArray, { st with ll := some ll, off := some off, ml := some ml, reps := r })

end Sys2Proof.Machine
end

