-- ==== Sys2Proof/Machine/Stratus.lean ====
section
/-! DEFINITION. Stratus (chapter 19): compression and decompression jobs of rings Q48 to Q51, their completion records and
STR_ABORT. -/

namespace Sys2Proof.Machine

/-! ### Engines and streams -/

def State.engine (s : State) (r : Nat) : Option StrJob := Tab.get none s.str.eng r

def State.setEngine (s : State) (r : Nat) (j : Option StrJob) : State :=
  { s with str := { s.str with eng := Tab.set none s.str.eng r j } }

def State.strStream (s : State) (i : Nat) : Option StrStream := Tab.get none s.str.streams i

def State.setStrStream (s : State) (i : Nat) (x : Option StrStream) : State :=
  let s := { s with str := { s.str with streams := Tab.set none s.str.streams i x } }
  s.setBit Obj.STR_STREAMS_OPEN i x.isSome

/-- An engine runs a job (R402). -/
def State.strBusy (s : State) : Bool := (List.range 4).any (fun r => (s.engine r).isSome)

/-- A job on a device buffer runs, or a stream is open (R374). -/
def State.generalLive (s : State) : Bool :=
  (List.range 4).any (fun r => (s.engine r).any (fun j => j.dev)) || s.obj Obj.STR_STREAMS_OPEN != 0

/-- The streams open when PD10 goes off are lost (R402), and what its engines hold with them. -/
def State.strPowerOff (s : State) : State :=
  ({ s with str := { s.str with eng := [], streams := [], aborts := [] } }).setObj Obj.STR_STREAMS_OPEN 0

/-! ### Descriptors (Table 19.2, R393) -/

def State.inGeneral (s : State) (a n : Nat) : Bool :=
  let g := s.region regGeneral
  s.laidOut && decide (g.1 ≤ a) && decide (a + n ≤ g.1 + g.2)

/-- Fields of a job descriptor. -/
structure StrDesc where
  ty : Nat
  flags : Nat
  level : Nat
  log2 : Nat
  tag : Nat
  src : Nat
  srcLen : Nat
  dstMax : Nat
  dst : Nat
  stream : Nat
  window : Nat
  rsvd : Bool
  deriving DecidableEq, Repr

def strDesc (d : Bytes) : StrDesc :=
  { ty := byteAt d 0, flags := byteAt d 1, level := byteAt d 2, log2 := byteAt d 3, tag := getN d 4 4, src := getN d 8 8,
    srcLen := getN d 16 4, dstMax := getN d 20 4, dst := getN d 24 8, stream := byteAt d 32, window := byteAt d 33,
    rsvd := allZero (slice d 34 26) }

def StrDesc.srcDev (d : StrDesc) : Bool := bitAt d.flags 1
def StrDesc.dstDev (d : StrDesc) : Bool := bitAt d.flags 2
def StrDesc.check (d : StrDesc) : Bool := bitAt d.flags 0
def StrDesc.first (d : StrDesc) : Bool := bitAt d.flags 3
def StrDesc.flush (d : StrDesc) : Bool := bitAt d.flags 4
def StrDesc.fin (d : StrDesc) : Bool := bitAt d.flags 5

/-- The descriptor keeps Table 19.2 and R393. -/
def State.strOk (s : State) (d : StrDesc) : Bool :=
  d.rsvd && d.flags < 64 && decide (0 < d.tag) &&
  (if d.ty = 0x52 then d.level == 0 else decide (1 ≤ d.level) && decide (d.level ≤ 9)) &&
  (if d.ty = 0x50 then decide (12 ≤ d.log2) && decide (d.log2 ≤ 20) else d.log2 == 0) &&
  decide (1 ≤ d.srcLen) && decide (d.srcLen ≤ 2 ^ 30) && decide (1 ≤ d.dstMax) && decide (d.dstMax ≤ 2 ^ 30) &&
  (if d.ty = 0x51 then decide (d.stream < 16) && decide (10 ≤ d.window) && decide (d.window ≤ 20)
    else d.stream == 0 && d.window == 0) &&
  (!d.srcDev || s.inGeneral d.src d.srcLen) && (!d.dstDev || s.inGeneral d.dst d.dstMax)

/-- A job's record before it has done anything. -/
def StrDesc.job (d : StrDesc) : StrJob :=
  { tag := d.tag, dst := d.dst, dstDev := d.dstDev, dev := d.srcDev || d.dstDev,
    stream := if d.ty = 0x51 then some d.stream else none }

def StrDesc.rejected (d : StrDesc) (reason : Nat) : StrJob := { d.job with status := 3, reason := reason, stream := none }

/-- The source bytes: device memory, or what the host's read answers. -/
def State.strSource (s : State) (d : StrDesc) (source : Option Bytes) : Option Bytes :=
  source.map (fun b => if d.srcDev then s.dramGet d.src d.srcLen else slice b 0 d.srcLen)

/-- REASON where the source cannot be read: POISON from device memory, DMA_ERROR from the host. -/
def StrDesc.noSource (d : StrDesc) : Nat := if d.srcDev then 0x25 else 0x14

/-- A job that fails with a reason: it ends its stream. What it consumed and wrote until then is open; DECOMPRESS reports
OUT_LEN 0 (R396, R399). `reach` is how far its output could have come. -/
def State.strFail (s : State) (d : StrDesc) (reason reach : Nat) : StrJob × State :=
  let a := s.drawNat
  let b := a.2.drawNat
  let n := b.1 % (min reach d.dstMax + 1)
  let o := b.2.draw n
  let s := if d.ty = 0x51 then o.2.setStrStream d.stream none else o.2
  ({ d.job with status := 7, reason := reason, inLen := a.1 % (d.srcLen + 1), outLen := if d.ty = 0x52 then 0 else n, out := o.1 }, s)

/-! ### Compression (R394, R395, R397) -/

def State.runBlocks (s : State) (d : StrDesc) (source : Option Bytes) : StrJob × State :=
  match s.strSource d source with
  | none => s.strFail d d.noSource d.dstMax
  | some src =>
    let c := compressed d.level d.log2 d.check src
    let n := c.1.length
    let blocks := cutBlocks (2 ^ d.log2) (src.length + 1) src
    let j := { d.job with
      inLen := d.srcLen, blocks := c.2.1, stored := c.2.2, checked := d.check && decide (c.2.2 < c.2.1),
      check := if d.check then ((blocks.filter (fun b => !(lengthBlock d.level true b).2)).getLast?.map contentCheck).getD 0 else 0 }
    if d.srcLen ≤ n then ({ j with status := 6 }, s)
    else if d.dstMax < n then s.strFail d 0x20 d.dstMax
    else ({ j with outLen := n, out := c.1 }, s)

def State.runStream (s : State) (r : Nat) (d : StrDesc) (source : Option Bytes) : StrJob × State :=
  let open' := s.strStream d.stream
  if d.first && open'.isSome then (d.rejected 0x0A, s)
  else if !d.first && !open'.any (fun x => x.ring == r) then (d.rejected 0x01, s)
  else
    let st := if d.first then StrStream.mk r d.window d.check [] 0 else open'.getD ⟨r, d.window, d.check, [], 0⟩
    match s.strSource d source with
    | none => s.strFail d d.noSource d.dstMax
    | some src =>
      let body := Config.zstdAppend d.level st.window st.held src d.flush d.fin
      let all := st.held ++ src
      let out := (if d.first then streamHeader st.window st.check else []) ++ body ++
        (if d.fin && st.check then le 4 (contentCheck all) else [])
      if d.dstMax < out.length then s.strFail d 0x20 d.dstMax
      else
        let total := st.written + out.length
        let status := if d.fin && decide (all.length ≤ total) then 6 else 0
        let j := { d.job with
          status := status, inLen := d.srcLen, outLen := out.length, out := out, blocks := 1,
          checked := d.fin && st.check, check := if d.fin && st.check then contentCheck all else 0 }
        (j, s.setStrStream d.stream (if d.fin then none else some { st with held := all, written := total }))

/-! ### Decompression (R389, R396) -/

/-- What a decoder has done: content so far, frames, and the checksum verified last. -/
structure Unz where
  out : Bytes := []
  frames : Nat := 0
  checked : Bool := false
  check : Nat := 0
  deriving DecidableEq, Repr

/-- A frame header: bytes it takes, the window, the content size and whether a checksum follows; or the REASON. -/
def frameHead (b : Bytes) : Nat ⊕ (Nat × Nat × Option Nat × Bool) :=
  let d := byteAt b 4
  let ss := bitAt d 5
  let fl := field d 6 2
  let didLen := match field d 0 2 with | 0 => 0 | 1 => 1 | 2 => 2 | _ => 4
  let fcsLen := match fl with | 0 => b2n ss | 1 => 2 | 2 => 4 | _ => 8
  let wl := if ss then 0 else 1
  let n := 5 + wl + didLen + fcsLen
  let w := byteAt b 5
  let base := 2 ^ (10 + field w 3 5)
  let window := base + base / 8 * field w 0 3
  let did := getN b (5 + wl) didLen
  let fcs := getN b (5 + wl + didLen) fcsLen + (if fcsLen = 2 then 256 else 0)
  if bitAt d 3 then .inl 0x21
  else if b.length < n then .inl 0x21
  else if !ss ∧ 2 ^ 23 < window then .inl 0x22
  else if did ≠ 0 then .inl 0x23
  else if ss ∧ 2 ^ 23 < fcs then .inl 0x22
  else .inr (n, if ss then fcs else window, if fcsLen = 0 then none else some fcs, bitAt d 2)

/-- Blocks of a frame: content and what follows it, or the REASON. `limit` is the largest block. -/
def frameBlocks (limit room : Nat) : Nat → ZSt → Array Byte → Bytes → Nat ⊕ (Bytes × Bytes)
  | 0, _, _, _ => .inl 0x21
  | f + 1, st, a, b =>
    if b.length < 3 then .inl 0x21
    else
      let h := getN b 0 3
      let last := bitAt h 0
      let ty := field h 1 2
      let n := h / 8
      let rest := b.drop 3
      let take := if ty = 1 then 1 else n
      if ty = 3 ∨ limit < n ∨ rest.length < take then .inl 0x21
      else
        let blk := rest.take take
        let next : Option (Array Byte × ZSt) :=
          if ty = 0 then some (a ++ blk.toArray, st)
          else if ty = 1 then some (a ++ Array.replicate n (blk.getD 0 0), st)
          else zBlock st a blk
        match next with
        | none => .inl 0x21
        | some (c, st) =>
          if limit < c.size - a.size then .inl 0x21
          else if room < c.size then .inl 0x20
          else if last then .inr (c.toList, rest.drop take)
          else frameBlocks limit room f st c (rest.drop take)

/-- Decode every frame of the source in turn: what was done, and the REASON where it fails. -/
def unzFrames (dstMax : Nat) : Nat → Unz → Bytes → Unz × Option Nat
  | 0, u, b => (u, if b.isEmpty then none else some 0x21)
  | f + 1, u, b =>
    if b.isEmpty then (u, none)
    else if b.length < 5 then (u, some 0x21)
    else
      let magic := getN b 0 4
      if magic / 16 = 0x184D2A5 then
        if b.length < 8 + getN b 4 4 then (u, some 0x21) else unzFrames dstMax f u (b.drop (8 + getN b 4 4))
      else if b.take 4 ≠ zstdMagic then (u, some 0x21)
      else
        match frameHead b with
        | .inl why => (u, some why)
        | .inr (n, window, fcs, sum) =>
          match frameBlocks (min window 131072) (dstMax - u.out.length) (b.length + 1) {} #[] (b.drop n) with
          | .inl why => (u, some why)
          | .inr (c, rest) =>
            if fcs.any (fun v => v != c.length) then (u, some 0x21)
            else if sum && decide (rest.length < 4) then (u, some 0x21)
            else if sum && getN rest 0 4 != contentCheck c then (u, some 0x24)
            else unzFrames dstMax f
              { out := u.out ++ c, frames := u.frames + 1, checked := u.checked || sum,
                check := if sum then contentCheck c else u.check }
              (if sum then rest.drop 4 else rest)

def State.runUnz (s : State) (d : StrDesc) (source : Option Bytes) : StrJob × State :=
  match s.strSource d source with
  | none => s.strFail d d.noSource d.dstMax
  | some src =>
    let x := unzFrames d.dstMax (src.length + 1) {} src
    match x.2 with
    | some why => s.strFail d why d.dstMax
    | none =>
      ({ d.job with
          inLen := d.srcLen, outLen := x.1.out.length, out := x.1.out, blocks := x.1.frames, checked := x.1.checked,
          check := x.1.check }, s)

/-! ### Jobs (R392, R399, R401) -/

/-- The engine of ring Q48 + r takes a descriptor of a type at the head of its ring and runs it. -/
def State.strRun (s : State) (r ty : Nat) (source : Option Bytes) : State :=
  match s.headOfType (48 + r) ty with
  | none => s
  | some b =>
    let d := strDesc b
    if !s.ready 10 ∨ (s.engine r).isSome ∨ ((d.srcDev || d.dstDev) && !s.dramReady) = true then s
    else
      let s := s.consume (48 + r)
      if s.str.aborts.contains d.tag then
        let s := { s with str := { s.str with aborts := s.str.aborts.filter (· ≠ d.tag) } }
        let s := if ty = 0x51 && (s.strStream d.stream).any (fun x => x.ring == r) then s.setStrStream d.stream none else s
        s.setEngine r (some { d.job with status := 1, stream := none })
      else if !s.strOk d then s.setEngine r (some (d.rejected 0x04))
      else
        let x := if ty = 0x50 then s.runBlocks d source else if ty = 0x51 then s.runStream r d source else s.runUnz d source
        x.2.setEngine r (some x.1)

/-- STATUS of a posted job counts (Table 19.6). -/
def State.strCount (s : State) (j : StrJob) : State :=
  let s := s.count Obj.STR_JOBS_CNT 1
  let s := if j.status = 6 then s.count Obj.STR_NOT_SMALLER_CNT 1 else s
  let s := if j.status = 3 ∨ j.status = 7 then s.count Obj.STR_ERROR_CNT 1 else s
  (s.count Obj.STR_IN_BYTES j.inLen).count Obj.STR_OUT_BYTES j.outLen

/-- STRATUS_JOB_COMPLETE: the output is in place and the record is posted. -/
def State.strComplete (s : State) (r : Nat) : State :=
  match s.engine r with
  | none => s
  | some j =>
    if !s.ready 10 then s
    else
      let s := if j.out.isEmpty then s else if j.dstDev then s.dramPut j.dst j.out else s.emit (.dma j.dst j.out)
      let rec0 := layout 28 [(0, 1, 0x30), (1, 1, 2 * b2n j.checked + 4 * b2n (0 < j.stored)), (2, 1, j.status),
        (3, 1, j.reason), (4, 4, j.tag), (8, 4, s.stamp), (12, 4, j.inLen), (16, 4, j.outLen),
        (20, 2, min j.blocks 0xFFFF), (22, 2, min j.stored 0xFFFF), (24, 4, j.check)]
      let s := (s.setEngine r none).strCount j
      let s := { s with str := { s.str with posted := if s.str.posted.contains j.tag then s.str.posted else j.tag :: s.str.posted } }
      s.push (52 + r) rec0

/-- A running job is aborted: IN_LEN and OUT_LEN at the stop and its output are open, and its stream ends. -/
def State.strStop (s : State) (r : Nat) (j : StrJob) : State :=
  let a := s.drawNat
  let b := a.2.drawNat
  let n := b.1 % (j.outLen + 1)
  let o := b.2.draw n
  let s := match j.stream with
    | some i => o.2.setStrStream i none
    | none => o.2
  s.setEngine r (some { j with
    status := 1, reason := 0, checked := false, inLen := a.1 % (j.inLen + 1), outLen := n, blocks := 0, stored := 0, check := 0,
    out := o.1, stream := none })

/-- A write of STR_ABORT. -/
def State.strAbortSet (s : State) (tag : Nat) : State × Nat :=
  match (List.range 4).find? (fun r => (s.engine r).any (fun j => j.tag == tag)) with
  | some r =>
    match s.engine r with
    | some j => if j.status = 6 ∨ j.status = 3 then (s, 0x0B) else (s.strStop r j, 0)
    | none => (s, 0x01)
  | none =>
    let queued := (List.range 4).any (fun r => (s.ring (48 + r)).head.any (fun d => getN d 4 4 == tag))
    if queued then ({ s with str := { s.str with aborts := tag :: s.str.aborts.filter (· ≠ tag) } }, 0)
    else if s.str.posted.contains tag then (s, 0x0B)
    else (s, 0x01)

def execCompressBlocks (q : Fin 4) (source : Option Bytes) (s : State) : Outcome := .next (s.strRun q.val 0x50 source)
def execCompressStream (q : Fin 4) (source : Option Bytes) (s : State) : Outcome := .next (s.strRun q.val 0x51 source)
def execDecompress (q : Fin 4) (source : Option Bytes) (s : State) : Outcome := .next (s.strRun q.val 0x52 source)
def execStratusJobComplete (q : Fin 4) (s : State) : Outcome := .next (s.strComplete q.val)

end Sys2Proof.Machine
end

