-- ==== Sys2Proof/Machine/Halo.lean ====
section
/-! DEFINITION. Halo (chapter 20): latching, the safety chain, readback, web loss, ADC windows, ALERT_N, first-error capture
and fault injection. The reactions common to every fault stand in Machine/Faults.lean. -/

namespace Sys2Proof.Machine

/-- The chain is low while the device does not drive it: CHAIN_LOW (R415). -/
def State.chainCheck (s : State) : State :=
  if !s.halo.chainExt && !s.safeLow then
    match s.fault? 0x140D 0 with
    | some f => if f.cond then s else s.latch 0x140D safety 0 [] true false none
    | none => s.latch 0x140D safety 0 [] true false none
  else s

/-- FAULT_LATCH: a condition of a code of Table 20.1, or of another chapter's fault, has arisen. -/
def State.faultLatch (s : State) (code inst detail : Nat) : State :=
  match faultClass code with
  | some c => s.latch code c inst (le 12 detail) false false none
  | none => s

/-- FLT_CLEAR: SAFE_N may rise with it, and then the chain shows what else holds it low. -/
def State.fltClearSet (s : State) (v sess : Nat) (super : Bool) : State × Nat :=
  let x := s.fltClear v sess super
  (x.1.chainCheck, x.2)

/-- FLT_FEC_CLEAR. -/
def State.fecClearSet (s : State) (v : Nat) : State :=
  let keep := fun (cls : Nat) => !bitAt v (2 - cls)
  { s with halo := { s.halo with fec := s.halo.fec.filter (fun (e : Nat × Bytes) => keep e.1) } }

/-- The high time after a pulse ends, and a pulse that is owed follows. -/
def State.alertRise (s : State) (t : Nat) : State :=
  if s.now < t + 1000 then { s with halo := { s.halo with alert := .high t } }
  else if s.halo.alertPending then s.alertStart
  else { s with halo := { s.halo with alert := .rest } }

/-- ALERT_PULSE_END: after HALO_ALERT_US ALERT_N rises, and a pulse that is owed follows 1 us of high time (R406). -/
def State.alertEnd (s : State) : State :=
  match s.halo.alert with
  | .rest => s
  | .low t =>
    let e := t + s.objN Obj.HALO_ALERT_US * 1000
    if s.now < e then s else s.alertRise e
  | .high t => s.alertRise t

/-- Entries of FLT_TABLE that were injected, as DIAG_INJECTED counts them. -/
def State.injected (s : State) : Nat := (s.halo.faults.filter (fun f => f.entered && f.injected)).length

/-- A write of DIAG_INJECT (R417). -/
def State.injectSet (s : State) (v : Nat) : State × Nat :=
  let code := field v 0 16
  let inst := field v 16 8
  let point := field v 24 8
  if 1 < point then (s, 0x04)
  else if s.obj Obj.SEC_LIFECYCLE ≠ 0 then (s, 0x09)
  else if point = 1 ∧ ¬ (0x1401 ≤ code ∧ code ≤ 0x140C) then (s, 0x04)
  else
    match faultClass code with
    | none => (s, 0x04)
    | some c => if (s.fault? code inst).isSome then (s, 0x0A) else (s.latch code c inst [] true true none, 0)

/-- CHAIN_LOW. -/
def State.chainFalls (s : State) : State := ({ s with halo := { s.halo with chainExt := false } }).chainCheck

/-- CHAIN_HIGH. -/
def State.chainRises (s : State) : State := ({ s with halo := { s.halo with chainExt := true } }).condEnd 0x140D 0

/-- The level the device drives on a safe output: 0 to 7 HV_EN, 8 to 15 STO_N, 16 to 31 VALVE, 32 SAFE_N. -/
def State.safeDriven (s : State) (o : Nat) : Bool :=
  if o < 8 then !s.hvHeld o else if o < 16 then !s.stoHeld (o - 8) else if o < 32 then s.valveLevel (o - 16) else !s.safeLow

/-- SAFE_READBACK_MISMATCH. -/
def State.readback (s : State) (o : Nat) : State :=
  if 32 < o then s
  else
    let d := s.safeDriven o
    s.latch 0x140C safety o [BitVec.ofNat 8 (b2n d), BitVec.ofNat 8 (b2n (!d))] false false none

/-- WEB_LOSS (SF4, R412). -/
def State.webLoss (s : State) (w : Nat) : State :=
  let from' := max (s.chan (.web w)).lastNs s.halo.webActiveSince
  if s.web.driver ≠ w ∨ !s.barActive ∨ s.now < from' + s.objN Obj.HALO_WEB_LOSS_MS * 1000000 then s
  else if (s.fault? 0x1406 w).any (fun f => f.cond) then s
  else s.latch 0x1406 safety w (leInt 8 s.web.pos) true false none

/-- The window of a supply in mV (Table 25.2); VDD_CORE's follows its target. -/
def State.supplyWindow (s : State) (n : Nat) : Int × Int :=
  let v := s.obj Obj.PWR_VCORE
  [(776, 824), (v - 25, v + 25), (825, 875), (1746, 1854), (825, 875), (1164, 1236), (1746, 1854), (1067, 1133), (1710, 1890),
    (3135, 3465)].getD n (0, 0)

/-- SUPPLY_OUT_OF_WINDOW (R485): a supply measures `mv` mV. -/
def State.supplyOut (s : State) (n : Nat) (mv : Int) : State :=
  let w := s.supplyWindow n
  if w.1 ≤ mv ∧ mv ≤ w.2 then s else s.latch 0x1409 safety n (leInt 4 mv) false false none

/-- PAIR_SILENT: the watchdog of a management pair. -/
def State.pairSilentF (s : State) (pair : Nat) : State := s.latch 0x140B safety pair [] false false none

/-- PRES_WIN_EXCEEDED: a channel has been outside its window for the filter time (SF3). -/
def State.presWinF (s : State) (ch v : Nat) : State :=
  let w := s.presWin ch
  let t := Tab.get 0 s.io.outSince ch
  if !w.2.2.2 ∨ !s.objBit Obj.ADC_ENABLE ch ∨ t = 0 ∨ s.inPresWin ch v ∨ s.now + 1 < t + w.2.2.1 * 100000 then s
  else if (s.fault? 0x1404 ch).any (fun f => f.cond) then s
  else s.latch 0x1404 safety ch (le 2 v ++ le 2 (if v < w.1 then w.1 else w.2.1)) true false none

/-- First-error capture of a class: 32 bytes. -/
def State.fecBytes (s : State) (cls : Nat) : Bytes := slice (Tab.get [] s.halo.fec cls) 0 32

def execAlertPulseEnd (s : State) : Outcome := .next s.alertEnd
def execChainHigh (s : State) : Outcome := .next s.chainRises
def execWebLoss (w : WebNo) (s : State) : Outcome := .next (s.webLoss w.val)
def execPresWinExceeded (ch : Fin 16) (v : BitVec 16) (s : State) : Outcome := .next (s.presWinF ch.val v.toNat)

end Sys2Proof.Machine
end

