-- ==== Sys2Proof/Machine/Twin.lean ====
section
/-! DEFINITION. Twin operation (chapter 21): the link, elections, takeover, the snapshot a joining card receives and the writes
of the twin objects. What a received frame does follows in Machine/TwinRx.lean. -/

namespace Sys2Proof.Machine

def State.setTwin (s : State) (f : Twin → Twin) : State := { s with twin := f s.twin }

/-! ### The link (R423, R424) -/

/-- The twin link has trained over its 12 lanes. Each card then names its state and its DEVICE_ID. -/
def State.twinTrained (s : State) : State :=
  if s.obj Obj.TWIN_ENABLE = 0 ∨ !s.ready 3 then s
  else
    let up := s.twin.up
    let s := s.setTwin (fun t => { t with up := true, half := false, slow := false, badLanes := [] })
    let s := (s.setObj Obj.TWIN_LANES 12).setBit Obj.TWIN_STATUS 2 false
    if up then s
    else
      let s := s.setTwin (fun t => { t with
        txSeq := 0, rxSeq := 0, unacked := [], lastRx := s.now, lastTx := s.now, partner := twSolo, summaries := [] })
      s.twinSend (.state s.twinState Config.deviceId.toNat)

/-- The twin link is down. -/
def State.twinDown (s : State) : State :=
  let s := s.setTwin (fun t => { t with up := false, unacked := [], partner := twFaulted })
  s.setObj Obj.TWIN_LANES 0

/-- The link has been silent for 2·P_lease (R202, R431). -/
def State.twinSilent (s : State) : Bool := !s.twin.up || decide (s.twin.lastRx + 2 * s.pLease ≤ s.now)

/-- TWIN_HEARTBEAT_SEND. Heartbeats carry the epoch, and no sequence number of their own. -/
def State.twinBeat (s : State) : State :=
  if !s.twin.up ∨ s.now < s.twin.lastTx + 1000 then s
  else (s.setTwin (fun t => { t with lastTx := s.now })).emit (.twin s.twin.txSeq (.heartbeat (s.objN Obj.TWIN_EPOCH)))

/-- TWIN_RETRANSMIT. -/
def State.twinAgain (s : State) : State :=
  if !s.twin.up then s
  else
    let late := fun (e : Nat × TwinItem × Nat) => decide (e.2.2 + 2000 ≤ s.now)
    let again := s.twin.unacked.filter late
    let s := s.setTwin (fun t => { t with
      unacked := t.unacked.map (fun (e : Nat × TwinItem × Nat) => if late e then (e.1, e.2.1, s.now) else e) })
    (again.foldl (fun s e => s.emit (.twin e.1 e.2.1)) s).count Obj.TWIN_RETX_CNT again.length

/-- TWIN_LANE_FAIL. -/
def State.twinLaneFail (s : State) (l : Nat) : State := (s.twinLaneDown l).calInterrupt 1 (160 + l)

/-! ### The snapshot (R436) -/

/-- Objects both cards of a twin hold alike: every object but those of a card itself (identity, sessions, Ethernet, journal,
security, power, clocks, DRAM, lanes, faults, twin, diagnostics). -/
def twinShared (k : Nat) : Bool :=
  let i := k / 256
  !(i < 0x2000 || (0x2200 ≤ i && i < 0x2400) || (0x6800 ≤ i && i < 0x7000) || (0x7800 ≤ i && i < 0x8000) || 0xF000 ≤ i) &&
    (match Obj.find k with | some (r, _) => decide (r.acc ≠ .ro) | none => false)

def JobState.code : JobState → Nat
  | .landing => 0
  | .accepted => 1
  | .fired => 2
  | .aborted => 3

def BaseState.code : BaseState → Nat
  | .landing => 0
  | .registered => 1
  | .retiring => 2

def BarJob.code (x : BarJob) : Nat := b2n x.staged + 2 * b2n x.firing + 4 * b2n x.done

/-- Items of one job of the snapshot. -/
def snapJobItems (j : Job) : List TwinItem :=
  TwinItem.snapJob j.slot j.id j.psn j.cls j.lines j.gap j.mask j.baseId j.tag j.st.code j.marks j.mark j.onWeb j.chunks ::
    (List.range 8).map (fun b =>
      let x := j.bar b
      TwinItem.snapBar j.id b x.departed x.passed x.fired x.code (j.startOn b))

/-- Items of one stream of the snapshot: its landed chunks. -/
def snapStreamItems (x : Stream) : List TwinItem :=
  (x.chunks.filter (fun c => c.digest.isSome)).map (fun c => TwinItem.chunk x.bar x.isBase x.id c.idx c.last c.bytes)

/-- Everything a joining card receives: objects in force, pending commit sets, CAL_IMAGE, the base registry with its streams,
and the jobs in flight. Streams of jobs past LANDING are not needed, since the card decodes only jobs accepted later. -/
def State.snapshotItems (s : State) : List TwinItem :=
  let past := (s.hq.jobs.filter (fun j => j.st != .landing)).map (·.id)
  [TwinItem.snapRegs s.hq.psnNext ((List.range 8).map s.nextLseq)] ++
    (s.objs.filter (fun e => twinShared e.1)).map (fun e => TwinItem.snapObj e.1 e.2) ++
    (s.blobs.filter (fun e => twinShared (e.1 / 2 ^ 24))).map (fun e => TwinItem.snapByte e.1 e.2) ++
    s.toa.pending.map (fun c => TwinItem.commitSet c.number c.cls (c.items.map (fun x => (x.key, x.bytes)))) ++
    [TwinItem.snapCal s.calImage] ++
    s.hq.bases.map (fun x => TwinItem.snapBase x.id x.lines x.mask x.cls x.retCls x.tag x.st.code x.chunks) ++
    (s.hq.jobs.map snapJobItems).flatten ++
    ((s.hq.streams.filter (fun x => x.isBase || !past.contains x.id)).map snapStreamItems).flatten ++
    [TwinItem.snapshotEnd past]

/-- An ACTIVE card gives a JOINING partner the snapshot. -/
def State.giveSnapshot (s : State) : State :=
  if s.twinState = twActive ∧ s.twin.partner = twJoining then s.snapshotItems.foldl State.twinSend s else s

/-! ### Entering ACTIVE (R421, R422, R432) -/

/-- The highest epoch that any head reports, 0 where none has. -/
def State.headEpoch (s : State) : Nat :=
  (List.range 128).foldl (fun e h =>
    let d := s.headDev h
    if d.counts.isSome && epochHigher d.epoch e then d.epoch else e) 0

/-- Some head reports that it obeys a fresh port. -/
def State.headsObey (s : State) : Bool := (List.range 128).any (fun h => (s.headDev h).port != 0xFF)

/-- AUTH on every head lane. -/
def State.authAll (s : State) : State := (List.range 128).foldl State.sendAuth s

/-- A card takes fire authority by election under the epoch after the highest one reported. -/
def State.electActive (s : State) : State :=
  let s := s.setObj Obj.TWIN_EPOCH (((s.headEpoch + 1) % 2 ^ 32 : Nat) : Int)
  (s.setTwinState twActive 0).authAll.giveSnapshot

/-- TWIN_ELECTION. -/
def State.election (s : State) (linkTrained : Bool) : State :=
  let s := if linkTrained then s.twinTrained else s
  if s.twinState ≠ twElecting then s
  else if s.headsObey then s.setTwinState twJoining 0
  else if !s.twin.up then s
  else if Config.twinRole = 0 then s.electActive
  else s.setTwinState twJoining 0

/-- TWIN_ELECT_TIMEOUT. -/
def State.electTimeout (s : State) : State :=
  if s.twinState ≠ twElecting ∨ s.twin.up ∨ s.now < s.twin.electSince + s.objN Obj.TWIN_ELECT_MS * msNs then s
  else if s.headsObey then s.setTwinState twJoining 0
  else if Config.twinRole = 0 then s.electActive
  else s

/-- TWIN_PRES_FALL: TWIN_PRES_N falls. -/
def State.presFall (s : State) : State :=
  let s := (s.setTwin (fun t => { t with presLow := true })).setBit Obj.TWIN_STATUS 3 true
  if s.twinState = twSolo ∧ s.obj Obj.TWIN_ENABLE = 1 then s.setTwinState twActive 0 else s

/-- Heads that report being in service are taken as IN_SERVICE without a new SERVICE. -/
def State.adoptHeads (s : State) : State :=
  (List.range 128).foldl (fun s h =>
    if s.takesAuth h ∧ s.objBit (Obj.HL_HEAD_STATE h) 1 then
      (s.setObj (Obj.HL_STATE h) 5).setHeadDev h { s.headDev h with stage := 5 }
    else s) s

/-- A departed line is committed at a head at the earliest of its row fire times (R193). -/
def RowTimes.committed (r : RowTimes) (now : Nat) : Bool :=
  r.tA.any (fun t => decide (t ≤ now)) || r.tB.any (fun t => decide (t ≤ now))

/-- Every departed line that is not yet committed is sent again, with the same dots and bank generations. -/
def State.resendLines (s : State) : State :=
  (List.range 8).foldl (fun s b =>
    (s.departed b).foldl (fun s d =>
      if d.cancel then s
      else (d.rows.filter (fun r => !r.committed s.now)).foldl (fun s r => s.sendLine d.lseq d.line d.vals.toArray r) s) s) s

/-- Every host ring stops as if EN were written 0. Submission rings go on from the forwarded consumer pointers (R435). -/
def State.stopRings (s : State) : State :=
  (List.range 64).foldl (fun s q =>
    if isRecordRing q then s.ringDisable q ((s.ring q).cfg % 2 ^ 31) else s.setRing q { s.ring q with head := none }) s

/-- Frames that started before the switch moved and whose verdict has not come are marked TWIN (R434). -/
def State.markTwinFrames (s : State) : State :=
  (List.range 4).foldl (fun s c =>
    let x := s.cam c
    let hit := fun (f : Frame) => (s.job? f.job).any (fun j => j.verdict.isNone)
    let s := (x.frames.filter hit).foldl (fun s f =>
      s.event (s.jobRing f.job) 0x0A04 [(12, 4, f.job), (16, 1, c), (17, 1, (f.mark fmTwin).marks), (18, 2, f.height),
        (20, 4, f.number)]) s
    s.setCam c { x with frames := x.frames.map (fun f =>
      if hit f then { f.mark fmTwin with closed := true, lines := List.replicate f.height none } else f) }) s

/-- Cameras the old active chip had in ACQUIRING enter it here. -/
def State.adoptCams (s : State) : State :=
  (List.range 4).foldl (fun s c =>
    if s.obj (Obj.CAM_ENABLE c) = 1 ∧ s.obj (Obj.CAM_ACQUIRE c) = 1 ∧ s.ready 9 then
      (s.setObj (Obj.CAM_STATE c) camAcquiring).setCam c { s.cam c with gone := false, lastPkt := s.now }
    else s) s

/-- Takeover (R432) under an epoch, with its cause of Table 21.7. -/
def State.takeover (s : State) (epoch cause : Nat) : State :=
  let old := s.objN Obj.TWIN_EPOCH
  let s := s.setTwin (fun t => { t with jobs := [], snapshot := false, summaries := [], partner := twFaulted })
  let s := (s.setObj Obj.TWIN_EPOCH (epoch : Int)).setTwinState twActive 0
  let s := s.authAll.adoptHeads.resendLines.stopRings.markTwinFrames.adoptCams
  let s := s.eventJ 24 0x1501 0x0C [(12, 1, cause), (16, 4, epoch), (20, 4, old)]
  (s.count Obj.TWIN_TAKEOVER_CNT 1).startLoads.refreshSets

/-- A STANDBY card takes over under the epoch after the active chip's. -/
def State.takeHeads (s : State) (cause : Nat) : State :=
  if s.twinState = twStandby then s.takeover ((s.twin.epochSeen + 1) % 2 ^ 32) cause else s

/-- The SERVICE fault 0x1502 of a card whose partner is lost. -/
def State.partnerFault (s : State) : State := s.latch 0x1502 serviceF 0 (le 1 1) true false none

/-- TWIN_SILENCE. -/
def State.twinSilence (s : State) : State :=
  if s.twinState ≠ twStandby ∨ !s.twin.up ∨ !s.twinSilent then s else (s.twinDown.takeHeads 1).partnerFault

/-- The ACTIVE card loses its STANDBY partner (R430). -/
def State.loseStandby (s : State) : State :=
  let s := s.setTwin (fun t => { t with partner := twFaulted })
  let s := s.eventJ 24 0x1502 0x0C [(12, 1, s.twinState), (13, 1, s.twinState), (14, 1, 1)]
  s.partnerFault

/-- TWIN_PARTNER_LOST. -/
def State.twinPartnerLost (s : State) : State :=
  if s.twinState ≠ twActive ∨ s.twin.partner ≠ twStandby ∨ s.twin.handing ∨ !s.twinSilent then s
  else s.loseStandby.twinDown

/-- TWIN_PLANNED_STOP. -/
def State.twinPlanned (s : State) : State :=
  if s.twin.handing && s.hasAuthority && s.twin.stop.any (fun t => decide (t ≤ s.now)) then s.plannedStop else s

/-! ### Joining (R436) -/

/-- TWIN_SNAPSHOT_COMPLETE. -/
def State.snapshotDone (s : State) : State :=
  if s.twinState = twJoining ∧ s.twin.snapshot then s.setTwinState twSyncing 0 else s

/-- TWIN_SYNC_JOBS: jobs of the snapshot that have not retired. -/
def State.syncJobs (s : State) : Nat := (s.twin.jobs.filter (fun id => (s.job? id).isSome)).length

/-- TWIN_STANDBY_READY. -/
def State.standbyReady (s : State) : State :=
  if s.twinState = twSyncing ∧ s.syncJobs = 0 ∧ (s.obj Obj.TWIN_TIME_ERR).natAbs ≤ 1000 ∧ (s.fault? 0x140E 0).isNone then
    s.setTwinState twStandby 0
  else s

/-! ### The twin objects (Table 21.6) -/

/-- A write of TWIN_ENABLE. -/
def State.twinEnableSet (s : State) (v : Nat) : State :=
  let s := s.setObj Obj.TWIN_ENABLE (v : Nat)
  if v = 0 then
    let s := s.twinDown
    let s := s.setTwin (fun t => { t with handing := false, stop := none })
    if s.hasAuthority then s.setTwinState twSolo 0 else s.setTwinState twFaulted 0
  else if s.twinState = twSolo ∧ s.twin.presLow then s.setTwinState twActive 0
  else s

/-- TWIN_CMD 1: a planned hand-over to a partner in STANDBY. -/
def State.handOver (s : State) : State × Nat :=
  if s.twinState = twActive ∧ s.twin.partner = twStandby ∧ s.twin.up ∧ !s.twin.handing then
    ((s.setTwin (fun t => { t with handing := true })).twinSend .handOver, 0)
  else (s, 0x0A)

/-- TWIN_CMD 2: an ELECTING or FAULTED card without a twin link takes the heads. -/
def State.forceActive (s : State) : State × Nat :=
  if (s.twinState = twElecting ∨ s.twinState = twFaulted) ∧ !s.twin.up then (s.takeover ((s.headEpoch + 1) % 2 ^ 32) 5, 0)
  else (s, 0x0A)

/-- A write of TWIN_CMD. -/
def State.twinCmd (s : State) (v : Nat) : State × Nat :=
  if v = 1 then s.handOver else if v = 2 then s.forceActive else (s, 0x04)

def execTwinElection (linkTrained : Bool) (s : State) : Outcome := .next (s.election linkTrained)
def execTwinElectTimeout (s : State) : Outcome := .next s.electTimeout
def execTwinPresFall (s : State) : Outcome := .next s.presFall
def execTwinRetransmit (s : State) : Outcome := .next s.twinAgain
def execTwinHeartbeatSend (s : State) : Outcome := .next s.twinBeat
def execTwinSilence (s : State) : Outcome := .next s.twinSilence
def execTwinPlannedStop (s : State) : Outcome := .next s.twinPlanned
def execTwinSnapshotComplete (s : State) : Outcome := .next s.snapshotDone
def execTwinStandbyReady (s : State) : Outcome := .next s.standbyReady
def execTwinLaneFail (lane : Fin 12) (s : State) : Outcome := .next (s.twinLaneFail lane.val)
def execTwinPartnerLost (s : State) : Outcome := .next s.twinPartnerLost

end Sys2Proof.Machine
end

