-- ==== Sys2Proof/Machine/Audit.lean ====
section
/-! DEFINITION. Audit journal and security (chapter 22): journal fragments, the lifecycle, keys and debug. Records are made by
State.journal (Machine/Ops.lean). A write is answered with a status of Table 14.3. -/

namespace Sys2Proof.Machine

/-! ### Fragments (R444) -/

/-- Bytes 0 to 27 of fragment i of a record, without PHASE. -/
def fragBytes (rec0 : Bytes) (i : Nat) : Bytes :=
  let last := decide (rec0.length ≤ 24 * (i + 1))
  layout 4 [(0, 1, 0x60), (1, 1, 2 * b2n (i == 0) + 4 * b2n last), (2, 2, i)] ++ slice rec0 (24 * i) 24

/-- The record a journal ring posts next. -/
def State.jnlNext (s : State) (q : Nat) : Option JRec := s.jnl.store.find? (fun r => decide ((s.ring q).fragRec ≤ r.num))

/-- JOURNAL_FRAGMENT_POST: the next fragment of the next record on ring Q56 + i. -/
def State.fragPost (s : State) (i : Nat) : State :=
  let q := 56 + i
  let r := s.ring q
  if !s.objBit Obj.JNL_RING_MASK i || !s.ringRuns q || decide (r.size ≤ r.used) then s
  else
    match s.jnlNext q with
    | none => s
    | some rec0 =>
      let k := if r.fragRec = rec0.num then r.fragIdx else 0
      let s := s.writeRecord q (fragBytes rec0.bytes k)
      let r := s.ring q
      if rec0.bytes.length ≤ 24 * (k + 1) then
        s.setRing q { r with fragRec := rec0.num + 1, fragIdx := 0, fragEnds := r.fragEnds ++ [(rec0.num, r.prod)] }
      else s.setRing q { r with fragRec := rec0.num, fragIdx := k + 1 }

/-! ### SECURITY records (Table 22.1) -/

def State.secJournal (s : State) (action old new slot : Nat) : State :=
  s.journal 0x0D (le 1 action ++ le 1 old ++ le 1 new ++ le 1 slot)

/-! ### Lifecycle and the firmware counter (R441, R450) -/

def lcTest : Nat := 0
def lcProvision : Nat := 1
def lcField : Nat := 2
def lcScrapped : Nat := 3

def State.lifecycle (s : State) : Nat := s.objN Obj.SEC_LIFECYCLE

/-- FW_COUNTER as its fuses stand now. -/
def State.fwFuse (s : State) : Nat := s.jnl.burnedSvn.getD (s.objN Obj.FW_COUNTER)

/-- SEC_SVN_COMMIT. -/
def State.svnCommit (s : State) : State :=
  let svn := s.objN Obj.SEC_IMAGE_SVN
  if svn ≤ s.fwFuse then s
  else
    let s := s.secJournal 2 s.fwFuse svn 0
    { s with jnl := { s.jnl with burnedSvn := some svn } }

def State.makerKeyIn (s : State) : Bool := s.jnl.makerFused || s.jnl.makerKey.isSome
def State.debugKeyIn (s : State) : Bool := s.jnl.debugFused || s.jnl.debugKey.isSome

/-- SEC_DEBUG_KEY's digest. -/
def State.debugKeyDigest (s : State) : Bytes :=
  match s.jnl.debugKey with
  | some k => k
  | none => (List.range 48).map Config.debugKeyDigestByte

/-- Key slot k is provisioned, and revoked. -/
def State.slotIn (s : State) (k : Nat) : Bool := s.objBit Obj.SEC_KEY_STATE k
def State.slotRevoked (s : State) (k : Nat) : Bool := s.objBit Obj.SEC_KEY_STATE (4 + k)

/-- The key of a slot. -/
def State.slotKey (s : State) (k : Nat) : Bytes :=
  match s.jnl.keys.find? (fun (e : Nat × Bytes) => e.1 == k) with
  | some e => e.2
  | none => (List.range 32).map (Config.superKeyByte k)

/-- The status of a provisioning write by lifecycle and session (R451): `mailbox` says that it came over Q60, Q61 or the BAR2
window. -/
def State.provisionOk (s : State) (super mailbox : Bool) : Nat :=
  let lc := s.lifecycle
  if lc = lcTest then 0
  else if lc = lcProvision then (if super || mailbox then 0 else 0x07)
  else 0x09

/-- SEC_LIFECYCLE. The fuse burns after the record; the new state applies from the next reset. -/
def State.lifecycleSet (s : State) (v : Nat) (super mailbox : Bool) : State × Nat :=
  let old := s.lifecycle
  if !super && !(old == lcProvision && mailbox) then (s, 0x07)
  else if lcScrapped < v ∨ v < old then (s, 0x04)
  else if s.jnl.lifecycleNext.isSome then (s, 0x0A)
  else if v = old then (s, 0)
  else if v = lcField ∧ ¬ (s.makerKeyIn ∧ s.debugKeyIn ∧ (List.range 4).any s.slotIn) then (s, 0x04)
  else
    let s := s.secJournal 1 old v 0
    ({ s with jnl := { s.jnl with lifecycleNext := some v } }, 0)

/-! ### Keys (R451) -/

/-- SEC_KEY_PROVISION. -/
def State.keyProvision (s : State) (d : Bytes) (super mailbox : Bool) : State × Nat :=
  let slot := byteAt d 0
  let st := s.provisionOk super mailbox
  if st ≠ 0 then (s, st)
  else if 3 < slot then (s, 0x04)
  else if s.slotIn slot then (s, 0x0A)
  else
    let s := s.secJournal 3 0 0 slot
    let s := s.setBit Obj.SEC_KEY_STATE slot true
    ({ s with jnl := { s.jnl with keys := Tab.set [] s.jnl.keys slot (slice d 1 32) } }, 0)

/-- SEC_MAKER_KEY. -/
def State.makerKeySet (s : State) (d : Bytes) (super mailbox : Bool) : State × Nat :=
  let st := s.provisionOk super mailbox
  if st ≠ 0 then (s, st)
  else if s.makerKeyIn then (s, 0x0A)
  else ({ s with jnl := { s.jnl with makerKey := some d } }, 0)

/-- SEC_DEBUG_KEY. -/
def State.debugKeySet (s : State) (d : Bytes) (super mailbox : Bool) : State × Nat :=
  let st := s.provisionOk super mailbox
  if st ≠ 0 then (s, st)
  else if s.debugKeyIn then (s, 0x0A)
  else ({ s with jnl := { s.jnl with debugKey := some d } }, 0)

/-- SEC_KEY_REVOKE. `own` is the slot the session authenticated with. -/
def State.keyRevoke (s : State) (slot own : Nat) : State × Nat :=
  if 3 < slot then (s, 0x04)
  else if s.lifecycle ≠ lcField then (s, 0x09)
  else if slot = own then (s, 0x0A)
  else
    let s := s.secJournal 4 0 0 slot
    ((s.setBit Obj.SEC_KEY_STATE (4 + slot) true).setObj Obj.SEC_KEY_REVOKE (slot : Nat), 0)

/-! ### Debug (R452) -/

/-- A read of SEC_DEBUG_CHALLENGE draws a new nonce. -/
def State.debugChallenge (s : State) (super : Bool) : State × Nat × Bytes :=
  if s.lifecycle ≠ lcField then (s, 0x09, [])
  else if !super then (s, 0x07, [])
  else
    let x := s.draw 32
    let c := le 8 (s.objN Obj.DEVICE_ID) ++ s.blob Obj.JNL_BOOT_NONCE 0 16 ++ x.1 ++ zeros 8
    ({ x.2 with jnl := { x.2.jnl with challenge := some c } }, 0, c)

/-- SEC_DEBUG_RESPONSE. -/
def State.debugResponse (s : State) (d : Bytes) (super : Bool) : State × Nat :=
  if s.lifecycle ≠ lcField then (s, 0x09)
  else if !super then (s, 0x07)
  else if 8 ≤ getN d 0 4 then (s, 0x04)
  else
    let key := slice d 4 97
    let ok := match s.jnl.challenge with
      | some c => decide (sha384 key = s.debugKeyDigest) && ecdsaVerify key (sha384 (c ++ slice d 0 101)) (slice d 101 96)
      | none => false
    if ok then
      let scope := getN d 0 4
      let s := s.secJournal 5 (b2n s.jnl.debugOpen) 1 scope
      (({ s with jnl := { s.jnl with debugOpen := true, debugScope := scope } }).setObj Obj.SEC_DEBUG_STATE 1, 0)
    else ({ s with jnl := { s.jnl with challenge := none } }, 0x02)

/-- A write of 0 to SEC_DEBUG_STATE. -/
def State.debugClose (s : State) : State :=
  if !s.jnl.debugOpen then s
  else
    let s := s.secJournal 6 1 0 s.jnl.debugScope
    ({ s with jnl := { s.jnl with debugOpen := false, debugScope := 0 } }).setObj Obj.SEC_DEBUG_STATE 0

def execJournalFragmentPost (ring : Fin 4) (s : State) : Outcome := .next (s.fragPost ring.val)

end Sys2Proof.Machine
end

