-- ==== Sys2Proof/Machine/Power.lean ====
section
/-! DEFINITION. Power states (chapter 23): the handshake of a fall, rises, AVS, supplies, and Cicada. Faults of PD0 that wake a
DORMANT device stand at the end with their commands. -/

namespace Sys2Proof.Machine

/-! ### Domains and power states (Table 23.3) -/

def pwActive : Nat := 0
def pwReady : Nat := 1
def pwStandby : Nat := 2
def pwDormant : Nat := 3
def pwOff : Nat := 4

def State.pwState (s : State) : Nat := s.objN Obj.PWR_STATE

/-- State of a domain in a power state: 0 OFF, 1 RETENTION, 2 ON. -/
def domTarget (mode d : Nat) : Nat :=
  if mode = 0 then 2
  else if mode = 1 then (if d = 8 then 1 else 2)
  else if mode = 2 then (if d = 1 ∨ d = 3 ∨ d = 11 then 2 else if d = 2 ∨ (4 ≤ d ∧ d ≤ 7) then 1 else 0)
  else if mode = 3 then (if d = 3 ∨ (8 ≤ d ∧ d ≤ 10) then 0 else 1)
  else 0

/-- The order in which a fall asks the domains (R460). -/
def fallOrder : List Nat := [10, 9, 8, 7, 6, 5, 4, 3, 11, 2, 1]

def State.setPwr (s : State) (f : Power → Power) : State := { s with pwr := f s.pwr }

/-- Why a domain refuses to stop for a power state (Table 23.4). READY leaves PD4 to PD7 on and asks only for STAGED jobs
(R462). -/
def State.stopRefusal (s : State) (mode d : Nat) : Option Nat :=
  let bars := [2 * (d - 4), 2 * (d - 4) + 1]
  let stagedHere := s.hq.jobs.any (fun j => bars.any (fun b => (j.bar b).staged))
  if 4 ≤ d ∧ d ≤ 7 then
    if stagedHere ∨ (mode ≠ pwReady ∧ bars.any (fun b => !s.barIdle b)) then some 1 else none
  else if d = 8 then
    if s.hq.jobs.any (fun j => j.verdict.isNone && j.bars.any (fun x => decide (0 < x.fired))) then some 2 else none
  else if d = 9 then
    if (List.range 4).any (fun c => (s.cam c).frames.any (fun f => !f.closed)) then some 3 else none
  else if d = 10 then if s.strBusy then some 4 else none
  else if d = 3 then if s.twinState ≠ twSolo ∧ s.obj Obj.TWIN_ENABLE = 1 then some 5 else none
  else if d = 11 then
    if (List.range 24).any (fun x => !(s.ax x).atRest) ∨ (List.range 32).any (fun l => s.obj (Obj.LP_ENABLE l) == 1) ∨
        (List.range 16).any (fun k => (s.cmp k).armed) then some 6 else none
  else if d = 2 then if s.hq.jobs.isEmpty then none else some 7
  else if d = 1 then if s.toa.pending.isEmpty then none else some 8
  else none

/-- Wear accumulators of a bar domain go into their counters (R179). -/
def State.flushDomain (s : State) (d : Nat) : State :=
  let mine := s.lcw.wearAcc.filter (fun e => headDomain (e.1 / 8192) == d)
  mine.foldl (fun s e => s.flushWear (e.1 / 8192) (e.1 % 8192)) s

/-- Head lanes of a bar domain go off. -/
def State.headsOff (s : State) (d : Nat) : State :=
  (List.range 32).foldl (fun s i =>
    let h := 32 * (d - 4) + i
    let st := s.objN (Obj.HL_STATE h)
    let s := if 2 ≤ st ∧ st ≤ 5 then (s.releaseHead h).setHeadDev h { s.headDev h with keep := true } else s
    (s.setObj (Obj.HL_STATE h) 0).hlDown h) s

/-- The lanes of a domain that goes off, but for head lanes: what calibration runs on them is interrupted. -/
def State.lanesOff (s : State) (d : Nat) : State :=
  (List.range 46).foldl (fun s i =>
    let n := 128 + i
    if Obj.domain (0x6C00 + 4 * n) = d then
      ((s.eyeAbort n).calInterrupt 1 n).laneBits n [] [lnSignal, lnCdr, lnLocked, lnTrained, lnAdapting]
    else s) s

/-- What a domain does before it stops (R460). -/
def State.closeDomain (s : State) (d : Nat) : State :=
  if 4 ≤ d ∧ d ≤ 7 then (s.flushDomain d).headsOff d
  else if d = 9 then
    ((List.range 4).foldl (fun s c => if s.camState c = camOff then s else s.camIsLost c 3) s).lanesOff 9
  else if d = 10 then s.strPowerOff
  else if d = 3 then
    let s := s.linkDown.twinDown
    ((s.setObj (Obj.EN_LINK 0) 0).setObj (Obj.EN_LINK 1) 0).lanesOff 3
  else if d = 2 then s.sweepAbort.selfRefresh true
  else s

/-- A domain that goes OFF loses what it holds: its objects are at their defaults when it next starts (R457). Records wait in
PD1 (R470). -/
def State.loseDomain (s : State) (d : Nat) : State :=
  let keep := fun (idx : Nat) => Obj.domain idx != d
  let s := { s with
    objs := s.objs.filter (fun e => keep (e.1 / 256))
    blobs := s.blobs.filter (fun e => keep (e.1 / 2 ^ 24 / 256)) }
  if d = 3 then
    let ring := fun (r : Ring) => { r.restart with
      base := 0, wb := 0, en := false, vec := 0, sizeLog2 := 6, err := false, errCode := 0, modTime := 0, modCount := 1,
      drop := 0, dropOvf := false }
    let hq := { s.hq with
      rings := s.hq.rings.map (fun (e : Nat × Ring) => (e.1, ring e.2))
      descReject := 0, descRejectOvf := false, badAccess := 0, badAccessOvf := false, aperture := 0, msix := [], pba := []
      windowReq := [], windowRsp := [], mbBusy := false, mbDone := false, mbRspLen := 0 }
    { s with hq := hq, twin := { presLow := s.twin.presLow } }
  else if d = 8 then { s with nim := {} }
  else if d = 9 then { s with cams := [] }
  else s

/-- Every domain takes its state of a power state. -/
def State.setDomains (s : State) (mode : Nat) : State :=
  (List.range 11).foldl (fun s i =>
    let d := i + 1
    let t := domTarget mode d
    let s := if t = 0 ∧ s.domain d ≠ 0 then s.loseDomain d else s
    s.setDomain d t) s

/-- Axes whose STO_N falls with PD11 are disabled (R344, R414). -/
def State.stoAll (s : State) : State :=
  if s.ready 11 then s else (List.range 24).foldl State.stoAxis s

/-- VDD_CORE is to reach a voltage (R456). The monitors' target is a free value. -/
def State.avsGoal (s : State) (mode : Nat) : State :=
  if 2 ≤ mode then s.setPwr (fun p => { p with goal := 700 })
  else if s.pwState < 2 then s
  else
    let x := s.drawNat
    x.2.setPwr (fun p => { p with goal := 680 + x.1 % 141 })

/-- The outcome of a request in PWR_CTRL (R459): RESULT, DOMAIN and REASON. -/
def State.ctrlResult (s : State) (result dom reason : Nat) : State :=
  s.setPwr (fun p => { p with ctrl := putField (putField (putField p.ctrl 8 2 result) 12 4 dom) 16 8 reason })

/-! ### Falls (R460, R465) -/

/-- The device has entered DORMANT: the root PLL stops and Cicada starts counting. -/
def State.enterDormant (s : State) : State :=
  let s := { s with time := { s.time with dormant := 0 }, cic := { next := s.objN Obj.CIC_PERIOD_S * 10000000 } }
  s.setBit Obj.CLK_STATUS 1 false

/-- A fall has stopped every domain it asks. -/
def State.fallDone (s : State) (mode cause : Nat) : State :=
  let s := (s.avsGoal mode).setDomains mode
  let s := if mode = pwDormant then s.enterDormant else s
  let s := s.stoAll
  if mode = pwOff then (s.setPwr (fun p => { p with off := true })).setBit Obj.PWR_STATUS 2 false
  else s.powerReached mode cause

/-- A domain refuses: those already stopped restart, and the request fails. -/
def State.sleepRefused (s : State) (mode d why : Nat) : State :=
  let s := (s.setObj Obj.PWR_REFUSAL (why + 256 * d : Nat)).setBit Obj.PWR_STATUS 2 false
  let s := s.event 24 0x1602 [(12, 1, mode), (13, 1, d), (14, 1, why)]
  (s.count Obj.PWR_REFUSE_CNT 1).ctrlResult 2 d why

/-- Ask the domains in order. `late` is a domain that does not answer. The flag says every one has stopped. -/
def fallStep (mode : Nat) (late : Option Nat) (acc : State × Bool) (d : Nat) : State × Bool :=
  if !acc.2 then acc
  else
    let s := acc.1
    let stops := decide (domTarget mode d < s.domain d)
    if stops ∨ (mode = pwReady ∧ 4 ≤ d ∧ d ≤ 7) then
      match if late = some d then some 9 else s.stopRefusal mode d with
      | some why => (s.sleepRefused mode d why, false)
      | none => (if stops then s.closeDomain d else s, true)
    else acc

/-- The domains that a refused fall had stopped to self-refresh, or with their links, come up again as they were. -/
def State.fall (s : State) (mode : Nat) (late : Option Nat) : State :=
  let r := fallOrder.foldl (fallStep mode late) (s, true)
  if r.2 then (r.1.ctrlResult 1 0 0).fallDone mode 1
  else if s.obj Obj.DRAM_STATE = 3 ∧ r.1.obj Obj.DRAM_STATE = 4 then r.1.selfRefresh false else r.1

/-- OFF with FORCE: no domain is asked. -/
def State.forcedOff (s : State) : State :=
  let s := { s with
    hq := { s.hq with jobs := [], bases := [], streams := [], acceptQ := [] }
    jnl := { s.jnl with store := [] }, dram := [] }
  (s.ctrlResult 1 0 0).fallDone pwOff 4

/-! ### Rises (R461) -/

/-- The domains of a power state start, and it is reached. -/
def State.riseDone (s : State) (mode cause : Nat) : State :=
  let was1 := s.domain 1
  let was2 := s.domain 2
  let s := s.setPwr (fun p => { p with rising := none })
  let s := (s.setBit Obj.CLK_STATUS 1 true).setDomains mode
  let s := if was1 = 1 then s.resumeTime else s
  let s := if was2 = 1 ∧ s.domain 2 = 2 then s.selfRefresh false else s
  (s.ctrlResult 1 0 0).powerReached mode cause

/-- A rise: VDD_CORE is raised first. -/
def State.rise (s : State) (mode cause : Nat) : State :=
  let s := s.avsGoal mode
  if s.objN Obj.PWR_VCORE < s.pwr.goal then s.setPwr (fun p => { p with rising := some (mode, cause) })
  else s.riseDone mode cause

/-! ### Requests (R458, R459) -/

def State.pwrRunning (s : State) : Bool := s.objBit Obj.PWR_STATUS 2

/-- A write of PWR_TARGET. The answer to a fall waits for the handshake (`asked`). -/
def State.pwrTargetSet (s : State) (v : Nat) : State × Nat :=
  let mode := v % 128
  if 4 < mode ∨ (128 ≤ v ∧ mode ≠ pwOff) then (s, 0x04)
  else if s.pwrRunning then (s, 0x0A)
  else if mode = s.pwState then (s.setObj Obj.PWR_TARGET (v : Nat), 0)
  else
    let s := (s.setObj Obj.PWR_TARGET (v : Nat)).setBit Obj.PWR_STATUS 2 true
    (s.setPwr (fun p => { p with ctrl := mode + (if 128 ≤ v then 2 ^ 31 else 0), asked := decide (s.pwState < mode) }), 0)

/-- The cores wait, and the controller carries the request out. -/
def State.transition (s : State) (late : Option Nat) : State :=
  if !s.pwrRunning ∨ s.pwr.rising.isSome ∨ s.pwr.off then s
  else
    let mode := field s.pwr.ctrl 0 3
    if bitAt s.pwr.ctrl 31 then s.forcedOff
    else if s.pwState < mode then s.fall mode late
    else s.rise mode 1

/-- A fall has been decided: the status its TOA response carries. -/
def State.fallStatus (s : State) : Nat := if field s.pwr.ctrl 8 2 = 2 then 0x0C else 0

/-! ### AVS (R456) -/

/-- AVS_STEP: a change of more than 10 mV goes by 5 mV every 100 us. -/
def State.avsStep (s : State) : State :=
  let v := s.objN Obj.PWR_VCORE
  let g := s.pwr.goal
  let diff := ((g : Int) - (v : Int)).natAbs
  if diff = 0 ∨ (10 < diff ∧ s.aclkNs < s.pwr.stepNs + 100000) then s
  else
    let w := if diff ≤ 10 then g else if v < g then v + 5 else v - 5
    let s := ((s.setObj Obj.PWR_VCORE (w : Nat)).emit (.pmbus w)).setPwr (fun p => { p with stepNs := s.aclkNs })
    match s.pwr.rising with
    | some (mode, cause) => if w = g then s.riseDone mode cause else s
    | none => s

/-- PMB_ALERT. The regulator's STATUS_BYTE is a free value. -/
def State.pmbAlerts (s : State) : State :=
  let x := s.drawNat
  let s := x.2.event 24 0x1604 [(12, 1, x.1 % 256), (16, 2, s.objN Obj.PWR_VCORE)]
  s.latch 0x1604 serviceF 0 [] false false none

/-! ### Cicada (R466 to R469) -/

def State.setCic (s : State) (f : Cicada → Cicada) : State := { s with cic := f s.cic }

/-- CIC_ADC_WIN of a channel: low, high, enabled (the layout of HALO_PRES_WIN without its filter). -/
def State.cicWin (s : State) (ch : Nat) : Nat × Nat × Bool :=
  let o := 8 * ch
  (s.blobN Obj.CIC_ADC_WIN o 2, s.blobN Obj.CIC_ADC_WIN (o + 2) 2, bitAt (s.blobN Obj.CIC_ADC_WIN (o + 6) 1) 0)

/-- A pin named as CIC_WAKE_PIN and CIC_CAP_GPIO name one is active. -/
def selActive (sel pins : Nat) : Bool := !bitAt sel 7 && (bitAt pins (sel % 32) == bitAt sel 6)

/-- End a spit: heads are released, HV_EN is low and the domain returns to RETENTION. -/
def State.endSpit (s : State) : State :=
  match s.cic.spit with
  | none => s
  | some p =>
    let s := (s.headsOff p.dom).setCic (fun c => { c with hv := [], spit := none })
    let s := (s.setDomain p.dom 1).setBit Obj.CLK_STATUS 1 false
    if s.cic.late then s.setCic (fun c => { c with late := false, next := s.time.dormant + s.objN Obj.CIC_PERIOD_S * 10000000 })
    else s

/-- A full wake: the device rises to STANDBY, and CIC_WAKE names the cause with its channel or head and its reading. -/
def State.fullWake (s : State) (cause ch : Nat) (reading : Int) : State :=
  if s.pwState ≠ pwDormant then s
  else
    let n := s.cic.wakes
    let s := (s.endSpit.setObj Obj.CIC_WAKE_CAUSE (cause : Nat)).riseDone pwStandby 3
    s.event 24 0x1603 [(12, 1, cause), (13, 1, ch), (16, 2, bitsOf 16 reading), (20, 4, n)]

/-- The readings of a wake go to CIC_LAST; channels and heads not sampled read 0x8000. -/
def State.cicReadings (s : State) (adc : List Nat) : State :=
  let ch := ((List.range 16).map (fun i => le 2 (if (s.cicWin i).2.2 then adc.getD i 0 else 0x8000))).flatten
  s.setBlob Obj.CIC_LAST 0 (ch ++ ((List.range 128).map (fun _ => le 2 0x8000)).flatten)

/-- The first enabled channel outside its window. -/
def State.cicOutside (s : State) (adc : List Nat) : Option (Nat × Nat) :=
  ((List.range 16).find? (fun i =>
    let w := s.cicWin i
    let v := adc.getD i 0
    w.2.2 && (decide (v < w.1) || decide (w.2.1 < v)))).map (fun i => (i, adc.getD i 0))

/-- The domain the next spit wake serves: the first in the rotation with a bar in CIC_BAR_MASK. -/
def State.spitDomain (s : State) : Option Nat :=
  let m := s.objN Obj.CIC_BAR_MASK
  let from' := s.objN Obj.CIC_NEXT_DOMAIN
  ((List.range 4).map (fun i => 4 + (from' - 4 + i) % 4)).find? (fun d => bitAt m (2 * (d - 4)) || bitAt m (2 * (d - 4) + 1))

/-- A spit wake begins: the domain and its head lanes come up. -/
def State.startSpit (s : State) : State :=
  match s.spitDomain with
  | none => s
  | some d =>
    let bars := [2 * (d - 4), 2 * (d - 4) + 1].filter (fun b => bitAt (s.objN Obj.CIC_BAR_MASK) b)
    let s := s.setObj Obj.CIC_NEXT_DOMAIN ((4 + (d - 4 + 1) % 4 : Nat) : Int)
    let s := (s.setDomain d 2).setBit Obj.CLK_STATUS 1 true
    let heads := (bars.map barHeads).flatten
    let s := { s with time := { s.time with stepFrames := s.time.stepFrames ++ heads } }
    s.setCic (fun c => { c with spit := some { dom := d, bars := bars, since := s.time.dormant } })

/-- CICADA_WAKE: the timer has expired, with the ADC readings and GPIO levels it finds. During a spit the sample is taken within
it, and the timer starts again from its end. -/
def State.cicadaWake (s : State) (adc : List Nat) (pins : Nat) : State :=
  if s.pwState ≠ pwDormant ∨ s.time.dormant < s.cic.next ∨ s.cic.late then s
  else
    let s := (s.count Obj.CIC_WAKES 1).setCic (fun c => { c with wakes := c.wakes + 1, pins := pins })
    let period := s.objN Obj.CIC_PERIOD_S * 10000000
    match s.cic.spit with
    | some p =>
      let s := s.setCic (fun c => { c with late := true })
      match s.cicOutside adc with
      | some (ch, v) => s.setCic (fun c => { c with spit := some { p with wake := some (p.wake.getD (1, ch, (v : Int))) } })
      | none => s
    | none =>
      let s := (s.cicReadings adc).setCic (fun c => { c with next := c.next + period })
      match s.cicOutside adc with
      | some (ch, v) => s.fullWake 1 ch (v : Int)
      | none =>
        let every := s.objN Obj.CIC_SPIT_EVERY
        if 0 < every ∧ s.cic.wakes % every = 0 then s.startSpit else s

/-- A head has reached TIME_LOCK in a spit. -/
def State.spitLocked (s : State) (h : Nat) : Bool := s.obj (Obj.HL_STATE h) == 2 && s.objBit (Obj.HL_HEAD_STATE h) 5

/-- Bars of a spit are given up, and counted. -/
def State.skipBars (s : State) (l : List Nat) : State := l.foldl (fun s b => s.countElem Obj.CIC_SKIP_CNT b 4 32 1) s

/-- Bars of a spit with a head that is lost. -/
def State.lostBars (s : State) (p : Spit) : List Nat := p.bars.filter (fun b => (barHeads b).any (fun h => !s.spitLocked h))

/-- A spit fails on some bars: it goes on with the others, or ends, and wakes the device where CIC_FAIL_WAKE says so. -/
def State.spitFails (s : State) (p : Spit) (lost : List Nat) : State :=
  let s := s.skipBars lost
  let left := p.bars.filter (fun b => !lost.contains b)
  if s.obj Obj.CIC_FAIL_WAKE = 1 then s.fullWake 5 (16 * lost.headD 0) 0
  else if left.isEmpty then s.endSpit
  else s.setCic (fun c => { c with spit := some { p with bars := left }, hv := c.hv.filter (fun b => left.contains b) })

/-- SPIT_TIMEOUT: 100 ms without TIME_LOCK of every head. -/
def State.spitTimeout (s : State) : State :=
  match s.cic.spit with
  | none => s
  | some p =>
    if p.ready ∨ s.time.dormant < p.since + 1000000 then s
    else
      let lost := s.lostBars p
      if lost.isEmpty then s else s.spitFails p lost

/-- A head temperature outside CIC_TEMP_WIN, of the heads of some bars. -/
def State.hotHead (s : State) (bars : List Nat) : Option (Nat × Int) :=
  let w := s.objN Obj.CIC_TEMP_WIN
  let lo := sext 16 (field w 0 16)
  let hi := sext 16 (field w 16 16)
  ((bars.map barHeads).flatten.find? (fun h => decide (s.obj (Obj.HL_TEMP h) < lo) || decide (hi < s.obj (Obj.HL_TEMP h)))).map
    (fun h => (h, s.obj (Obj.HL_TEMP h)))

/-- The heads of a spit are prepared: temperatures compared, waveforms loaded and switched, SERVICE and AUTH sent, and HV_EN
raised for the bars whose cap input is active. -/
def State.prepareSpit (s : State) (p : Spit) : State :=
  let heads := (p.bars.map barHeads).flatten
  let s := heads.foldl (fun s h => s.setBlob Obj.CIC_LAST (32 + 2 * h) (leInt 2 (s.obj (Obj.HL_TEMP h)))) s
  let s := heads.foldl (fun s h =>
    let s := s.loadWave h (s.blob (Obj.WAVE_TABLE (h / 16)) 0 140)
    ((s.ctlSend h ⟨4, 0, 1⟩).ctlSend h ⟨5, 0, 0⟩).sendAuth h) s
  let capped := p.bars.filter (fun b => selActive (s.blobN Obj.CIC_CAP_GPIO b 1) s.cic.pins)
  let s := s.skipBars (p.bars.filter (fun b => !capped.contains b))
  s.setCic (fun c => { c with hv := capped, spit := some { p with bars := capped, ready := true, next := s.time.dormant } })

/-- One spit line on a head: the same dot value on every nozzle. Its fire time is a free value. -/
def State.spitHead (s : State) (line ft dot h : Nat) : State :=
  let s := s.hlTx h 2 (fireTimeBody line h 3 ft ft)
  s.hlTx h 1 (s.lineData h line (line % 2 ^ 16) (List.replicate 2048 (BitVec.ofNat 8 (dot * 85))))

/-- SPIT_LINE: once the heads are locked they are prepared; then a line departs every CIC_SPIT_PERIOD_US, and the last one ends
the spit. A cause of a full wake found during it stops it here. -/
def State.spitLine (s : State) : State :=
  match s.cic.spit with
  | none => s
  | some p0 =>
    let lost := s.lostBars p0
    if !p0.ready ∧ !lost.isEmpty then s
    else if p0.ready ∧ s.time.dormant < p0.next then s
    else if p0.ready ∧ !lost.isEmpty then s.spitFails p0 lost
    else
      let hot := if p0.ready then none else s.hotHead p0.bars
      let s := if p0.ready then s else s.prepareSpit p0
      match s.cic.spit with
      | none => s
      | some p =>
        match p.wake, hot with
        | some (c, ch, v), _ => s.fullWake c ch v
        | none, some (h, t) => s.fullWake 2 h t
        | none, none =>
          if p.bars.isEmpty then s.endSpit
          else
            let x := s.drawNat
            let heads := (p.bars.map barHeads).flatten
            let s := heads.foldl (fun s h => s.spitHead p.line (x.1 % 2 ^ 63) (s.objN Obj.CIC_SPIT_DOT) h) x.2
            if p.line + 1 < s.objN Obj.CIC_SPIT_LINES then
              s.setCic (fun c => { c with spit := some { p with
                line := p.line + 1, next := s.time.dormant + 10 * s.objN Obj.CIC_SPIT_PERIOD_US } })
            else
              let s := p.bars.foldl (fun s b => s.countElem Obj.CIC_SPIT_CNT b 4 32 1) s
              s.endSpit

/-- CIC_WAKE_PIN: the wake pin becomes active. -/
def State.wakePin (s : State) : State := if bitAt (s.objN Obj.CIC_WAKE_PIN) 7 then s else s.fullWake 3 0 0

/-! ### Faults that wake the device (R469) -/

/-- A SAFETY or SERVICE fault that an operation has newly latched wakes a DORMANT device. -/
def State.faultWakes (before after : State) : State :=
  let new := after.halo.faults.any (fun f => decide (1 ≤ f.cls) && (before.fault? f.code f.inst).isNone)
  if new then after.fullWake 4 0 0 else after

/-- A requested fall asks domain d to stop. -/
def State.fallAsks (s : State) (d : Nat) : Bool :=
  let mode := field s.pwr.ctrl 0 3
  s.pwrRunning && !bitAt s.pwr.ctrl 31 && decide (s.pwState < mode) && decide (domTarget mode d < s.domain d) &&
    fallOrder.contains d

def execFaultLatch (code inst detail : Nat) (s : State) : Outcome := .next (State.faultWakes s (s.faultLatch code inst detail))
def execChainLow (s : State) : Outcome := .next (State.faultWakes s s.chainFalls)
def execSafeReadbackMismatch (out : Nat) (s : State) : Outcome := .next (State.faultWakes s (s.readback out))
def execPairSilent (pair : Fin 2) (s : State) : Outcome := .next (State.faultWakes s (s.pairSilentF pair.val))
def execSupplyOutOfWindow (supply : Fin 10) (mv : Int) (s : State) : Outcome :=
  .next (State.faultWakes s (s.supplyOut supply.val mv))
def execPmbAlert (s : State) : Outcome := .next (State.faultWakes s s.pmbAlerts)
def execAvsStep (s : State) : Outcome := .next s.avsStep
def execCicadaWake (adc : List Nat) (gpio : BitVec 32) (s : State) : Outcome := .next (s.cicadaWake adc gpio.toNat)
def execSpitLine (s : State) : Outcome := .next s.spitLine
def execSpitTimeout (s : State) : Outcome := .next s.spitTimeout
def execCicWakePin (s : State) : Outcome := .next s.wakePin

end Sys2Proof.Machine
end

