-- ==== Sys2Proof/Machine/Boot.lean ====
section
/-! DEFINITION. Clocks, reset and boot (chapter 24): the root PLL, full resets, the end of boot, reset requests, and the Ethernet
ports outside TOA (R309, R329). -/

namespace Sys2Proof.Machine

/-! ### The root PLL (R472) -/

/-- CLK_STATUS: the lane and DRAM PLLs are locked while the root PLL is and their domains are on. -/
def State.clkStatus (s : State) : Nat :=
  let on := fun (d : Nat) => b2n (s.ready d)
  let hl := b2n ([4, 5, 6, 7].any s.ready)
  s.objN Obj.CLK_STATUS % 4 + 4 * on 2 + 8 * hl + 16 * on 3 + 32 * on 9 + 64 * on 3 + 128 * on 3

/-- ROOT_PLL_LOCK. After a loss of lock the divided clocks wait for a reset. -/
def State.pllLock (s : State) : State :=
  if s.pwr.pllLost ∨ s.pwr.off ∨ s.pwState = pwDormant then s
  else
    let s := (s.setBit Obj.CLK_STATUS 0 true).setBit Obj.CLK_STATUS 1 true
    (s.condEnd 0x1408 0).condEnd 0x1408 1

/-- PLL_LOCK_RETRY: the root PLL has not locked before the end of boot. `refclk` says that REFCLK has edges. -/
def State.pllRetry (s : State) (refclk : Bool) : State :=
  if s.objBit Obj.CLK_STATUS 1 ∨ s.jnl.booted then s
  else
    let s := s.setBit Obj.CLK_STATUS 0 refclk
    let i := b2n refclk
    if (s.fault? 0x1408 i).any (fun f => f.cond) then s else s.latch 0x1408 safety i [] true false none

/-- PLL_LOCK_LOSS after boot. -/
def State.pllLoss (s : State) : State :=
  if !s.objBit Obj.CLK_STATUS 1 then s
  else
    let s := s.count Obj.CLK_LOCK_LOSS_CNT 1
    let s := s.latch 0x1408 safety 1 [] true false none
    (s.setBit Obj.CLK_STATUS 1 false).setPwr (fun p => { p with pllLost := true })

/-! ### Full reset (R474, R475) -/

/-- What a full reset leaves before Halo latches RESET_SAFE: everything at its default but the fuses, RST_COUNT, the levels of
pins and the head modules. A lifecycle state and a FW_COUNTER burnt before apply from here. -/
def State.cleared (s : State) (source : Nat) : State :=
  let x := s.draw 16
  let t : State := {
    pending := s.pending, out := s.out, free := x.2.free, headSides := s.headSides
    jnl := { keys := s.jnl.keys, makerFused := s.jnl.makerFused, debugFused := s.jnl.debugFused, makerKey := s.jnl.makerKey, debugKey := s.jnl.debugKey }
    halo := { chainExt := s.halo.chainExt }
    twin := { presLow := s.twin.presLow } }
  let t := (List.range 128).foldl State.headPortDown t
  let t := t.setBlob Obj.JNL_BOOT_NONCE 0 x.1
  let t := t.setObj Obj.SEC_LIFECYCLE ((s.jnl.lifecycleNext.getD s.lifecycle : Nat) : Int)
  let t := (t.setObj Obj.FW_COUNTER ((s.fwFuse : Nat) : Int)).setObj Obj.SEC_KEY_STATE (s.obj Obj.SEC_KEY_STATE)
  let t := (t.setObj Obj.RST_COUNT (s.obj Obj.RST_COUNT)).setBit Obj.CLK_CNT_STATUS 1 (s.objBit Obj.CLK_CNT_STATUS 1)
  let t := (t.setObj Obj.GPIO_IN (s.obj Obj.GPIO_IN)).setBit Obj.TWIN_STATUS 3 s.twin.presLow
  t.setObj Obj.RST_SOURCE (source : Nat)

/-- A full reset with its source (Table 24.3). -/
def State.fullReset (s : State) (source : Nat) : State :=
  ((s.cleared source).count Obj.RST_COUNT 1).latch 0x140E safety source [] true false none

/-- RESET. In OFF only PWR_GOOD and RESET_N reach the device; a host reset comes 1 ms after its request. -/
def State.resetBy (s : State) (source : Nat) : State :=
  if source = 0 ∨ 7 < source ∨ (s.pwr.off ∧ 2 < source) then s
  else if source = 5 ∧ !s.pwr.resetAt.any (fun t => decide (t ≤ s.aclkNs)) then s
  else s.fullReset source

/-- A write of RST_REQUEST (R478). -/
def State.rstRequestSet (s : State) (v : Nat) : State × Nat :=
  if v ≠ 1 ∧ v ≠ 2 then (s, 0x04)
  else if v = 1 ∧ (!s.hq.jobs.isEmpty ∨ s.jnlFill ≠ 0) then (s, 0x0A)
  else ((s.secJournal 7 0 v 0).setPwr (fun p => { p with resetAt := some (s.aclkNs + 1000000) }), 0)

/-! ### The end of boot (R479) -/

/-- Body of the BOOT record (Table 22.1). -/
def State.bootBody (s : State) : Bytes :=
  s.blob Obj.SEC_IMAGE_DIGEST 0 48 ++ le 1 (s.objN Obj.SEC_IMAGE_SVN) ++ le 4 (s.objN Obj.FW_VERSION) ++
    le 1 (s.objN Obj.FW_COUNTER) ++ le 1 (s.objN Obj.SEC_BOOT_SLOT) ++ le 4 Config.romVersion ++
    le 8 (s.objN Obj.DEVICE_ID) ++ le 1 (s.objN Obj.RST_SOURCE)

/-- FAULT_RAISED of a fault, as the journal holds it. -/
def State.faultEvent (s : State) (f : Flt) : Bytes :=
  Sys2Proof.splice (s.eventBytes 0x1420 0 0 [(12, 2, f.code), (14, 1, f.cls), (15, 1, b2n f.injected)]) 16 (slice f.detail 0 12)

/-- BOOT_COMPLETE: the object server answers on BAR2. The BOOT record comes first, then what Halo latched before it. -/
def State.bootDone (s : State) : State :=
  if s.jnl.booted ∨ !s.ready 1 ∨ s.pwr.off then s
  else
    let s := ({ s with jnl := { s.jnl with booted := true } }).journal 1 s.bootBody
    let s := (s.halo.faults.filter (fun f => decide (1 ≤ f.cls))).foldl (fun s f => s.journal 9 (s.faultEvent f)) s
    let s := s.condEnd 0x140E (s.objN Obj.RST_SOURCE)
    let x := s.drawNat
    let s := x.2.setObj Obj.BOOT_TIME ((x.1 % 2 ^ 32 : Nat) : Int)
    let s : State := if Config.dramBlock then (s.setObj Obj.DRAM_STATE 1).setObj Obj.DRAM_RATE Config.dramRate else s
    if s.twin.presLow && s.obj Obj.TWIN_ENABLE == 1 then
      (s.setTwin (fun t => { t with electSince := s.now })).setTwinState twElecting 0
    else s

/-! ### Ethernet (R309, R329) -/

/-- `n` bytes of `v`, most significant first. -/
def be (n v : Nat) : Bytes := (le n v).reverse

/-- The Internet checksum: the complement of the ones' complement sum of 16-bit words, most significant byte first. -/
def sum16 : Nat → Bytes → Nat
  | 0, _ => 0
  | n + 1, b => unbe (slice b 0 2) + sum16 n (b.drop 2)

def inetSum (b : Bytes) : Nat :=
  let t := sum16 ((b.length + 1) / 2) b
  let t := t % 65536 + t / 65536
  65535 - (t % 65536 + t / 65536)

def State.enMacBytes (s : State) (p : Nat) : Bytes := be 6 (s.objN (Obj.EN_MAC p))

/-- The link-local address formed from EN_MAC as a modified EUI-64 (R330). -/
def State.linkLocal (s : State) (p : Nat) : Bytes :=
  let m := s.enMacBytes p
  be 8 0xFE80000000000000 ++ [BitVec.ofNat 8 (byteAt m 0 ^^^ 2)] ++ slice m 1 2 ++ [0xFF, 0xFE] ++ slice m 3 3

/-- An IPv6 address is one of the port's. -/
def State.ownIp6 (s : State) (p : Nat) (a : Bytes) : Bool :=
  a == s.linkLocal p || (a == s.blob (Obj.IP6_ADDR p) 0 16 && !allZero a)

/-- The answer to a frame that is neither TOA nor PTP, if it has one: ARP, ICMP and ICMPv6 echo, neighbour solicitation. -/
def State.enAnswer (s : State) (p : Nat) (f : Bytes) : Option Bytes :=
  let mac := s.enMacBytes p
  let src := slice f 6 6
  let ip4 := s.objN (Obj.IP4_ADDR p)
  let ty := unbe (slice f 12 2)
  let head := src ++ mac ++ slice f 12 2
  if ty = 0x0806 then
    if slice f 14 8 = be 8 0x0001080006040001 ∧ ip4 ≠ 0 ∧ slice f 38 4 = be 4 ip4 then
      some (head ++ be 8 0x0001080006040002 ++ mac ++ be 4 ip4 ++ slice f 22 10)
    else none
  else if ty = 0x0800 then
    let ihl := 4 * (byteAt f 14 % 16)
    let len := unbe (slice f 16 2)
    let icmp := slice f (14 + ihl) (len - ihl)
    if byteAt f 23 = 1 ∧ ip4 ≠ 0 ∧ slice f 30 4 = be 4 ip4 ∧ byteAt icmp 0 = 8 ∧ byteAt icmp 1 = 0 ∧ ihl + 8 ≤ len then
      let body := [0, 0, 0, 0] ++ icmp.drop 4
      some (head ++ slice f 14 12 ++ slice f 30 4 ++ slice f 26 4 ++ slice f 34 (ihl - 20) ++
        Sys2Proof.splice body 2 (be 2 (inetSum body)))
    else none
  else if ty = 0x86DD ∧ byteAt f 20 = 58 then
    let len := unbe (slice f 18 2)
    let from' := slice f 22 16
    let dst := slice f 38 16
    let icmp := slice f 54 len
    let pack := fun (a body : Bytes) =>
      let ck := inetSum (a ++ from' ++ be 4 body.length ++ be 4 58 ++ body)
      head ++ slice f 14 4 ++ be 2 body.length ++ [58, 255] ++ a ++ from' ++ Sys2Proof.splice body 2 (be 2 ck)
    if byteAt icmp 0 = 128 ∧ s.ownIp6 p dst then some (pack dst ([129, 0, 0, 0] ++ icmp.drop 4))
    else if byteAt icmp 0 = 135 ∧ s.ownIp6 p (slice icmp 8 16) then
      let a := slice icmp 8 16
      some (pack a ([136, 0, 0, 0, 0x60, 0, 0, 0] ++ a ++ [2, 1] ++ mac))
    else none
  else none

/-- A port carries frames. -/
def State.enUp (s : State) (p : Nat) : Bool := s.obj (Obj.EN_ENABLE p) == 1 && s.obj (Obj.EN_LINK p) == 1 && s.ready 1

/-- A frame reaches a port: counted, or counted as an error. -/
def State.enCount (s : State) (p : Nat) (ok : Bool) : State :=
  s.count (if ok then Obj.EN_RX_FRAMES p else Obj.EN_RX_ERR p) 1

/-- ETHERNET_FRAME_RECEIVE: `ok` says that the frame's FCS and length are right. -/
def State.ethFrame (s : State) (p : Nat) (f : Bytes) (ok : Bool) : State :=
  if !s.enUp p then s
  else
    let s := s.enCount p ok
    match if ok then s.enAnswer p f else none with
    | some r => s.emit (.eth p r)
    | none => s

/-- EN_LINK_CHANGE. -/
def State.enLink (s : State) (p : Nat) (up : Bool) : State :=
  if !s.ready 3 then s else s.setObj (Obj.EN_LINK p) (b2n (up && s.obj (Obj.EN_ENABLE p) == 1) : Nat)

def execRootPllLock (s : State) : Outcome := .next s.pllLock
def execPllLockRetry (refclk : Bool) (s : State) : Outcome := .next (s.pllRetry refclk)
def execPllLockLoss (s : State) : Outcome := .next (State.faultWakes s s.pllLoss)
def execReset (source : Fin 16) (s : State) : Outcome := .next (s.resetBy source.val)
def execBootComplete (s : State) : Outcome := .next s.bootDone
def execEnLinkChange (p : Fin 2) (up : Bool) (s : State) : Outcome := .next (s.enLink p.val up)
def execEthernetFrameReceive (p : Fin 2) (frame : Bytes) (ok : Bool) (s : State) : Outcome := .next (s.ethFrame p.val frame ok)

end Sys2Proof.Machine
end

