-- ==== Sys2Proof/Machine/ObjectRead.lean ====
section
/-! DEFINITION. Reading objects (chapters 14 and 15): the values that object tables call a view of the machine, values in
force, and the checks of a read in the order of R508. -/

namespace Sys2Proof.Machine

/-! ### Views -/

/-- A maximum-width two's complement or unsigned field. -/
def num (n : Nat) (v : Int) : Option Bytes := some (leInt n v)

def bits (n : Nat) (f : Nat → Bool) : Nat := (List.range n).foldl (fun v i => v + b2n (f i) * 2 ^ i) 0

/-- JNL_FILL in KiB, part units counted whole. -/
def kib (n : Nat) : Nat := (n + 1023) / 1024

/-- ENGINE_STATE (Table 15.4). -/
def State.engineState (s : State) : Nat :=
  b2n ((List.range 8).any (fun b => (s.firingJob b).isSome)) + 2 * b2n s.ffy.suspended + 4 * b2n s.safeLow +
    8 * b2n (s.twinState == twJoining || s.twinState == twSyncing || s.twinState == twStandby)

def State.barStaged (s : State) (b : Nat) : Bool := s.hq.jobs.any (fun j => (j.bar b).staged)

/-- BAR_STATE (Table 15.8). -/
def State.barState (s : State) (b : Nat) : Nat :=
  if s.obj (Obj.BAR_ENABLE b) = 0 then 0
  else if (s.firingJob b).isSome then (if s.ffy.suspended then 4 else 3)
  else if s.barStaged b then 2
  else 1

/-- Lines the check lane of bar b is behind its fire lane. -/
def State.checkLag (s : State) (b : Nat) : Nat :=
  (s.hq.jobs.map (fun j => (j.bar b).decoded - (j.bar b).checked)).foldl (· + ·) 0

/-- FFY_STATUS (Table 6.6). -/
def State.ffyStatus (s : State) : Nat :=
  b2n s.ffy.track + 2 * b2n s.ffy.suspended +
    4 * b2n (s.ffy.suspended && s.obj Obj.FFY_RESUME_MODE == 1 && !s.ffy.resumed)

/-- OVF_LIST: 64 entries of INDEX, SUB and ELEMENT. -/
def State.ovfBytes (s : State) : Bytes :=
  slice ((s.toa.ovfList.map (fun e => layout 8 [(0, 2, e.1), (2, 1, e.2.1), (4, 2, e.2.2)])).flatten) 0 512

def State.commitTable (s : State) : Bytes := slice ((s.toa.pending.map CommitSet.entry).flatten) 0 256

def State.commitHistory (s : State) : Bytes := slice ((s.toa.history.map CommitSet.entry).flatten) 0 512

/-- BASE_TABLE (Table 2.15). -/
def State.baseTable (s : State) : Bytes :=
  let st := fun (x : BaseState) => match x with | .landing => 1 | .registered => 2 | .retiring => 3
  slice ((s.hq.bases.map (fun b => layout 16 [(0, 4, b.id), (4, 2, b.lines), (6, 1, b.mask), (7, 1, st b.st),
    (8, 2, (s.hq.jobs.filter (fun j => j.baseId == b.id)).length)])).flatten) 0 256

/-- The supervisor's session, 0 for none. -/
def State.superSession (s : State) : Nat := ((s.toa.sessions.find? (fun x => x.super)).map (fun x => x.id)).getD 0

/-- A lane's transmitter is driving: its block is on and the lane in use, and it is not in near-end loopback. -/
def State.txOn (s : State) (n : Nat) : Bool :=
  let near := s.obj (Obj.LANE_MODE n) == 1 && s.obj (Obj.LANE_LOOP n) == 1
  let test := s.obj (Obj.LANE_MODE n) == 1
  s.ready (Obj.domain (0x6C00 + 4 * n)) && !near &&
    (test ||
      (if n < 128 then s.hlOn n
       else if n < 144 then s.hq.linkUp
       else if n < 160 then (List.range 4).any (fun c => s.obj (Obj.CAM_ENABLE c) == 1 &&
         decide (s.objN (Obj.CAM_LINK_FIRST c) ≤ n - 144) &&
         decide (n - 144 < s.objN (Obj.CAM_LINK_FIRST c) + s.objN (Obj.CAM_LINKS c)))
       else if n < 172 then s.obj Obj.TWIN_ENABLE == 1
       else s.obj (Obj.EN_ENABLE (n - 172)) == 1))

def rat9 : Rat := ((10 ^ 9 : Nat) : Rat)

/-- Views of the engine: indexes below 0x3000. -/
def State.viewEngine (s : State) (k : Nat) : Option Bytes :=
  if k = Obj.SESSION_COUNT then num 1 s.toa.sessions.length
  else if k = Obj.SUPERVISOR_SESSION then num 4 s.superSession
  else if k = Obj.JNL_SEQ_NEXT then num 8 s.jnl.seq
  else if k = Obj.JNL_FILL then num 4 (kib s.jnlFill)
  else if k = Obj.JNL_STATUS then num 1 (putBit (s.objN Obj.JNL_STATUS) 1 s.jnlHigh)
  else if k = Obj.ENGINE_STATE then num 2 s.engineState
  else if k = Obj.BARS_IDLE then num 1 (bits 8 s.barIdle)
  else if k = Obj.BARS_STAGED then num 1 (bits 8 s.barStaged)
  else if k = Obj.JOBS_IN_FLIGHT then num 1 s.jobsInFlight
  else if k = Obj.COMMIT_PENDING then num 1 s.toa.pending.length
  else if k = Obj.COMMIT_TABLE then some s.commitTable
  else if k = Obj.COMMIT_HISTORY then some s.commitHistory
  else if k = Obj.COMMIT_LAST then num 4 s.toa.commitLast
  else if k = Obj.OVF_LIST then some s.ovfBytes
  else if k = Obj.FFY_STATUS then num 1 s.ffyStatus
  else if k = Obj.FFY_HWM then num 8 s.ffy.hwm
  else if k = Obj.FFY_EST_POS then num 8 (q32Of s.ffy.p)
  else if k = Obj.FFY_EST_SPEED then num 4 (f32OfRat (s.ffy.v * rat9))
  else if k = Obj.FFY_EST_ACCEL then num 4 (f32OfRat (s.ffy.a * rat9 * rat9))
  else if k = Obj.CAL_PROPOSALS then some s.calProposals
  else if k = Obj.CAL_IMAGE then some s.calImage
  else if k = Obj.TIME_NOW then some (slice s.fullTime 0 16)
  else if k = Obj.TIME_STAMP_NOW then num 4 s.stamp
  else if k = Obj.TIME_RATE then num 4 (clampI (-2147483648) 2147483647 ((s.time.rate * 1000).floor))
  else if k = Obj.TIME_HOLD_S then
    num 4 (min (2 ^ 32 - 1) (s.objN Obj.TIME_HOLD_S + (if s.time.state = 3 then s.holdSec else 0)) : Nat)
  else if k = Obj.CLK_STATUS then num 2 s.clkStatus
  else if k = Obj.SAFE_OUT_STATE then num 8 s.safeOutState
  else if k = Obj.SF_ACTIVE then num 1 s.sfActive
  else none

/-- Views of bar b: `o` is the offset in its range, `sub` the subindex. -/
def State.viewBar (s : State) (b o sub : Nat) : Option Bytes :=
  match o, sub with
  | 0x00, 2 => num 1 (s.barState b)
  | 0x00, 3 => num 4 ((s.firingJob b).map (fun j => j.id) |>.getD 0 : Nat)
  | 0x00, 4 => num 2 (bits 16 (fun p => s.inService (headOf b p)))
  | 0x40, 6 => num 1 (s.fireLane b).buf.length
  | 0x40, 8 => num 4 (s.checkLag b)
  | 0x60, 6 => num 8 (((s.firingJob b).bind (fun j => j.startOn b)).getD 0)
  | 0x60, 10 => num 1 (s.objN (Obj.FFY_BAR_STATUS b) / 8 * 8 + b2n (s.firingJob b).isSome + 2 * b2n s.ffy.suspended +
      4 * b2n (s.barIdle b))
  | 0xC0, 7 => num 1 (s.objN (Obj.CAL_STATUS b) / 4 * 4 + s.calBarStatus b)
  | _, _ => none

/-- Views of head h. -/
def State.viewHead (s : State) (h o sub : Nat) : Option Bytes :=
  match o, sub with
  | 0x10, 1 => num 2 (s.countStatus h nozSuspect)
  | 0x10, 2 => num 2 (s.countStatus h nozDead)
  | 0x10, 3 => num 2 (s.countStatus h nozRetired)
  | 0x10, 4 => num 8 (s.wearMaxOf h)
  | _, _ => none

/-- Views of axis x. -/
def State.viewAxis (s : State) (x o sub : Nat) : Option Bytes :=
  let m := s.ax x
  match o, sub with
  | 0x00, 7 => num 8 (q32Of m.p)
  | 0x00, 8 => num 4 (f32OfRat m.v)
  | 0x00, 9 => num 4 (f32OfRat m.a)
  | 0x18, 8 => num 4 (match s.axLoop x with | some l => (s.loop l).u.getD 0 0 | none => 0 : Nat)
  | 0x30, 1 =>
    let v := putBit (s.objN (Obj.AX_STATUS x)) 0 m.atRest
    num 4 (putBit (putBit v 3 (s.limActive x false)) 4 (s.limActive x true))
  | 0x30, 4 => num 8 (q32Of (s.fbPos x))
  | _, _ => none

/-- Views of PWM, valve, GPIO and ADC objects and of the loops. -/
def State.viewIo (s : State) (idx sub : Nat) : Option Bytes :=
  if 0x5800 ≤ idx then
    if idx % 0x40 = 0 ∧ sub = 7 then num 1 ((s.loopAxis ((idx - 0x5800) / 0x40)).getD 0xFF : Nat) else none
  else if idx < 0x5620 then if sub = 4 then num 1 (s.ownerOf (idx - 0x5600)) else none
  else if idx < 0x5630 then
    if sub = 4 then num 1 (s.ownerOf (0x40 + (idx - 0x5620)))
    else if sub = 5 then num 1 (b2n (s.valveLevel (idx - 0x5620)) + 2 * b2n s.valveHeld)
    else none
  else if idx = 0x5640 then if sub = 5 then num 4 s.gpioUse else none
  else if idx = 0x5650 then if sub = 3 then some s.adcValue else none
  else none

/-- Views of the web, the axis encoders and the compare outputs. -/
def State.viewWeb (s : State) (idx sub : Nat) : Option Bytes :=
  if idx < 0x6100 then
    if idx % 0x80 = 0 then
      let w := (idx - 0x6000) / 0x80
      if sub = 8 then num 8 (s.chan (.web w)).pos else if sub = 9 then num 4 (s.chan (.web w)).rev else none
    else if idx = 0x6020 ∧ sub = 2 then num 8 s.web.pos
    else none
  else if idx < 0x6300 then if sub = 3 then num 8 (s.chan (.axis ((idx - 0x6100) / 0x10))).pos else none
  else if sub = 10 then
    let k := (idx - 0x6300) / 8
    num 2 (s.objN (Obj.CMP_STATUS k) / 2 ^ 14 * 2 ^ 14 + (s.cmp k).entry % 4096 + 4096 * b2n (s.cmp k).armed)
  else none

/-- Views of the remaining ranges. -/
def State.viewOther (s : State) (idx sub : Nat) : Option Bytes :=
  if idx = 0x6800 ∧ sub = 5 then some s.dramRegions
  else if 0x6C00 ≤ idx ∧ idx < 0x6EB8 then
    if idx % 4 = 0 ∧ sub = 3 then
      let n := (idx - 0x6C00) / 4
      num 2 (putBit (s.objN (Obj.LANE_STATUS n)) 0 (s.txOn n))
    else none
  else if idx = 0x7000 ∧ sub = 3 then num 4 (kib s.nimBacklog)
  else if idx = 0x7800 then
    match sub with
    | 1 => some s.fltTable
    | 3 => some (s.fecBytes safety)
    | 4 => some (s.fecBytes serviceF)
    | 5 => some (s.fecBytes advisory)
    | 10 => num 1 s.fltStatus
    | _ => none
  else if idx = 0x7C00 ∧ sub = 10 then num 1 s.syncJobs
  else if 0x8000 ≤ idx ∧ idx < 0x8080 then
    if sub = 2 then some (s.wearTable (idx - 0x8000)) else if sub = 4 then some (s.defectMap (idx - 0x8000)) else none
  else if idx = 0x8300 then if sub = 1 then num 1 s.hq.bases.length else some s.baseTable
  else if 0x8400 ≤ idx ∧ idx < 0x8420 then if sub = 1 then some (s.traceData (idx - 0x8400)) else none
  else if idx = 0xF000 ∧ sub = 2 then num 1 s.injected
  else none

/-- The value of an object whose table calls it a view of the machine. -/
def State.view (s : State) (k : Nat) : Option Bytes :=
  let idx := k / 256
  let sub := k % 256
  if idx < 0x3000 then s.viewEngine k
  else if idx < 0x3800 then s.viewBar ((idx - 0x3000) / 0x100) (idx % 0x100) sub
  else if 0x4000 ≤ idx ∧ idx < 0x5000 then s.viewHead ((idx - 0x4000) / 0x20) (idx % 0x20) sub
  else if 0x5000 ≤ idx ∧ idx < 0x5600 then s.viewAxis ((idx - 0x5000) / 0x40) (idx % 0x40) sub
  else if 0x5600 ≤ idx ∧ idx < 0x6000 then s.viewIo idx sub
  else if 0x6000 ≤ idx ∧ idx < 0x6380 then s.viewWeb idx sub
  else s.viewOther idx sub

/-- The value of an object in force, as bytes. -/
def State.value (s : State) (k : Nat) : Bytes :=
  match s.view k with
  | some b => b
  | none =>
    match Obj.find k with
    | some (r, _) => if 12 ≤ r.ty then s.blob k 0 (s.blobLen k) else Obj.encode r.ty (s.obj k)
    | none => []

/-! ### Sessions -/

def State.session? (s : State) (id : Nat) : Option Session := s.toa.sessions.find? (fun x => x.id == id)

def State.mapSession (s : State) (id : Nat) (f : Session → Session) : State :=
  { s with toa := { s.toa with sessions := s.toa.sessions.map (fun x => if x.id = id then f x else x) } }

/-- The session holds supervisor rights (R315). -/
def State.isSuper (s : State) (id : Nat) : Bool := (s.session? id).any (fun x => x.super)

/-- The access of a session to an object, as a fault carries it (Table 20.2). -/
def toaAccess (sess k access : Nat) : FaultAccess :=
  { initiator := 2, access := access, idx := k / 256, sub := k % 256, kind := 0, addr := 0, sess := sess }

/-- Whether the block of an object answers; WEAR and WEAR_RESTORE also need DRAM's domain (Table 15.1). The domain that does
not. -/
def State.offDomain (s : State) (k : Nat) : Option Nat :=
  let d := Obj.domain (k / 256)
  let isWear := decide (0x8000 ≤ k / 256) && decide (k / 256 < 0x8080) && (k % 256 == 2 || k % 256 == 3)
  if !s.ready d then some d else if isWear && !s.ready 2 then some 2 else none

/-! ### Reads -/

/-- TRACE_DATA of a loop that is recording (R365). -/
def State.traceBusy (s : State) (k : Nat) : Bool :=
  let l := k / 256 - 0x8400
  decide (0x8400 ≤ k / 256 ∧ l < 32 ∧ k % 256 = 1) && (s.obj (Obj.LP_TR_STATE l) == 1 || s.obj (Obj.LP_TR_STATE l) == 2)

/-- What a read of an object answers: status, type code and value. -/
structure ReadRes where
  st : State
  status : Nat
  ty : Nat := 0
  data : Bytes := []

/-- READ of one object (R303, R508). `staged` answers the value staged in the session's set where it holds one
(READ_SHADOW). A read of SEC_DEBUG_CHALLENGE draws a nonce (R452). -/
def State.readObj (s : State) (sess k : Nat) (staged : Bool) : ReadRes :=
  if k % 256 = 0 then
    match Obj.countOf (k / 256) with
    | some n => { st := s, status := 0, ty := 2, data := le 1 n }
    | none => { st := s, status := 1 }
  else
    match Obj.find k with
    | none => { st := s, status := 1 }
    | some (r, _) =>
      if r.acc = .wo then { st := s, status := 2, ty := r.ty }
      else
        match s.offDomain k with
        | some d => { st := s.offAccess d (toaAccess sess k 0), status := 5, ty := r.ty }
        | none =>
          if s.traceBusy k then { st := s, status := 0x0A, ty := r.ty }
          else if k = Obj.SEC_DEBUG_CHALLENGE then
            let x := s.debugChallenge (s.isSuper sess)
            { st := x.1, status := x.2.1, ty := r.ty, data := x.2.2 }
          else
            match (if staged then (s.session? sess).bind (fun x => x.staging.find? (fun y => y.key == k)) else none) with
            | some y => { st := s, status := 0, ty := r.ty, data := y.value }
            | none => { st := s, status := 0, ty := r.ty, data := s.value k }

end Sys2Proof.Machine
end

