-- ==== Sys2Proof/Machine/ObjectCheck.lean ====
section
/-! DEFINITION. Checks of a written object value in the order of R508: access right, type and length, encoding, range, and
the whole-table checks of the chapters. -/

namespace Sys2Proof.Machine

/-! ### Steps 1 and 2: the object and its access right (R303, R325, R428) -/

/-- Objects a card without fire authority takes writes of (R428). -/
def standbyWrites (k : Nat) : Bool :=
  let idx := k / 256
  (0x7C00 ≤ idx && idx < 0x7D00) || idx == 0x1110 || idx == 0x1111 || k == Obj.FLT_CLEAR

/-- The status of the first two steps for a write; 0 where both pass. SEC_LIFECYCLE has its own sessions (R451). -/
def State.writeAccess (s : State) (sess k : Nat) : Nat :=
  match Obj.find k with
  | none => if k % 256 = 0 ∧ (Obj.countOf (k / 256)).isSome then 2 else 1
  | some (r, _) =>
    if r.acc = .ro then 2
    else if !s.hasAuthority && !standbyWrites k then 2
    else if (r.acc = .rws ∨ r.acc = .rwbs) ∧ !s.isSuper sess ∧ k ≠ Obj.SEC_LIFECYCLE then 7
    else 0

/-! ### Step 3: type and length (R302) -/

/-- Most bytes an object's value holds. -/
def valueMax (k : Nat) (r : Obj.ObjRow) : Nat :=
  if r.ty < 12 then Obj.tyBytes r.ty
  else if r.ty = 12 then 64
  else if r.len ≠ 0 then r.len
  else if k = Obj.CAL_RESTORE then 2 ^ 24
  else 32768

/-- A length that a value of the object can have. -/
def lengthOk (k : Nat) (r : Obj.ObjRow) (n : Nat) : Bool :=
  if r.ty < 12 then n == Obj.tyBytes r.ty
  else if r.ty = 12 ∨ k = Obj.CAL_RESTORE then decide (n ≤ valueMax k r)
  else if r.len ≠ 0 then n == r.len
  else decide (0 < n) && n % r.esz == 0 && decide (n ≤ valueMax k r)

/-! ### Step 5: encoding and fixed ranges (R302) -/

def encodingOk (ty : Nat) (d : Bytes) : Bool :=
  if ty = 1 then decide (unle d ≤ 1)
  else if ty = 10 then f32Finite (unle d)
  else if ty = 12 then utf8Ok (d.length + 1) d
  else true

/-- The fixed range of an object's table; `v` is its value, the encoding for an F32. -/
def rangeOk (r : Obj.Rng) (v : Int) : Bool :=
  match r with
  | .any => true
  | .int lo hi => decide (lo ≤ v) && decide (v ≤ hi)
  | .zeroOr lo hi => v == 0 || (decide (lo ≤ v) && decide (v ≤ hi))
  | .orFF hi => v == 0xFF || (decide (0 ≤ v) && decide (v ≤ hi))
  | .mult m lo hi => decide (lo ≤ v) && decide (v ≤ hi) && v % m == 0
  | .list l => l.any (fun (x : Int × Int) => decide (x.1 ≤ v) && decide (v ≤ x.2))
  | .real lo hi => decide (lo ≤ f32Val v.toNat) && decide (f32Val v.toNat ≤ hi)
  | .posReal => decide (0 < f32Val v.toNat)
  | .pin => !bitAt v.toNat 5

/-! ### Step 5: ranges that depend on other values, and fields -/

/-- Reserved bits of ENC_STATUS and AXE_STATUS (R9, R126). -/
def encRsvd : Nat := 0x01FFFF60
def axeRsvd : Nat := 0x233FFF62

/-- Codes of Table 17.1 for an input or reference of loop l. -/
def sourceOk (l v : Nat) : Bool :=
  decide (v < 0x28) || (decide (0x30 ≤ v) && decide (v < 0x48)) || (decide (0x50 ≤ v) && decide (v < 0x68)) ||
    (decide (0x70 ≤ v) && decide (v < 0x88)) || (decide (0x90 ≤ v) && decide (v < 0xFE) && (v - 0x90) / 4 != l) ||
    v == 0xFE || v == 0xFF

/-- Destinations of LP_OUT_DST. -/
def destOk (v : Nat) : Bool := decide (v < 0x20) || (decide (0x40 ≤ v) && decide (v < 0x50)) || v == 0xFF

def allCodes (n v : Nat) (f : Nat → Bool) : Bool := (List.range n).all (fun i => f (field v (8 * i) 8))

/-- LP_DIMS: n 1 to 8, m 1 to 4, p 0 to 4, q 1 to 4. -/
def dimsOk (v : Nat) : Bool :=
  let n := field v 0 4
  let m := field v 4 4
  let p := field v 8 4
  let q := field v 12 4
  decide (1 ≤ n ∧ n ≤ 8 ∧ 1 ≤ m ∧ m ≤ 4 ∧ p ≤ 4 ∧ 1 ≤ q ∧ q ≤ 4)

/-- AXE_SSI_FRAME (R124). -/
def ssiFrameOk (v : Nat) : Bool :=
  let p := field v 0 6
  field v 24 8 == 0 && field v 6 10 == 0 && decide (8 ≤ p) && decide (p ≤ 40) &&
    decide (field v 16 4 + p + field v 20 2 + field v 22 1 ≤ 48)

/-- The value an object would have with a session's staging set in force. -/
def State.stagedOr (s : State) (sess k : Nat) : Int :=
  match (s.session? sess).bind (fun x => x.staging.find? (fun y => y.key == k)) with
  | some y => Obj.decode (keyType k) y.bytes
  | none => s.obj k

/-- Web channels, axis encoders and compare outputs. -/
def State.fieldWeb (s : State) (idx sub n : Nat) : Bool :=
  if idx < 0x6020 ∨ (0x6080 ≤ idx ∧ idx < 0x6100) then
    let w := (idx - 0x6000) / 0x80
    if sub = 5 then
      let r := s.objN (Obj.ENC_REV_COUNTS w)
      if r = 0 then n == 0 else decide (n < r)
    else if sub = 11 then n &&& encRsvd == 0
    else true
  else if 0x6100 ≤ idx ∧ idx < 0x6300 then
    if sub = 4 then n &&& axeRsvd == 0 else if sub = 8 then ssiFrameOk n else true
  else true

/-- Axes and loops. -/
def State.fieldMotion (s : State) (idx sub : Nat) (v : Int) : Bool :=
  let n := v.toNat
  if idx < 0x5600 then
    let x := (idx - 0x5000) / 0x40
    if idx % 0x40 = 0 then
      if sub = 12 then decide (v < s.obj (Obj.AX_SOFT_MAX x))
      else if sub = 13 then decide (s.obj (Obj.AX_SOFT_MIN x) < v)
      else if sub = 15 then decide (f32Val n ≠ 0) && decide (absQ (f32Val n) ≤ s.objF (Obj.AX_VMAX x))
      else true
    else true
  else if idx < 0x5800 then true
  else
    let l := (idx - 0x5800) / 0x40
    let o := idx % 0x40
    if o = 0 then
      if sub = 2 then dimsOk n else if sub = 4 then decide (n < s.objN (Obj.LP_DIV l)) else true
    else if o = 0x10 then
      if sub = 1 ∨ sub = 4 then allCodes 4 n (sourceOk l) else if sub = 6 then allCodes 4 n destOk else true
    else if o = 0x30 then if sub = 1 then allCodes 8 n (fun c => decide (c < 64)) else true
    else true

/-- Cameras and Nimbus. -/
def State.fieldCam (s : State) (sess idx sub n : Nat) : Bool :=
  if idx < 0x6500 then
    let c := (idx - 0x6400) / 0x40
    if idx % 0x40 = 0 ∧ sub = 8 then decide (n < s.objN (Obj.CAM_WIDTH c))
    else if idx % 0x40 = 0 ∧ sub = 9 then
      decide (s.stagedOr sess (Obj.CAM_PX_FIRST c) ≤ (n : Int)) && decide (n < s.objN (Obj.CAM_WIDTH c))
    else true
  else if idx = 0x6500 ∧ sub = 5 then decide (s.stagedOr sess Obj.NIM_COL_SUSPECT ≤ (n : Int))
  else true

/-- Ranges of scalar objects that depend on other values, and their fields. -/
def State.fieldOk (s : State) (sess k : Nat) (v : Int) : Bool :=
  let idx := k / 256
  let sub := k % 256
  if idx = 0x2040 ∧ isGain k then
    s.gainsMeet (⟨k, leInt 4 v⟩ :: ((s.session? sess).map (fun x => x.staging)).getD [])
  else if 0x4000 ≤ idx ∧ idx < 0x5000 then
    idx % 0x20 != 8 || (sub != 1 && sub != 2) || decide ((v.natAbs : Int) ≤ 16 * s.obj Obj.FFY_LINE_PITCH)
  else if 0x5000 ≤ idx ∧ idx < 0x6000 then s.fieldMotion idx sub v
  else if 0x6000 ≤ idx ∧ idx < 0x6400 then s.fieldWeb idx sub v.toNat
  else if 0x6400 ≤ idx ∧ idx < 0x6600 then s.fieldCam sess idx sub v.toNat
  else true

/-! ### Step 5: whole tables -/

/-- A pulse word of a waveform table has no reserved bit set (R174). -/
def pulseRsvdOk (w : Nat) : Bool := field w 60 3 == 0 && field w 0 8 == 0

def pulseValid (w : Nat) : Bool := bitAt w 63

/-- Start and end of a pulse in 10 ns units. -/
def pulseStart (w : Nat) : Nat := field w 36 12
def pulseEndAt (w : Nat) : Nat := field w 36 12 + field w 28 8 + field w 16 12 + field w 8 8

/-- The pulses of an entry (R175): the valid ones come first, none starts before the one before it ends, and the last ends in
time. -/
def entryOk (limit : Nat) (ws : List Nat) : Bool :=
  let valid := ws.filter pulseValid
  ws.all pulseRsvdOk && ws.take valid.length == valid &&
    (valid.zip (valid.drop 1)).all (fun (x : Nat × Nat) => decide (pulseEndAt x.1 ≤ pulseStart x.2)) &&
    (match valid.getLast? with | some w => decide (pulseEndAt w ≤ limit) | none => true)

/-- A waveform table passes R175. -/
def waveOk (d : Bytes) : Bool :=
  decide (d.length = 140) && byteAt d 0 == 1 && getN d 1 3 == 0 && getN d 136 4 == crc32c (d.take 136) &&
    (List.range 4).all (fun v => entryOk (if v = 0 then 380 else 800)
      ((List.range 4).map (fun k => getN d (8 + 32 * v + 8 * k) 8)))

/-- The values of a table of n-byte words. -/
def tableWords (n : Nat) (d : Bytes) : List Nat := (List.range (d.length / n)).map (fun i => getN d (n * i) n)

/-- NIM_S3_RECT: all zero, or every field in its range. -/
def s3Ok (d : Bytes) : Bool :=
  allZero d ||
    (decide (1 ≤ getN d 2 2) && decide (getN d 2 2 ≤ 4096) && decide (1 ≤ getN d 6 2) && decide (getN d 6 2 ≤ 4096) &&
      decide (1 ≤ getN d 8 2) && decide (byteAt d 10 < 2) && byteAt d 11 == 0)

/-- An entry of HALO_PRES_WIN. -/
def presEntryOk (w : Nat) : Bool :=
  field w 49 15 == 0 && (!bitAt w 48 || (decide (1 ≤ field w 32 16) && decide (field w 32 16 ≤ 10000)))

/-- The whole-table checks of BLOB objects; `d` is the whole table. NOZZLE_PARAM and counters are checked element by element. -/
def tableOk (k : Nat) (d : Bytes) : Bool :=
  let idx := k / 256
  let sub := k % 256
  if (waveBar k).isSome then waveOk d
  else if 0x6300 ≤ idx ∧ idx < 0x6380 then (tableWords 8 d).all (fun w => field w 48 14 == 0)
  else if 0x3000 ≤ idx ∧ idx < 0x3800 then sub != 2 || (tableWords 8 d).all (fun w => field w 48 15 == 0)
  else if 0x5800 ≤ idx ∧ idx < 0x6000 then
    (tableWords 4 d).all (fun w => f32Finite w &&
      (!(idx % 0x40 == 0x20) || (decide (0 ≤ f32Val w) && decide (f32Val w ≤ 1))))
  else if 0x6400 ≤ idx ∧ idx < 0x6500 then
    sub != 3 || idx % 0x40 != 2 || (tableWords 2 d).all (fun w => decide (-8192 ≤ sext 16 w ∧ sext 16 w ≤ 8191))
  else if k = Obj.NIM_S3_RECT then s3Ok d
  else if k = Obj.CIC_CAP_GPIO then d.all (fun b => !bitAt b.toNat 5)
  else if k = Obj.CIC_ADC_WIN then (tableWords 8 d).all (fun w => field w 49 15 == 0 && field w 32 16 == 0)
  else if k = Obj.HALO_PRES_WIN then (tableWords 8 d).all presEntryOk
  else if k = Obj.DRAM_PORT_TARGET then (tableWords 4 d).all (fun w => decide (100 ≤ w) && decide (w ≤ 10000000))
  else if 0x8000 ≤ idx ∧ idx < 0x8080 then sub != 3 || (tableWords 8 d).all (fun w => field w 48 15 == 0)
  else true

/-- Elements of a table that a write carries: first and count. -/
abbrev Spans := List (Nat × Nat)

def inSpans (l : Spans) (i : Nat) : Bool := l.any (fun (x : Nat × Nat) => decide (x.1 ≤ i) && decide (i < x.1 + x.2))

/-- Every element that a write of a table of counters carries is zero (R24, R180). -/
def spansZero (esz : Nat) (d : Bytes) (l : Spans) : Bool :=
  l.all (fun (x : Nat × Nat) => allZero (slice d (x.1 * esz) (x.2 * esz)))

/-- The words that a write of NOZZLE_PARAM carries have no reserved bit set and change no STATUS to SUSPECT (R161). -/
def State.paramsOk (s : State) (h : Nat) (d : Bytes) (l : Spans) : Bool :=
  (List.range 8192).all (fun n => !inSpans l n ||
    (let w := getN d (4 * n) 4
     field w 0 6 == 0 && (field w 10 2 != nozSuspect || s.nozStatus h n == nozSuspect)))

/-- The encoding, range and whole-table checks of a value (step 5). -/
def State.valueOk (s : State) (sess k : Nat) (r : Obj.ObjRow) (d : Bytes) (l : Spans) : Bool :=
  if r.ty = 13 then
    if r.ctr then spansZero r.esz d l
    else match paramHead k with
      | some h => s.paramsOk h d l
      | none => tableOk k d
  else
    let v := Obj.decode r.ty d
    encodingOk r.ty d && (if r.ctr then v == 0 else rangeOk r.rng v && s.fieldOk sess k v)

end Sys2Proof.Machine
end

