-- ==== Sys2Proof/Machine/ObjectWrite.lean ====
section
/-! DEFINITION. Writing objects (R303, R317, R319, R320, R508): the rules of each object in its chapter, staging of shadow
objects, and block transfers. -/

namespace Sys2Proof.Machine

/-! ### Own rules of the objects: identity, time, power -/

/-- An IPv4 address with a zero or all-ones host part under a port's prefix, or a multicast address (R329). -/
def State.badIp4 (s : State) (p v : Nat) : Bool :=
  let m := 2 ^ (32 - s.objN (Obj.IP4_PREFIX p))
  decide (0xE0000000 ≤ v ∧ v < 0xF0000000) || (decide (1 < m) && (v % m == 0 || v % m == m - 1))

/-- A write that R329 refuses: 4, 10, or 0 where it is accepted. -/
def State.enRefusal (s : State) (p sub v : Nat) (d : Bytes) : Nat :=
  if sub = 4 then
    if v ≠ 0 ∧ (s.badIp4 p v ∨ s.objN (Obj.IP4_ADDR (1 - p)) = v) then 4 else 0
  else if sub = 6 then if v ≠ 0 ∧ s.badIp4 p v then 4 else 0
  else if sub = 7 then if !allZero d && s.blob (Obj.IP6_ADDR (1 - p)) 0 16 == d then 4 else 0
  else if sub = 2 then
    if v = 1 ∧ s.laneTest (172 + p) then 10
    else if v = 0 ∧ s.obj (Obj.EN_ENABLE (1 - p)) ≠ 1 ∧ !s.hq.linkUp then 10
    else 0
  else 0

/-- The objects of Ethernet port p; every change is journaled (R330). -/
def State.writeEn (s : State) (p k v : Nat) (d : Bytes) : State × Nat :=
  let st := s.enRefusal p (k % 256) v d
  if st ≠ 0 then (s, st)
  else
    let same := s.value k == d
    let s := s.setValue k d
    (if same then s else s.journal 0x0A (objListEntry k (keyType k) d), 0)

/-- Regions from r on that hold live data (R374). -/
def State.regionsLive (s : State) (r : Nat) : Bool :=
  (decide (r ≤ regJournal) && (s.jnlFill != 0 || s.jobsInFlight != 0)) ||
    (decide (r ≤ regTwin) && s.twinState != twSolo) ||
    (decide (r ≤ regEvidence) && s.obj Obj.NIM_ENABLE == 1) ||
    (decide (r ≤ regPool) && (!s.hq.jobs.isEmpty || !s.hq.bases.isEmpty)) || s.generalLive

/-- A write of a region size (R374): every region after the written one moves and loses its contents. -/
def State.regionSet (s : State) (k r v : Nat) : State × Nat :=
  let t := s.setObj k (v : Nat)
  if s.laidOut ∧ s.usable < sumTo t.regionSizes 6 then (s, 0x04)
  else if s.regionsLive r then (s, 0x0A)
  else if s.objN k = v ∨ !s.laidOut then (t, 0)
  else
    let first := min (s.region (r + 1)).1 (t.region (r + 1)).1
    let t := { t with dram := t.dram.filter (fun e => decide (e.1 < first)) }
    (if r ≤ regEvidence then (t.setObj Obj.NIM_EVID_PROD 0).setObj Obj.NIM_EVID_FREE 0 else t, 0)

/-- A pin named by a pin object is an output (R370). -/
def State.pinOut (s : State) (v : Nat) : Bool := decide (v < 32) && s.objBit Obj.GPIO_DIR v

/-- A byte of CIC_CAP_GPIO or CIC_WAKE_PIN names an output pin. -/
def State.cicPinOut (s : State) (v : Nat) : Bool := !bitAt v 7 && s.pinOut (field v 0 5)

/-- An entry of HALO_PRES_WIN watches a channel that is not converted (R367). -/
def State.presUnconverted (s : State) (d : Bytes) : Bool :=
  (List.range 16).any (fun c => bitAt (getN d (8 * c) 8) 48 && !s.objBit Obj.ADC_ENABLE c)

/-- The key slot of a session's supervisor rights. -/
def State.slotOf (s : State) (sess : Nat) : Nat :=
  match s.session? sess with
  | some x => if x.super then x.slot else 0xFF
  | none => 0xFF

/-- Accepted as it stands. -/
def State.plain (s : State) (k : Nat) (d : Bytes) : State × Nat := (s.setValue k d, 0)

/-- Security objects (R441, R450 to R452). -/
def State.writeSec (s : State) (c : Ctx) (k v : Nat) (d : Bytes) : State × Nat :=
  let super := s.isSuper c.sess
  let mailbox := decide (2 ≤ c.transport)
  if k = Obj.SEC_LIFECYCLE then s.lifecycleSet v super mailbox
  else if k = Obj.SEC_SVN_COMMIT then (s.svnCommit, 0)
  else if k = Obj.SEC_KEY_PROVISION then s.keyProvision d super mailbox
  else if k = Obj.SEC_KEY_REVOKE then s.keyRevoke v (s.slotOf c.sess)
  else if k = Obj.SEC_MAKER_KEY then s.makerKeySet d super mailbox
  else if k = Obj.SEC_DEBUG_KEY then s.debugKeySet d super mailbox
  else if k = Obj.SEC_DEBUG_RESPONSE then s.debugResponse d super
  else (s.debugClose, 0)

/-- PTP_DOMAIN is written while its slot is disabled, and the two slots' numbers differ (Table 13.2). -/
def State.ptpDomainSet (s : State) (i v : Nat) : State × Nat :=
  if s.objN (Obj.PTP_DOMAIN (1 - i)) = v then (s, 0x04)
  else if s.obj (Obj.PTP_ENABLE i) = 1 then (s, 0x0A)
  else (s.setObj (Obj.PTP_DOMAIN i) (v : Nat), 0)

/-- Identity, engine, time and power objects: indexes below 0x3000. -/
def State.writeEngine (s : State) (c : Ctx) (k v : Nat) (d : Bytes) : State × Nat :=
  if k / 256 = 0x1110 ∨ k / 256 = 0x1111 then s.writeEn (k / 256 - 0x1110) k v d
  else if k = Obj.JNL_STORE_MIB then s.regionSet k regJournal v
  else if k = Obj.JNL_RING_MASK then ((s.setValue k d).jnlRelease, 0)
  else if k / 256 = 0x1900 then s.writeSec c k v d
  else if k = Obj.JOB_ABORT then s.abortJob v
  else if k = Obj.PSN_NEXT then s.writePsn v
  else if k = Obj.COMMIT_CANCEL then s.cancelSet v (s.isSuper c.sess)
  else if k = Obj.FFY_RESUME then (s.resume, 0)
  else if k = Obj.CAL_ACCEPT then s.calAcceptSet v
  else if k = Obj.CAL_REJECT then s.calRejectSet v
  else if k = Obj.CAL_RUN then s.calRunSet v
  else if k = Obj.CAL_RESTORE then s.calRestoreSet d
  else if k = Obj.TIME_PREF then s.timePrefSet v
  else if k = Obj.TIME_STEP then s.hostStep d
  else if k = Obj.PTP_ENABLE 0 then (s.ptpEnableSet 0 v, 0)
  else if k = Obj.PTP_ENABLE 1 then (s.ptpEnableSet 1 v, 0)
  else if k = Obj.PTP_DOMAIN 0 then s.ptpDomainSet 0 v
  else if k = Obj.PTP_DOMAIN 1 then s.ptpDomainSet 1 v
  else if k = Obj.PPS_IN_ENABLE ∨ k = Obj.PPS_IN_SOURCE then ((s.setValue k d).chooseSource, 0)
  else if k = Obj.PWR_TARGET then s.pwrTargetSet v
  else if k = Obj.CIC_CAP_GPIO then (if d.any (fun b => s.cicPinOut b.toNat) then (s, 0x04) else s.plain k d)
  else if k = Obj.CIC_WAKE_PIN then (if s.cicPinOut v then (s, 0x04) else s.plain k d)
  else if k = Obj.RST_REQUEST then s.rstRequestSet v
  else if k = Obj.HALO_PRES_WIN then (if s.presUnconverted d then (s, 0x04) else s.plain k d)
  else s.plain k d

/-! ### Bars and heads -/

def State.writeBar (s : State) (k : Nat) (d : Bytes) : State × Nat :=
  let b := (k / 256 - 0x3000) / 0x100
  if k = Obj.SCB_LEAD_MIN b then (s.setObj k (s.fireLane b).buf.length, 0) else s.plain k d

def State.writeHead (s : State) (k v : Nat) (d : Bytes) : State × Nat :=
  let h := (k / 256 - 0x4000) / 0x20
  if k = Obj.HL_ENABLE h then s.hlEnable h v
  else if k = Obj.FFY_HOT_LIMIT h then ((s.setValue k d).sendHotLimit h, 0)
  else s.plain k d

/-! ### Axes, outputs, loops -/

/-- The profile is planned anew at the next sample (R335). -/
def State.axLimits (s : State) (x k : Nat) (d : Bytes) : State × Nat :=
  ((s.setValue k d).setAx x (fun m => { m with dirty := true }), 0)

/-- Written only while AXEN is deasserted (R340). -/
def State.whileOff (s : State) (busy : Bool) (k : Nat) (d : Bytes) : State × Nat :=
  if busy then (s, 0x0A) else s.plain k d

/-- AX_CUR_PWM (R347, R371). -/
def State.curPwmSet (s : State) (x k v : Nat) (d : Bytes) : State × Nat :=
  if v < 32 ∧ s.objN k ≠ v ∧ s.ownerOf v ≠ 0 then (s, 0x04) else ((s.setValue k d).curRefresh x, 0)

def State.writeAxis (s : State) (k : Nat) (v : Int) (d : Bytes) : State × Nat :=
  let x := (k / 256 - 0x5000) / 0x40
  let n := v.toNat
  if k = Obj.AX_TARGET x then s.axTargetSet x v
  else if k = Obj.AX_VMAX x then
    (if s.obj (Obj.AX_OUT_MODE x) = 1 ∧ s.stepRate x < f32Val n then (s, 0x04) else s.axLimits x k d)
  else if k = Obj.AX_ACC x ∨ k = Obj.AX_DEC x ∨ k = Obj.AX_JERK x then s.axLimits x k d
  else if k = Obj.AX_STOP x then s.axStopSet x
  else if k = Obj.AX_HOME x then s.axHomeSet x
  else if k = Obj.AX_OUT_MODE x ∨ k = Obj.AX_LOOP x ∨ k = Obj.AX_ENC x then s.whileOff (s.axBit x bAxen) k d
  else if k = Obj.AX_ENABLE x then s.axEnableSet x n
  else if k = Obj.AX_LIM_NEG_PIN x ∨ k = Obj.AX_LIM_POS_PIN x ∨ k = Obj.AX_HOME_PIN x then
    (if s.pinOut n then (s, 0x04) else s.plain k d)
  else if k = Obj.AX_MODE x then s.axModeSet x n
  else if k = Obj.AX_CUR_PWM x then s.curPwmSet x k n d
  else if k = Obj.AX_RUN_CUR x ∨ k = Obj.AX_IDLE_CUR x then ((s.setValue k d).curRefresh x, 0)
  else if k = Obj.AX_CAM_ENGAGE x then s.camEngageSet x n
  else if k = Obj.AX_FE_PEAK x then (s.setObj k 0, 0)
  else s.plain k d

def State.writeIo (s : State) (k v : Nat) (d : Bytes) : State × Nat :=
  let idx := k / 256
  let sub := k % 256
  if idx < 0x5620 then if sub = 3 then s.dutySet false (idx - 0x5600) v else s.plain k d
  else if idx < 0x5630 then if sub = 3 then s.dutySet true (idx - 0x5620) v else s.plain k d
  else if k = Obj.GPIO_DIR then s.gpioDirSet v
  else if k = Obj.GPIO_OUT then ((s.setValue k d).gpioReadback, 0)
  else if k = Obj.ADC_ENABLE then s.adcSet false v
  else if k = Obj.ADC_RATE then s.adcSet true v
  else s.plain k d

def State.writeLoop (s : State) (k v : Nat) (d : Bytes) : State × Nat :=
  let l := (k / 256 - 0x5800) / 0x40
  let on := s.obj (Obj.LP_ENABLE l) == 1
  if k = Obj.LP_ENABLE l then s.lpEnableSet l v
  else if k = Obj.LP_MODE l then s.lpModeSet l v
  else if k = Obj.LP_DIMS l ∨ k = Obj.LP_DIV l ∨ k = Obj.LP_PHASE l ∨ k = Obj.LP_IN_SRC l ∨ k = Obj.LP_REF_SRC l ∨
      k = Obj.LP_OUT_DST l ∨ k = Obj.LP_AW_MODE l then s.whileOff on k d
  else if k = Obj.LP_LAW_0 l then ((s.setValue k d).lpLawWritten l 0, 0)
  else if k = Obj.LP_LAW_1 l then ((s.setValue k d).lpLawWritten l 1, 0)
  else if k = Obj.LP_FE_PEAK l then (s.setObj k 0, 0)
  else if k = Obj.LP_TR_ARM l then s.trArmSet l v
  else if k = Obj.LP_TR_FORCE l then s.trForceSet l
  else s.plain k d

/-! ### Web, encoders, compare outputs -/

/-- Write 1 to clear the bits of a mask. -/
def State.clearBits (s : State) (k mask v : Nat) : State × Nat :=
  (s.setObj k ((s.objN k - (s.objN k &&& (mask &&& v)) : Nat) : Int), 0)

/-- The frame time of an SSI axis plus its recovery time fits its sample period (R124). -/
def State.ssiFits (s : State) (x : Nat) : Bool :=
  let f := s.objN (Obj.AXE_SSI_FRAME x)
  let clk := s.objN (Obj.AXE_SSI_CLK x)
  let nbits := field f 16 4 + field f 0 6 + field f 20 2 + field f 22 1
  decide ((nbits * 1000 + s.objN (Obj.AXE_SSI_RECOVERY x) * clk) * s.objN (Obj.AXE_SSI_RATE x) ≤ 1000000 * clk)

/-- An SSI object: set while off, and within the sample period. -/
def State.ssiSet (s : State) (x k : Nat) (d : Bytes) : State × Nat :=
  if s.obj (Obj.AXE_MODE x) ≠ 0 then (s, 0x0A)
  else
    let t := s.setValue k d
    if t.ssiFits x then (t, 0) else (s, 0x04)

def State.writeWeb (s : State) (k v : Nat) (d : Bytes) : State × Nat :=
  let idx := k / 256
  if idx < 0x6020 ∨ (0x6080 ≤ idx ∧ idx < 0x6100) then
    let w := (idx - 0x6000) / 0x80
    if k = Obj.ENC_ENABLE w then s.encEnable w v
    else if k = Obj.ENC_PATH w ∨ k = Obj.ENC_FILTER w ∨ k = Obj.ENC_REV_COUNTS w ∨ k = Obj.ENC_INDEX_POS w ∨
        k = Obj.ENC_INDEX_MODE w then s.whileOff (s.obj (Obj.ENC_ENABLE w) == 1) k d
    else if k = Obj.ENC_STATUS w then s.clearBits k 0xF0000000 v
    else s.plain k d
  else if k = Obj.WEB_SEL then s.selectWeb v
  else if idx < 0x6100 then s.plain k d
  else if idx < 0x6300 then
    let x := (idx - 0x6100) / 0x10
    if k = Obj.AXE_MODE x then (s.setAxeMode x v, 0)
    else if k = Obj.AXE_FILTER x then s.whileOff (s.obj (Obj.AXE_MODE x) != 0) k d
    else if k = Obj.AXE_SSI_CLK x ∨ k = Obj.AXE_SSI_FRAME x ∨ k = Obj.AXE_SSI_RATE x ∨ k = Obj.AXE_SSI_RECOVERY x then
      s.ssiSet x k d
    else if k = Obj.AXE_STATUS x then s.clearBits k 0xD0800000 v
    else s.plain k d
  else
    let i := (idx - 0x6300) / 8
    if k = Obj.CMP_ARM i then (s.cmpArm i v, 0) else s.plain k d

/-! ### Cameras, Nimbus, DRAM, lanes and the rest -/

def State.writeCam (s : State) (k v : Nat) (d : Bytes) : State × Nat :=
  if k = Obj.NIM_EVID_SIZE then s.regionSet k regEvidence v
  else if k = Obj.NIM_EVID_FREE then s.evidFree v
  else if 0x6500 ≤ k / 256 then s.plain k d
  else
    let c := (k / 256 - 0x6400) / 0x40
    if k = Obj.CAM_ENABLE c then
      let x := s.camEnableSet c v
      (x.1.flushStats, x.2)
    else if k = Obj.CAM_LINK_FIRST c ∨ k = Obj.CAM_LINKS c ∨ k = Obj.CAM_PIXEL_FORMAT c ∨ k = Obj.CAM_WIDTH c then
      s.whileOff (s.camState c != camOff) k d
    else if k = Obj.CAM_ACQUIRE c then s.camAcquireSet c
    else if k = Obj.CAM_SET_LATENCY c then s.whileOff (s.camState c == camAcquiring) k d
    else if k = Obj.CAM_REG_OP c then s.camRegOp c v
    else s.plain k d

def State.writeLane (s : State) (c : Ctx) (k v : Nat) (d : Bytes) : State × Nat :=
  let n := (k / 256 - 0x6C00) / 4
  if k = Obj.LANE_RATE n then s.laneRateSet n v
  else if k = Obj.LANE_MODE n then s.laneModeSet n v c.transport
  else if k = Obj.LANE_LOOP n then s.laneLoopSet n v
  else if k = Obj.LANE_SLIP n then s.laneSlip n
  else if k = Obj.LANE_RETRAIN n then s.laneRetrain n
  else if k = Obj.LANE_EYE_START n then s.eyeStart n v
  else if k = Obj.LANE_PAT_GEN n ∨ k = Obj.LANE_PAT_CHK n then s.lanePat n k v
  else if k = Obj.LANE_INJECT n then s.laneInjectSet n v
  else s.plain k d

/-- TWIN_ENABLE does not bring up a link whose lane is in TEST_LOOP (R222). -/
def State.writeTwin (s : State) (k v : Nat) (d : Bytes) : State × Nat :=
  if k = Obj.TWIN_ENABLE then
    if v = 1 ∧ (List.range 12).any (fun t => s.laneTest (160 + t)) then (s, 0x0A) else (s.twinEnableSet v, 0)
  else if k = Obj.TWIN_CMD then s.twinCmd v
  else s.plain k d

/-- Nozzle and cam tables (R180, R181, R350). -/
def State.writeTable (s : State) (k : Nat) (d : Bytes) (l : Spans) : State × Nat :=
  let idx := k / 256
  if 0x8200 ≤ idx then s.camTableSet (idx - 0x8200) d
  else if k % 256 = 2 then (l.foldl (fun s (x : Nat × Nat) => s.clearWear (idx - 0x8000) x.1 x.2) s, 0)
  else if (s.headDev (idx - 0x8000)).drops then (s, 0x0A)
  else (s.restoreWear (idx - 0x8000) 0 (tableWords 8 d), 0)

def State.writeLast (s : State) (c : Ctx) (k v : Nat) (d : Bytes) : State × Nat :=
  if k = Obj.DRAM_RATE then s.dramRateSet v
  else if k = Obj.DRAM_POOL_GIB then s.regionSet k regPool v
  else if k = Obj.STR_ABORT then s.strAbortSet v
  else if k = Obj.FLT_CLEAR then s.fltClearSet v c.sess (s.isSuper c.sess)
  else if k = Obj.FLT_FEC_CLEAR then (s.fecClearSet v, 0)
  else if k = Obj.DIAG_INJECT then s.injectSet v
  else s.plain k d

/-- A host write of zero to a counter, or to elements of a table of counters (R24). -/
def State.clearElems (s : State) (k : Nat) (r : Obj.ObjRow) (l : Spans) : State :=
  let s := (List.range (r.len / r.esz)).foldl (fun s e =>
    if inSpans l e then (s.setBlob k (r.esz * e) (zeros r.esz)).clearOvf k e else s) s
  if 0x6810 ≤ k / 256 ∧ k / 256 < 0x6818 then
    s.setBit (k / 256 * 256 + 6) 2 ((List.range 10).any (fun e => s.blobN k (4 * e) 4 == 2 ^ 32 - 1))
  else s

def State.writeCounter (s : State) (k : Nat) (r : Obj.ObjRow) (d : Bytes) (l : Spans) : State :=
  if r.ty = 13 then
    if k / 256 / 0x100 = 0x80 then (s.writeTable k d l).1 else s.clearElems k r l
  else if 0x6C00 ≤ k / 256 ∧ k / 256 < 0x6EB8 then (s.prbsSync ((k / 256 - 0x6C00) / 4)).clearCounter k
  else s.clearCounter k

/-- The own rules of an object (step 6): the status, and the effect where it is OK. -/
def State.writeRule (s : State) (c : Ctx) (k : Nat) (v : Int) (d : Bytes) (l : Spans) : State × Nat :=
  let idx := k / 256
  let n := v.toNat
  if idx < 0x3000 then s.writeEngine c k n d
  else if idx < 0x4000 then s.writeBar k d
  else if idx < 0x5000 then s.writeHead k n d
  else if idx < 0x5600 then s.writeAxis k v d
  else if idx < 0x5800 then s.writeIo k n d
  else if idx < 0x6000 then s.writeLoop k n d
  else if idx < 0x6400 then s.writeWeb k n d
  else if idx < 0x6600 then s.writeCam k n d
  else if 0x6C00 ≤ idx ∧ idx < 0x6F00 then s.writeLane c k n d
  else if 0x7C00 ≤ idx ∧ idx < 0x7D00 then s.writeTwin k n d
  else if 0x8000 ≤ idx ∧ idx < 0x8300 then s.writeTable k d l
  else s.writeLast c k n d

/-! ### Staging (R320) -/

/-- What a write answers: the status, and the bytes its readback digest covers. -/
structure WriteRes where
  st : State
  status : Nat
  held : Bytes := []

def sizeOf' (l : List Staged) : Nat := (l.map (fun x => x.value.length)).foldl (· + ·) 0

/-- A value goes into the session's staging set. -/
def State.stage (s : State) (sess k : Nat) (b : Bytes) : WriteRes :=
  match s.session? sess with
  | none => { st := s, status := 7 }
  | some x =>
    let new : Staged := ⟨k, b⟩
    let rest := x.staging.filter (fun y => y.key != k)
    if 256 ≤ rest.length ∨ 2 ^ 24 < sizeOf' rest + new.value.length then { st := s, status := 0x0A }
    else { st := s.mapSession sess (fun x => { x with staging := rest ++ [new] }), status := 0, held := new.value }

/-- The bytes staged for NOZZLE_PARAM: the words, then one byte a word: bit 0 written, bit 1 a host write of STATUS (R161). -/
def State.stageParams (s : State) (h : Nat) (d : Bytes) (l : Spans) : Bytes :=
  d ++ (List.range 8192).map (fun n =>
    if inSpans l n then (if field (getN d (4 * n) 4) 10 2 = s.nozStatus h n then 1 else 3) else 0)

/-- Steps 5 and 6 of R508 for a whole value; `l` are the elements of a table that were written. -/
def State.writeValue (s : State) (c : Ctx) (k : Nat) (r : Obj.ObjRow) (d : Bytes) (l : Spans) : WriteRes :=
  if !s.valueOk c.sess k r d l then { st := s, status := 4 }
  else if r.acc = .rwb ∨ r.acc = .rwbs then
    s.stage c.sess k (match paramHead k with | some h => s.stageParams h d l | none => d)
  else if r.ctr then
    let t := (s.writeCounter k r d l)
    let t := if twinShared k then t.forward (.objWrite k d) else t
    { st := t, status := 0, held := t.value k }
  else
    let x := s.writeRule c k (Obj.decode r.ty d) d l
    if x.2 ≠ 0 then { st := x.1, status := x.2 }
    else
      let t := if twinShared k then x.1.forward (.objWrite k d) else x.1
      { st := t, status := 0, held := if r.acc = .wo then d else t.value k }

/-- The elements of a whole table. -/
def wholeSpans (r : Obj.ObjRow) (d : Bytes) : Spans := if r.esz = 0 then [] else [(0, d.length / r.esz)]

def State.dropTransfer (s : State) (sess : Nat) : State := s.mapSession sess (fun x => { x with transfer := none })

/-- WRITE of one object (R317, R508). A plain write of a whole BLOB acts as one block with FIRST and FINAL. -/
def State.objWrite (s : State) (c : Ctx) (k ty : Nat) (d : Bytes) : WriteRes :=
  let a := s.writeAccess c.sess k
  if a ≠ 0 then { st := s, status := a }
  else
    match Obj.find k with
    | none => { st := s, status := 1 }
    | some (r, _) =>
      if ty ≠ r.ty ∨ !lengthOk k r d.length then { st := s, status := 3 }
      else
        match s.offDomain k with
        | some dom => { st := s.offAccess dom (toaAccess c.sess k 1), status := 5 }
        | none => (if r.ty = 13 then s.dropTransfer c.sess else s).writeValue c k r d (wholeSpans r d)

/-! ### Block transfers (R318, R319) -/

/-- The working copy a block with FIRST opens. -/
def State.freshCopy (s : State) (k : Nat) (r : Obj.ObjRow) : Bytes :=
  if r.acc = .wo then zeros r.len else s.value k

/-- Put a block into a working copy, extended with zeros where it is shorter. -/
def putBlock (copy : Bytes) (off : Nat) (d : Bytes) : Bytes :=
  Sys2Proof.splice (copy ++ zeros (off + d.length - copy.length)) off d

/-- BLOCK_WRITE of one item: OFFSET, FLAGS, elements. -/
def State.blockWrite1 (s : State) (c : Ctx) (k ty : Nat) (d : Bytes) : WriteRes :=
  let a := s.writeAccess c.sess k
  if a ≠ 0 then { st := s, status := a }
  else
    match Obj.find k with
    | none => { st := s, status := 1 }
    | some (r, _) =>
      if ty ≠ 13 ∨ r.ty ≠ 13 then { st := s, status := 3 }
      else
        let flags := byteAt d 4
        let first := bitAt flags 0
        let el := d.drop 8
        let off := getN d 0 4
        let esz := max r.esz 1
        let shape := decide (8 ≤ d.length) && decide (flags < 4) && getN d 5 3 == 0
        let fits := shape && el.length % esz == 0 && decide (off * esz + el.length ≤ valueMax k r)
        let tr := (s.session? c.sess).bind (fun x => x.transfer)
        let mine := tr.any (fun t => t.key == k)
        if !fits then { st := if first then s.dropTransfer c.sess else s, status := 8 }
        else if !first && !mine then { st := s, status := 8 }
        else
          match s.offDomain k with
          | some dom => { st := s.offAccess dom (toaAccess c.sess k 1), status := 5 }
          | none =>
            let t : Transfer := if first then { key := k, copy := s.freshCopy k r }
              else tr.getD { key := k, copy := [] }
            if k / 256 / 0x100 = 0x80 ∧ k % 256 = 2 ∧ !allZero el then { st := s, status := 4 }
            else
              let copy := putBlock t.copy (off * esz) el
              let l := t.written ++ [(off, el.length / esz)]
              if bitAt flags 1 then
                (s.dropTransfer c.sess).writeValue c k r copy l
              else
                { st := s.mapSession c.sess (fun x => { x with transfer := some { key := k, copy := copy, written := l } })
                  status := 0, held := copy }

/-- BLOCK_READ of one item: OFFSET and NUM in elements. `room` is how many bytes of elements fit. -/
def State.blockRead1 (s : State) (sess k : Nat) (d : Bytes) (room : Nat) : ReadRes :=
  match Obj.find k with
  | none => if k % 256 = 0 ∧ (Obj.countOf (k / 256)).isSome then { st := s, status := 3, ty := 2 } else { st := s, status := 1 }
  | some (r, _) =>
    if r.acc = .wo then { st := s, status := 2, ty := r.ty }
    else if r.ty ≠ 13 then { st := s, status := 3, ty := r.ty }
    else if d.length ≠ 8 then { st := s, status := 8, ty := r.ty }
    else
      let x := s.readObj sess k false
      if x.status ≠ 0 then x
      else
        let esz := max r.esz 1
        let total := x.data.length / esz
        let off := getN d 0 4
        if total ≤ off then { st := x.st, status := 4, ty := r.ty }
        else
          let n := min (min (getN d 4 4) (total - off)) (room / esz)
          { st := x.st, status := 0, ty := r.ty
            data := le 4 total ++ le 2 esz ++ [0, 0] ++ slice x.data (off * esz) (n * esz) }

end Sys2Proof.Machine
end

