-- ==== Sys2Proof/Machine/TwinRx.lean ====
section
/-! DEFINITION. The receiving side of the twin link (R423, R425, R426, R429, R431, R436): a received frame is acknowledged in
sequence and its item applied. -/

namespace Sys2Proof.Machine

/-- The card follows the active chip: it applies what is forwarded. -/
def State.follows (s : State) : Bool :=
  s.twinState == twJoining || s.twinState == twSyncing || s.twinState == twStandby

/-! ### Link and roles -/

/-- Frames up to `n` are acknowledged. -/
def State.rxAck (s : State) (n : Nat) : State :=
  s.setTwin (fun t => { t with
    unacked := t.unacked.filter (fun (e : Nat × TwinItem × Nat) => !decide (fwd32 e.1 n < 2 ^ 31)) })

/-- The partner names its state (R421, R430 to R432). -/
def State.rxState (s : State) (st id : Nat) : State :=
  let was := s.twin.partner
  let s := (s.setTwin (fun t => { t with partner := st })).setObj Obj.TWIN_PARTNER_ID (id : Nat)
  if st = twJoining ∧ was ≠ twJoining then s.giveSnapshot
  else if st = twStandby ∧ was ≠ twStandby then s.condEnd 0x1502 0
  else if st = twFaulted ∧ s.twinState = twActive ∧ was = twStandby ∧ !s.twin.handing then s.loseStandby
  else if st = twActive ∧ s.twin.handing then s.setTwin (fun t => { t with stop := some (s.now + 20000) })
  else s

/-! ### Descriptors, chunks, records -/

/-- A forwarded descriptor leaves its ring. -/
def State.rxEat (q cons : Nat) (s : State) : State :=
  (s.setRing q { s.ring q with cons := (cons + 1) % 2 ^ 32, head := none }).psnWatch

def State.rxDescriptor (s : State) (q cons : Nat) (d : Bytes) : State :=
  let eat := State.rxEat q cons
  if 8 ≤ q then eat s
  else if byteAt d 0 = 1 then s.takeJob q d eat
  else if byteAt d 0 = 2 then s.takeBaseRegister q d eat
  else if byteAt d 0 = 3 then s.takeBaseRetire q d eat
  else eat s

def State.rxAppend (x : Stream) (c : Chunk) : Stream :=
  let y : Stream := { x with chunks := x.chunks ++ [c] }
  y.digestNext

/-- A forwarded chunk joins its stream, with its digest. -/
def State.rxChunk (s : State) (b : Nat) (isBase : Bool) (id idx : Nat) (last : Bool) (data : Bytes) : State :=
  let c : Chunk := { idx := idx, last := last, bytes := data }
  s.mapStream isBase id b (fun (x : Stream) => State.rxAppend x c)

/-- The active chip has posted a record: the oldest record held for that ring is not posted again (R435). -/
def State.rxPosted (s : State) (q : Nat) : State :=
  if 16 ≤ q ∧ q ≤ 47 then s.setRing q { s.ring q with held := (s.ring q).held.drop 1 } else s

/-! ### Objects and sets -/

/-- Elements of a table of counters that a forwarded write carries as zero. -/
def zeroElems (esz : Nat) (d : Bytes) : Spans :=
  ((List.range (d.length / esz)).filter (fun e => allZero (slice d (e * esz) esz))).map (fun e => (e, 1))

/-- A write the active chip has executed is executed here (R425). -/
def State.rxWrite (s : State) (k : Nat) (d : Bytes) : State :=
  match Obj.find k with
  | none => s
  | some (r, _) =>
    if r.ctr then s.writeCounter k r d (if r.ty = 13 then zeroElems (max r.esz 1) d else [])
    else (s.writeRule { sess := 0, transport := 2 } k (Obj.decode r.ty d) d (wholeSpans r d)).1

def stagedOf (l : List (Nat × Bytes)) : List Staged := l.map (fun (x : Nat × Bytes) => ⟨x.1, x.2⟩)

/-- A committed set is pending here under the same number. -/
def State.rxSet (s : State) (number cls : Nat) (l : List (Nat × Bytes)) : State :=
  if s.toa.pending.any (fun c => c.number == number) then s
  else
    let items := stagedOf l
    let c : CommitSet :=
      { number := number, cls := cls, items := items, bars := itemsMask keyBars items, cams := itemsMask keyCams items,
        outs := itemsMask keyOuts items, stampCommit := s.stamp }
    ({ s with toa := { s.toa with pending := s.toa.pending ++ [c], commitLast := number } }).refreshSets

/-- A set took effect on the active chip: what has not taken effect here does so now. -/
def State.rxTook (s : State) (number job : Nat) : State :=
  match s.toa.pending.find? (fun c => c.number == number) with
  | none => s
  | some c =>
    let left := if c.cls = 1 then c.waiting else if c.cls = 2 then c.items
      else if c.cls = 3 then c.items.filter (fun x => c.doneCams &&& keyCams x.key == 0) else c.items
    let s := left.foldl (fun s x =>
      match paramHead x.key with
      | some h => s.applyParams h job x.bytes
      | none => s.setValue x.key x.bytes) s
    let s := s.mapPending (fun d => if d.number = number then
      { d with boundJob := if job = 0 then none else some job } else d)
    s.finishSet number 3

/-! ### Departure markers (R426, R429) -/

/-- TWIN_LAG: the spec does not say how the lag is measured, so it is a free value. -/
def State.rxLag (s : State) : State :=
  let x := s.drawNat
  x.2.setObj Obj.TWIN_LAG (x.1 % 2 ^ 32 : Nat)

/-- A line of a job of the snapshot departs: it is not decoded here, and its boundary passes at its bar fire time. -/
def State.departSnap (s : State) (b lseq : Nat) (j : Job) (line : Nat) : State :=
  let s := if line = 0 then s.departPage b lseq j else s
  let j := (s.job? j.id).getD j
  let n := s.snapOf j b
  let d : Departed := { lseq := lseq, job := j.id, line := line, barTime := s.fireAt (n.pos ((j.startOn b).getD 0) line 0) n.flight }
  let s := s.setDeparted b (s.departed b ++ [d])
  let s := { s with ffy := { s.ffy with lseq := Tab.set 0 s.ffy.lseq b ((lseq + 1) % 2 ^ 32) } }
  s.mapJob j.id (fun j => j.setBar b (fun x => { x with departed := x.departed + 1 }))

def State.rxMarker (s : State) (b lseq job line : Nat) : State :=
  match s.job? job with
  | none => s.syncLost b job
  | some j =>
    if lseq ≠ s.nextLseq b ∨ line ≠ (j.bar b).departed then s.syncLost b job
    else if s.twin.jobs.contains job then (s.departSnap b lseq j line).rxLag
    else
      let s := if line = 0 then s.stageJob b job else s
      (s.departLine b ((s.job? job).getD j) line false).rxLag

/-! ### Pages -/

def State.rxVerdict (s : State) (job status : Nat) (reg regAcross : List Int) : State :=
  let s := s.mapJob job (fun j => { j with verdict := some status, unverified := j.unverified || status == 5 })
  ({ s with nim := { s.nim with reg := reg, regAcross := regAcross } }).forgetPage job

/-- A frame has started on the active chip's camera. -/
def State.rxFrame (s : State) (c job number epoch : Nat) : State :=
  let s := (s.bindFrame c job).openPage c job
  let x := s.cam c
  let s := s.setCam c { x with
    frames := x.frames ++ [{ job := job, number := number, epoch := epoch }]
    next := (number + 1) % 2 ^ 32, prevEpoch := some epoch }
  (s.setObj (Obj.CAM_FRAME_NO c) (number : Nat)).setObj (Obj.CAM_SET_EPOCH c) (epoch : Nat)

def State.rxSummary (s : State) (job b blanked : Nat) (errs : List (Nat × Nat × Nat × Nat)) : State :=
  let m : Summary :=
    { blanked := blanked, errs := errs.map (fun (e : Nat × Nat × Nat × Nat) => ⟨e.1, e.2.1, e.2.2.1, e.2.2.2⟩) }
  (s.setTwin (fun t => { t with summaries := t.summaries ++ [(job, b, m)] })).summaryCheck job b

/-! ### The snapshot (R436) -/

def jobStateOf (n : Nat) : JobState :=
  match n with | 0 => .landing | 1 => .accepted | 2 => .fired | _ => .aborted

def baseStateOf (n : Nat) : BaseState :=
  match n with | 0 => .landing | 1 => .registered | _ => .retiring

/-- The first item of a snapshot: what the card held gives way to it. -/
def State.snapStart (s : State) (psn : Nat) (lseq : List Nat) : State :=
  let s := { s with
    objs := s.objs.filter (fun e => !twinShared e.1)
    blobs := s.blobs.filter (fun e => !twinShared (e.1 / 2 ^ 24)) }
  let s := { s with
    hq := { s.hq with jobs := [], bases := [], streams := [], acceptQ := [], psnNext := psn }
    toa := { s.toa with pending := [] } }
  { s with ffy := { s.ffy with
      departed := [], lseq := (List.range 8).foldl (fun t b => Tab.set 0 t b (lseq.getD b 0)) [] } }

def State.snapBase (s : State) (x : Base) : State := { s with hq := { s.hq with bases := s.hq.bases ++ [x] } }

def State.snapJob (s : State) (j : Job) : State :=
  let q := if j.st = .landing then s.hq.acceptQ ++ [({ jobId := j.id, cls := j.cls } : AcceptEnt)] else s.hq.acceptQ
  { s with hq := { s.hq with jobs := s.hq.jobs ++ [j], acceptQ := q } }

/-- A job of the snapshot on one bar. A job past LANDING is not decoded here. -/
def State.snapBar (s : State) (job b departed passed fired st : Nat) (start : Option Int) : State :=
  s.mapJob job (fun j => j.setBar b (fun x =>
    let skip := if j.st = .landing then 0 else j.lines
    { x with
      departed := departed, passed := passed, fired := fired, staged := bitAt st 0, firing := bitAt st 1, done := bitAt st 2
      start := start, decoded := skip, checked := skip }))

/-! ### Time (R427) -/

/-- A two-way exchange: the error against the active chip's time in ps. The spec gives no interval between exchanges, so the time
the integral term takes is a free value. -/
def State.rxTime (s : State) (ps : Int) : State :=
  let s := s.setObj Obj.TWIN_TIME_ERR ps
  if s.hasAuthority then s
  else
    let x := s.drawNat
    x.2.servo (ps * 65536 / 1000) x.1

/-! ### Frames -/

/-- An item a card that follows applies. -/
def State.rxItem (s : State) (i : TwinItem) : State :=
  match i with
  | .descriptor q c d => s.rxDescriptor q c d
  | .chunk b isBase id idx last data => s.rxChunk b isBase id idx last data
  | .posted q _ => s.rxPosted q
  | .objWrite k d => s.rxWrite k d
  | .commitSet n cls l => s.rxSet n cls l
  | .tookEffect n job => s.rxTook n job
  | .marker b lseq job line => s.rxMarker b lseq job line
  | .predictor tr p v a t h => { s with ffy := { s.ffy with track := tr, p := p, v := v, a := a, tLast := t, hwm := h } }
  | .axis x p v a => s.setAx x (fun m => { m with p := p, v := v, a := a })
  | .loopState l mode xh iota u => s.setLoop l (fun t => { t with mode := mode, xh := xh, iota := iota, u := u })
  | .cmpEntry k e => s.setCmp k { s.cmp k with entry := e }
  | .verdict job st reg regAcross => s.rxVerdict job st reg regAcross
  | .band job n => s.mapPage job (fun p => { p with bands := n })
  | .pair key st probe pages => s.setPair (key / 4096) (key % 4096) { state := st, probe := probe, pages := pages }
  | .nozStatus h n st job loss => s.deviceStatus h n st job loss
  | .dead h n old job loss => s.deadDue h n old job loss
  | .camFrame c job n e => s.rxFrame c job n e
  | .summary job b blanked errs => s.rxSummary job b blanked errs
  | .snapObj k v => s.setObj k v
  | .snapByte a v => { s with blobs := Tab.set (Obj.blobDflt (a / 2 ^ 24) (a % 2 ^ 24)) s.blobs a v }
  | .snapCal d => (s.calRestoreSet d).1
  | .snapRegs psn lseq => s.snapStart psn lseq
  | .snapBase id lines mask cls retCls tag st chunks =>
    s.snapBase ⟨id, lines, mask, chunks, cls, retCls, tag, baseStateOf st⟩
  | .snapJob slot id psn cls lines gap mask baseId tag st marks mark onWeb chunks =>
    s.snapJob { slot := slot, id := id, psn := psn, cls := cls, lines := lines, gap := gap, mark := mark, mask := mask,
                baseId := baseId, tag := tag, chunks := chunks, st := jobStateOf st, marks := marks, onWeb := onWeb }
  | .snapBar job b departed passed fired st start => s.snapBar job b departed passed fired st start
  | .snapshotEnd jobs => s.setTwin (fun t => { t with jobs := jobs, snapshot := true })
  | _ => s

/-- An item in sequence. -/
def State.rxApply (s : State) (i : TwinItem) : State :=
  match i with
  | .state st id => s.rxState st id
  | .fault cls => s.takeHeads (if cls = safety then 2 else 3)
  | .handOver => s.takeHeads 4
  | .timeErr ps => s.rxTime ps
  | i => if s.follows then s.rxItem i else s

/-- TWIN_FRAME_RECEIVE (R423): a frame with a bad CRC counts for nothing; a frame in sequence is acknowledged and applied, one
received before is acknowledged again, and one after a gap waits for its retransmission. -/
def State.twinReceive (s : State) (seq : Nat) (crcOk : Bool) (i : TwinItem) : State :=
  if !crcOk || s.obj Obj.TWIN_ENABLE == 0 || !s.ready 3 then s
  else
    let s := if s.twin.up then s else s.twinTrained
    let s := s.setTwin (fun t => { t with lastRx := s.now })
    match i with
    | .heartbeat e => s.setTwin (fun t => { t with epochSeen := e })
    | .ack n => s.rxAck n
    | i =>
      if seq = s.twin.rxSeq then
        let s := s.setTwin (fun t => { t with rxSeq := (seq + 1) % 2 ^ 32 })
        (s.emit (.twin s.twin.txSeq (.ack seq))).rxApply i
      else if 0 < fwd32 seq s.twin.rxSeq ∧ fwd32 seq s.twin.rxSeq < 2 ^ 31 then
        s.emit (.twin s.twin.txSeq (.ack ((s.twin.rxSeq + 2 ^ 32 - 1) % 2 ^ 32)))
      else s

def execTwinFrameReceive (seq : Nat) (crcOk : Bool) (item : TwinItem) (s : State) : Outcome :=
  .next (s.twinReceive seq crcOk item)

end Sys2Proof.Machine
end

