-- ==== Sys2Proof/Machine/Toa.lean ====
section
/-! DEFINITION. Tlaik Object Access (chapter 14): sessions and supervisor rights, the commands, frames in the order of R306, the
mailbox rings and the BAR2 window, and the responses that wait for the handshake of a fall. -/

namespace Sys2Proof.Machine

/-- The object server answers: boot has ended and PD1 is on. -/
def State.toaUp (s : State) : Bool := s.jnl.booted && s.ready 1

def State.setToa (s : State) (f : Toa → Toa) : State := { s with toa := f s.toa }

/-! ### Sessions (R313, R315, R316) -/

/-- SUPERVISOR (Table 14.13): raised and journaled. -/
def State.superEvent (s : State) (why : Nat) (x : Session) : State :=
  let ev := s.eventBytes 0x0E02 0 0 [(12, 1, why), (13, 1, x.slot), (14, 1, x.transport), (16, 4, x.id)]
  (s.push 24 ev).journal 0x0A ev

/-- AUTH_FAIL: raised and journaled. -/
def State.authFailEvent (s : State) (x : Session) (slot transport n : Nat) : State :=
  let ev := s.eventBytes 0x0E03 0 0 [(12, 1, slot), (13, 1, transport), (16, 4, x.id), (20, 1, min n 255)]
  (s.push 24 ev).journal 0x0A ev

/-- Supervisor rights go, with the reason of Table 14.13: the key is erased and the staging set discarded. -/
def State.dropRights (s : State) (id why : Nat) : State :=
  match s.session? id with
  | none => s
  | some x =>
    if x.super then
      (s.mapSession id (fun y => { y with super := false, key := [], staging := [], macFails := 0 })).superEvent why x
    else s

/-- A session closes: its staging set and open transfer go with it. -/
def State.closeSession (s : State) (id why : Nat) : State :=
  if (s.session? id).isNone then s
  else
    (s.dropRights id why).setToa (fun t => { t with
      sessions := t.sessions.filter (fun x => x.id != id), closed := (id :: t.closed).take 256 })

/-- No frame has executed in a session for SESSION_IDLE_S. -/
def State.idleDue (s : State) (x : Session) : Bool := decide (x.lastNs + s.objN Obj.SESSION_IDLE_S * 10 ^ 9 ≤ s.aclkNs)

/-- SESSION_LEASE_S has passed without renewal. -/
def State.leaseDue (s : State) (x : Session) : Bool :=
  x.super && decide (x.leaseNs + s.objN Obj.SESSION_LEASE_S * 10 ^ 9 ≤ s.aclkNs)

def State.lapseDue (s : State) : State :=
  match s.toa.sessions.find? s.leaseDue with
  | some x => s.dropRights x.id 2
  | none => s

/-- Lapses and idle closes that are due come before a frame (Table 14.11). -/
def State.expire (s : State) : State :=
  let s := s.lapseDue
  (s.toa.sessions.filter s.idleDue).foldl (fun s x => s.closeSession x.id 4) s

/-- A frame executes in a session: it and its lease are renewed. -/
def State.touch (s : State) (c : Ctx) : State :=
  s.mapSession c.sess (fun x => { x with
    lastNs := s.aclkNs, transport := c.transport, leaseNs := if x.super then s.aclkNs else x.leaseNs })

/-- What a command leads to: frame status, the bytes of its body, or its items. `pos` is the item whose answer waits for a fall. -/
structure CmdOut where
  st : State
  status : Nat := 0
  body : Bytes := []
  items : List ItemRes := []
  pos : Option Nat := none

/-- An identifier may name a new session. -/
def State.freeId (s : State) (n : Nat) : Bool := n != 0 && (s.session? n).isNone && !s.toa.closed.contains n

/-- OPEN (R313). The identifier is a free value within what R313 admits. -/
def State.openCmd (s : State) (transport seq : Nat) (nonce : Bytes) : CmdOut :=
  let idle := s.objN Obj.SESSION_IDLE_S * 10 ^ 9
  let fresh := s.toa.opens.filter (fun (e : Bytes × Nat × Nat) => decide (s.aclkNs ≤ e.2.2 + idle))
  let s := s.setToa (fun t => { t with opens := fresh })
  match fresh.find? (fun (e : Bytes × Nat × Nat) => e.1 == nonce && (s.session? e.2.1).isSome) with
  | some e => { st := s, body := le 4 e.2.1 }
  | none =>
    if 16 ≤ s.toa.sessions.length then { st := s, status := 0x0A }
    else
      let x := s.drawNat
      let s := x.2
      let id := (((List.range 512).map (fun i => (x.1 + i) % 2 ^ 32)).find? s.freeId).getD 1
      let y : Session :=
        { id := id, seqHi := seq, nonce := nonce, openNs := s.aclkNs, lastNs := s.aclkNs, transport := transport }
      { st := s.setToa (fun t => { t with sessions := t.sessions ++ [y], opens := (nonce, id, s.aclkNs) :: t.opens })
        body := le 4 id }

/-- CLOSE. -/
def State.closeCmd (s : State) (c : Ctx) : CmdOut := { st := s.closeSession c.sess 0 }

/-! ### Authentication (R314, R450) -/

/-- A key slot takes part in authentication. -/
def State.slotUsable (s : State) (k : Nat) : Bool := s.slotIn k && !s.slotRevoked k && s.lifecycle != lcScrapped

/-- The bytes under both HMACs: a string, the session identifier and the two nonces. -/
def authMsg (tag : Bytes) (sess : Nat) (nh nd : Bytes) : Bytes := tag ++ le 4 sess ++ nh ++ nd

/-- "TOA-P" and "TOA-S" in ASCII. -/
def tagProof : Bytes := [0x54, 0x4F, 0x41, 0x2D, 0x50]
def tagSession : Bytes := [0x54, 0x4F, 0x41, 0x2D, 0x53]

/-- AUTH_BEGIN. -/
def State.authBeginCmd (s : State) (c : Ctx) (slot : Nat) (nonce : Bytes) : CmdOut :=
  if s.lifecycle = lcScrapped then { st := s, status := 9 }
  else if 3 < slot then { st := s, status := 4 }
  else if !s.slotUsable slot then { st := s, status := 9 }
  else
    let x := s.draw 16
    { st := x.2.mapSession c.sess (fun y => { y with auth := some (slot, slice nonce 0 16, x.1) }), body := x.1 }

/-- Another session holds supervisor rights. -/
def State.heldElsewhere (s : State) (sess : Nat) : Bool := s.toa.sessions.any (fun x => x.super && x.id != sess)

/-- AUTH_FINISH. A nonce is used once. -/
def State.authFinishCmd (s : State) (c : Ctx) (proof : Bytes) : CmdOut :=
  match s.session? c.sess with
  | none => { st := s, status := 7 }
  | some x =>
    match x.auth with
    | none => { st := s, status := 8 }
    | some (slot, nh, nd) =>
      let s := s.mapSession c.sess (fun y => { y with auth := none })
      let key := s.slotKey slot
      if !s.slotUsable slot then { st := s, status := 9 }
      else if (hmac256 key (authMsg tagProof c.sess nh nd)).take 16 ≠ proof then
        let n := x.authFails + 1
        let s := (s.mapSession c.sess (fun y => { y with authFails := n })).authFailEvent x slot c.transport n
        { st := if 3 ≤ n then s.closeSession c.sess 4 else s, status := 2 }
      else if s.heldElsewhere c.sess then { st := s, status := 0x0A }
      else
        let y : Session := { x with
          auth := none, super := true, slot := slot, key := hmac256 key (authMsg tagSession c.sess nh nd)
          leaseNs := s.aclkNs, macFails := 0, transport := c.transport }
        { st := (s.mapSession c.sess (fun _ => y)).superEvent 1 y }

/-! ### Items (R307, R308, R317 to R319) -/

def itemKey (i : Item) : Nat := i.idx * 256 + i.sub

def pad4 (n : Nat) : Nat := (n + 3) / 4 * 4

/-- The bytes of an item of a response. -/
def ItemRes.bytes (i : ItemRes) : Bytes :=
  layout 8 [(0, 2, i.idx), (2, 1, i.sub), (3, 1, i.status), (4, 1, i.ty), (6, 2, i.data.length)] ++ padTo 4 i.data

def itemCmds : List Nat := [0x10, 0x11, 0x12, 0x20, 0x21]

/-- Form of the items of a command: a READ or READ_SHADOW item has TYPE 0 and no data. -/
def itemsOk (cmd : Nat) (l : List Item) : Bool := l.all (fun i => !(cmd == 0x10 || cmd == 0x12) || (i.ty == 0 && i.data.isEmpty))

/-- A failing item carries no data. -/
def itemOf (i : Item) (status ty : Nat) (data : Bytes) : ItemRes :=
  { idx := i.idx, sub := i.sub, status := status, ty := ty, data := if status = 0 then data else [] }

/-- A READ item: `whole` bytes of data fit in a frame with this item alone. -/
def readItem (s : State) (sess whole : Nat) (staged : Bool) (i : Item) : State × ItemRes :=
  let r := s.readObj sess (itemKey i) staged
  let st := if r.status = 0 ∧ whole < pad4 r.data.length then 4 else r.status
  (r.st, itemOf i st r.ty r.data)

/-- A WRITE or BLOCK_WRITE item: its digest (R317, R319). -/
def writtenItem (i : Item) (w : WriteRes) : State × ItemRes := (w.st, itemOf i w.status i.ty (le 4 (crc32c w.held)))

/-- A BLOCK_READ item: whole elements as far as `room` bytes of the response go. One of which no element fits is answered later. -/
def blockReadItem (s : State) (sess room : Nat) (i : Item) : State × ItemRes :=
  let r := s.blockRead1 sess (itemKey i) i.data ((room - 16) / 4 * 4)
  let none' := r.status = 0 ∧ r.data.length = 8 ∧ getN i.data 4 4 ≠ 0
  (r.st, itemOf i (if none' then 0x0A else r.status) r.ty r.data)

/-- One item of a command. -/
def runItem (cmd : Nat) (c : Ctx) (whole room : Nat) (s : State) (i : Item) : State × ItemRes :=
  if cmd = 0x10 then readItem s c.sess whole false i
  else if cmd = 0x12 then readItem s c.sess whole true i
  else if cmd = 0x20 then blockReadItem s c.sess room i
  else if cmd = 0x11 then writtenItem i (s.objWrite c (itemKey i) i.ty i.data)
  else writtenItem i (s.blockWrite1 c (itemKey i) i.ty i.data)

/-- Items in order while their answers fit; every later one is answered with its header and BUSY, and is not executed. -/
def runItems (cmd : Nat) (c : Ctx) (whole : Nat) : State → Nat → List ItemRes → Option Nat → List Item → CmdOut
  | s, _, acc, pos, [] => { st := s, items := acc, pos := pos }
  | s, left, acc, pos, i :: t =>
    let room := left - 8 * t.length
    let x := runItem cmd c whole room s i
    let n := x.2.bytes.length
    if room < n then { st := s, items := acc ++ (i :: t).map (fun j => itemOf j 0x0A j.ty []), pos := pos }
    else
      let pos := if !s.pwr.asked && x.1.pwr.asked then some acc.length else pos
      runItems cmd c whole x.1 (left - n) (acc ++ [x.2]) pos t

/-- Bytes of a response's body within a frame limit. -/
def State.bodyRoom (s : State) (sess limit : Nat) : Nat := limit - 20 - (if s.isSuper sess then 16 else 0)

/-- READ, WRITE, READ_SHADOW, BLOCK_READ and BLOCK_WRITE. -/
def State.itemCmd (s : State) (cmd : Nat) (c : Ctx) (limit : Nat) (l : List Item) : CmdOut :=
  if !itemsOk cmd l then { st := s, status := 8 }
  else
    let room := s.bodyRoom c.sess limit
    runItems cmd c (room - 8) s room [] none l

/-! ### Commit sets (R320 to R322) -/

def keyClass (k : Nat) : Nat := match Obj.find k with | some (r, _) => r.cls | none => 0

/-- The next commit number: wrapping, never 0. -/
def State.nextCommit (s : State) : Nat :=
  let n := (s.toa.commitLast + 1) % 2 ^ 32
  if n = 0 then 1 else n

def State.unstage (s : State) (sess : Nat) : State := s.mapSession sess (fun x => { x with staging := [] })

/-- An object written in a supervisor session only. -/
def keySuper (k : Nat) : Bool := match Obj.find k with | some (r, _) => r.acc == .rwbs | none => false

/-- COMMIT. -/
def State.commitCmd (s : State) (c : Ctx) : CmdOut :=
  let items := ((s.session? c.sess).map (fun x => x.staging)).getD []
  match items with
  | [] => { st := s, body := zeros 8 }
  | x :: _ =>
    let cls := keyClass x.key
    if items.any (fun y => keyClass y.key != cls) || s.gainsBad items then { st := s.unstage c.sess, status := 4 }
    else if 8 ≤ s.toa.pending.length then { st := s, status := 0x0A }
    else
      let n := s.nextCommit
      let set : CommitSet :=
        { number := n, cls := cls, sess := c.sess, items := items, bars := itemsMask keyBars items, cams := itemsMask keyCams items
          outs := itemsMask keyOuts items, stampCommit := s.stamp, super := items.any (fun y => keySuper y.key) }
      let s := (s.unstage c.sess).setToa (fun t => { t with pending := t.pending ++ [set], commitLast := n })
      let s := (s.forward (.commitSet n cls (items.map (fun y => (y.key, y.bytes))))).startLoads
      { st := s, status := 6, body := le 4 n ++ le 1 cls ++ zeros 3 }

/-- DISCARD. -/
def State.discardCmd (s : State) (c : Ctx) : CmdOut := { st := s.unstage c.sess }

/-! ### Frames (R305 to R308, R312) -/

/-- A response frame. -/
def toaFrame (sess seq cmd status count : Nat) (body : Bytes) (key : Option Bytes) : Bytes :=
  let h := layout 16 [(0, 2, 0x4F54), (2, 1, 1), (3, 1, 1 + 2 * b2n key.isSome), (4, 4, sess), (8, 4, seq), (12, 1, cmd + 0x80),
    (13, 1, status), (14, 2, count)] ++ body
  let m := match key with
    | some k => h ++ (hmac256 k h).take 16
    | none => h
  m ++ le 4 (crc32c m)

/-- The session key, while the session holds supervisor rights. -/
def State.keyOf (s : State) (sess : Nat) : Option Bytes :=
  (s.session? sess).bind (fun x => if x.super then some x.key else none)

/-- The response to a command that has executed. Only OK and BOUNDARY_PENDING carry a body. -/
def CmdOut.frame (o : CmdOut) (sess seq cmd : Nat) : Bytes :=
  let ok := o.status == 0 || o.status == 6
  let body := if ok then o.body ++ (o.items.map ItemRes.bytes).flatten else []
  toaFrame sess seq cmd o.status (if ok then o.items.length else 0) body (o.st.keyOf sess)

/-- Items of a request body: COUNT of them, which fill it; reserved and padding bytes are zero. -/
def parseItems : Nat → Bytes → Option (List Item)
  | 0, b => if b.isEmpty then some [] else none
  | n + 1, b =>
    let len := getN b 6 2
    let pad := pad4 len
    if b.length < 8 + pad ∨ byteAt b 3 ≠ 0 ∨ byteAt b 5 ≠ 0 ∨ !allZero (slice b (8 + len) (pad - len)) then none
    else
      (parseItems n (b.drop (8 + pad))).map (fun t => ⟨getN b 0 2, byteAt b 2, byteAt b 4, slice b 8 len⟩ :: t)

/-- Body length of a command without items. -/
def fixedLen (cmd : Nat) : Option Nat :=
  if cmd = 1 ∨ cmd = 4 then some 16 else if cmd = 3 then some 20
  else if cmd = 2 ∨ cmd = 5 ∨ cmd = 0x30 ∨ cmd = 0x31 then some 0 else none

/-- A command without items. -/
def State.plainCmd (s : State) (cmd : Nat) (c : Ctx) (seq : Nat) (body : Bytes) : CmdOut :=
  if cmd = 1 then (if c.sess = 0 then s.openCmd c.transport seq body else { st := s, status := 8 })
  else if cmd = 2 then s.closeCmd c
  else if cmd = 3 then
    (if allZero (slice body 1 3) then s.authBeginCmd c (byteAt body 0) (slice body 4 16) else { st := s, status := 8 })
  else if cmd = 4 then s.authFinishCmd c body
  else if cmd = 0x30 then s.commitCmd c
  else if cmd = 0x31 then s.discardCmd c
  else { st := s }

/-- R306 step 5 and the execution of a frame: header, body and the frame limits of request and response. -/
def State.runFrame (s : State) (c : Ctx) (seq reqMax limit : Nat) (f : Bytes) : CmdOut :=
  let cmd := byteAt f 12
  let mac := bitAt (byteAt f 3) 1
  let body := (f.take (f.length - 4 - 16 * b2n mac)).drop 16
  let count := getN f 14 2
  let bad : CmdOut := { st := s, status := 8 }
  if byteAt f 3 ≠ 2 * b2n mac ∨ byteAt f 13 ≠ 0 ∨ reqMax < f.length then bad
  else if itemCmds.contains cmd then
    match parseItems count body with
    | none => bad
    | some l => (s.touch c).itemCmd cmd c limit l
  else if fixedLen cmd ≠ some body.length ∨ count ≠ 0 then bad
  else (s.touch c).plainCmd cmd c seq body

/-- What SEQ makes of a frame (R312): executed with H and the record as they then are, a duplicate, or stale. -/
inductive SeqRes
  | run (h mask : Nat)
  | dup
  | stale

def Session.seqCheck (x : Session) (seq : Nat) : SeqRes :=
  let up := fwd32 x.seqHi seq
  let back := fwd32 seq x.seqHi
  if 1 ≤ up ∧ up < 2 ^ 31 then .run seq (if up < 64 then (x.mask * 2 ^ up + 1) % 2 ^ 64 else 1)
  else if back < 64 then (if bitAt x.mask back then .dup else .run x.seqHi (x.mask + 2 ^ back))
  else .stale

/-- Keep a response among the session's 16 latest. -/
def State.cacheRsp (s : State) (sess seq : Nat) (f : Bytes) : State :=
  s.mapSession sess (fun x => { x with cache := ((seq, f) :: x.cache).take 16 })

/-- What a request leads to: a response frame, or none with its DISCARD_CAUSE (Table 14.7); or it waits with a fall. -/
structure Reply where
  st : State
  frame : Option Bytes := none
  cause : Nat := 0
  waits : Bool := false

/-- Step 5 of R306 in a session. A response beyond the limit of its transport executes nothing and is BUSY instead. -/
def State.runNew (s : State) (c : Ctx) (seq reqMax limit : Nat) (f : Bytes) : Reply :=
  let o := s.runFrame c seq reqMax limit f
  let cmd := byteAt f 12
  match o.pos with
  | some p =>
    { st := o.st.setToa (fun t => { t with
        owed := some { sess := c.sess, seq := seq, cmd := cmd, items := o.items, pos := p, dests := [] } })
      waits := true }
  | none =>
    let r := o.frame c.sess seq cmd
    if r.length ≤ limit then { st := o.st.cacheRsp c.sess seq r, frame := some r }
    else
      let e := ({ st := s, status := 0x0A } : CmdOut).frame c.sess seq cmd
      { st := s.cacheRsp c.sess seq e, frame := if e.length ≤ limit then some e else none }

/-- A request seen before: its response again, or nothing. -/
def State.runSeen (s : State) (c : Ctx) (seq limit : Nat) (x : Session) : Reply :=
  match x.cache.find? (fun (e : Nat × Bytes) => e.1 == seq) with
  | some e => { st := s, frame := if e.2.length ≤ limit then some e.2 else none, cause := if e.2.length ≤ limit then 0 else 4 }
  | none =>
    if s.toa.owed.any (fun o => o.sess == c.sess && o.seq == seq) then { st := s, waits := true }
    else { st := s.count Obj.TOA_DUP_CNT 1, cause := 4 }

/-- A request by what its sequence number says: new, seen before, or older than the window. -/
def State.runSeq (s : State) (c : Ctx) (seq reqMax limit : Nat) (f : Bytes) (x : Session) : SeqRes → Reply
  | .stale => { st := s.count Obj.TOA_STALE_CNT 1, cause := 3 }
  | .dup => s.runSeen c seq limit x
  | .run h m => (s.mapSession c.sess (fun x => { x with seqHi := h, mask := m })).runNew c seq reqMax limit f

/-- R306 steps 4 and 5 in a session. -/
def State.inSession (s : State) (c : Ctx) (seq reqMax limit : Nat) (f : Bytes) : Reply :=
  match s.session? c.sess with
  | none => { st := s, frame := some (toaFrame c.sess seq (byteAt f 12) 7 0 [] none) }
  | some x => s.runSeq c seq reqMax limit f x (x.seqCheck seq)

/-- Step 1 of R306. -/
def toaFrameOk (f : Bytes) : Bool :=
  decide (20 ≤ f.length) && getN f 0 2 == 0x4F54 && byteAt f 2 == 1 &&
    getN f (f.length - 4) 4 == crc32c (f.take (f.length - 4))

/-- The MAC of a frame matches a key. -/
def macOk (key f : Bytes) : Bool :=
  let n := f.length - 20
  decide (36 ≤ f.length) && (hmac256 key (f.take n)).take 16 == slice f n 16

/-- A request frame in the order of R306. -/
def State.request (s : State) (transport reqMax limit : Nat) (f : Bytes) : Reply :=
  if !toaFrameOk f then { st := s.count Obj.TOA_CRC_ERR_CNT 1, cause := 1 }
  else
    let s := s.expire
    let sess := getN f 4 4
    let seq := getN f 8 4
    let cmd := byteAt f 12
    let mac := bitAt (byteAt f 3) 1
    let c : Ctx := ⟨sess, transport⟩
    let refuse : Reply := { st := s, frame := some (toaFrame sess seq cmd 7 0 [] (s.keyOf sess)) }
    match s.session? sess with
    | none =>
      if sess = 0 ∧ cmd = 1 ∧ !mac then
        let o := s.runFrame c seq reqMax limit f
        let r := o.frame sess seq cmd
        if r.length ≤ limit then { st := o.st, frame := some r }
        else { st := s, frame := some (toaFrame sess seq cmd 0x0A 0 [] none) }
      else refuse
    | some x =>
      if x.super then
        if !mac then refuse
        else if !macOk x.key f then
          let s := (s.count Obj.TOA_MAC_ERR_CNT 1).mapSession sess (fun y => { y with macFails := y.macFails + 1 })
          { st := if 8 ≤ x.macFails + 1 then s.closeSession sess 3 else s, cause := 2 }
        else (s.mapSession sess (fun y => { y with macFails := 0 })).inSession c seq reqMax limit f
      else if mac then refuse
      else s.inSession c seq reqMax limit f

/-! ### Transports (R309 to R311) -/

/-- Send a response, or say that there is none. -/
def State.respond (s : State) (d : Dest) (frame : Option Bytes) (cause : Nat) : State :=
  if d.direct then
    match frame with
    | some f => s.emit (.toa d.transport f)
    | none => s
  else if d.transport = 2 then
    let st := match frame with
      | some f => byteAt f 13
      | none => 8
    let n := match frame with
      | some f => f.length
      | none => 0
    let s := match frame with
      | some f => s.emit (.dma d.addr f)
      | none => s
    s.push (62 + d.ring) (layout 28 [(0, 1, 0x41), (2, 1, st), (3, 1, cause), (4, 4, n), (8, 8, d.tag)])
  else
    { s with hq := { s.hq with windowRsp := frame.getD [], mbBusy := false, mbDone := true, mbRspLen := (frame.getD []).length } }

/-- A request from a transport: its response is sent, or waits with the fall it asked for. -/
def State.serve (s : State) (d : Dest) (reqMax : Nat) (f : Bytes) : State :=
  let r := s.request d.transport reqMax d.limit f
  if r.waits then r.st.setToa (fun t => { t with owed := t.owed.map (fun o => { o with dests := o.dests ++ [d] }) })
  else r.st.respond d r.frame r.cause

/-- TOA_FRAME_RECEIVE. On an Ethernet port the frame is a UDP payload and counts as a frame of the port. -/
def State.toaReceive (s : State) (t : Nat) (f : Bytes) : State :=
  if !s.toaUp then s
  else if t ≤ 1 then
    if s.enUp t then
      let m := s.objN Obj.TOA_MAX_FRAME
      (s.enCount t true).serve { transport := t, limit := m } m f
    else s
  else s.serve { transport := t, limit := 65536 } 65536 f

def mbSizeOk (n : Nat) : Bool := decide (20 ≤ n) && decide (n ≤ 65536)

/-- MAILBOX_DESCRIPTOR at the head of Q60 or Q61; `request` is what the read at REQ_ADDR returned. -/
def State.mailbox (s : State) (r : Nat) (request : Option Bytes) : State :=
  match if s.toaUp then s.headOfType (60 + r) 0x40 else none with
  | none => s
  | some d =>
    let s := s.consume (60 + r)
    let len := getN d 4 4
    let dest : Dest :=
      { transport := 2, limit := getN d 24 4, ring := r, addr := getN d 16 8, tag := getN d 28 8, direct := false }
    if !mbSizeOk len || !mbSizeOk dest.limit then s.respond dest none 5
    else
      match request with
      | none => s.respond dest none 6
      | some f => s.serve dest 65536 (slice f 0 len)

/-- TOA_MB_DOORBELL (R311). -/
def State.windowBell (s : State) (len : Nat) : State :=
  if s.hq.mbBusy || !mbSizeOk len then s.countBadAccess
  else if !s.toaUp then s
  else
    let s := { s with hq := { s.hq with mbBusy := true, mbDone := false } }
    s.serve { transport := 3, limit := 65536, direct := false } 65536 ((List.range len).map (Tab.get (0 : Byte) s.hq.windowReq))

/-- A host write within BAR2 (Table 14.8). -/
def State.writeWindow (s : State) (off : Nat) (d : Bytes) : State :=
  let put := fun (s : State) (e : Byte × Nat) =>
    if e.2 < 0x10000 then { s with hq := { s.hq with windowReq := Tab.set (0 : Byte) s.hq.windowReq e.2 e.1 } } else s
  let s := (d.zipIdx off).foldl put s
  if off ≤ 0x20000 ∧ 0x20004 ≤ off + d.length then s.windowBell (getN d (0x20000 - off) 4) else s

/-! ### Falls (R458): the answer that waits -/

/-- The response that waits is sent with the status the handshake gave. -/
def State.answerOwed (s : State) (st : Nat) : State :=
  let s := (s.setPwr (fun p => { p with asked := false })).setToa (fun t => { t with status := st })
  match s.toa.owed with
  | none => s
  | some o =>
    let items := upd o.items o.pos (fun i => { i with status := st, data := if st = 0 then i.data else [] })
    let f := ({ st := s, items := items } : CmdOut).frame o.sess o.seq o.cmd
    let s := (s.setToa (fun t => { t with owed := none })).cacheRsp o.sess o.seq f
    o.dests.foldl (fun s d => s.respond d (if f.length ≤ d.limit then some f else none) (if f.length ≤ d.limit then 0 else 4)) s

/-- A transition, the answer to a fall sent before PD1 leaves ON. -/
def State.transitionAnswered (s : State) (late : Option Nat) : State :=
  if s.pwrRunning && s.pwr.rising.isNone && !s.pwr.off && s.pwr.asked then
    (s.answerOwed (s.transition late).fallStatus).transition late
  else s.transition late

/-! ### Pair resets (R476) -/

/-- PAIR_RESET: a lockstep mismatch or the watchdog of a pair has latched SF5. Sessions close and rights lapse; committed sets,
jobs, DRAM and the journal stay. -/
def State.pairReset (s : State) (pair : Nat) : State :=
  let source := if (s.fault? 0x1407 pair).isSome then 6 else if (s.fault? 0x140B pair).isSome then 7 else 0
  if source = 0 then s
  else
    let s := s.toa.sessions.foldl (fun s x => s.closeSession x.id 2) s
    let s := (s.setObj Obj.RST_SOURCE (source : Nat)).count Obj.RST_COUNT 1
    s.latch 0x140E safety source [] false false none

/-! ### The commands as rows -/

/-- Keep status and data of a command's outcome. -/
def State.noteCmd (o : CmdOut) : State :=
  o.st.setToa (fun t => { t with status := o.status, answer := o.body ++ (o.items.map ItemRes.bytes).flatten })

/-- Frame limit of the responses of a transport. -/
def State.rspLimit (s : State) (t : Nat) : Nat := if t ≤ 1 then s.objN Obj.TOA_MAX_FRAME else 65536

/-- A command whose frame has passed the checks of R306 up to its SESSION, which is checked here. -/
def State.inCmd (s : State) (c : Ctx) (f : State → CmdOut) : State :=
  if !s.toaUp then s
  else if (s.session? c.sess).isNone then State.noteCmd { st := s, status := 7 }
  else State.noteCmd (f (s.touch c))

def State.itemRow (s : State) (cmd : Nat) (c : Ctx) (l : List Item) : State :=
  s.inCmd c (fun s => s.itemCmd cmd c (s.rspLimit c.transport) l)

def execToaFrameReceive (t : Fin 4) (f : Bytes) (s : State) : Outcome := .next (s.toaReceive t.val f)
def execOpenSession (t : Fin 4) (seq : BitVec 32) (nonce : Bytes) (s : State) : Outcome :=
  .next (if s.toaUp then State.noteCmd (s.openCmd t.val seq.toNat nonce) else s)
def execClose (c : Ctx) (s : State) : Outcome := .next (s.inCmd c (fun s => s.closeCmd c))
def execAuthBegin (c : Ctx) (slot : Nat) (nonce : Bytes) (s : State) : Outcome :=
  .next (s.inCmd c (fun s => s.authBeginCmd c slot nonce))
def execAuthFinish (c : Ctx) (proof : Bytes) (s : State) : Outcome := .next (s.inCmd c (fun s => s.authFinishCmd c proof))
def execPing (c : Ctx) (s : State) : Outcome := .next (s.inCmd c (fun s => { st := s }))
def execRead (c : Ctx) (l : List Item) (s : State) : Outcome := .next (s.itemRow 0x10 c l)
def execWrite (c : Ctx) (l : List Item) (s : State) : Outcome := .next (s.itemRow 0x11 c l)
def execReadShadow (c : Ctx) (l : List Item) (s : State) : Outcome := .next (s.itemRow 0x12 c l)
def execBlockRead (c : Ctx) (l : List Item) (s : State) : Outcome := .next (s.itemRow 0x20 c l)
def execBlockWrite (c : Ctx) (l : List Item) (s : State) : Outcome := .next (s.itemRow 0x21 c l)
def execCommit (c : Ctx) (s : State) : Outcome := .next (s.inCmd c (fun s => s.commitCmd c))
def execDiscard (c : Ctx) (s : State) : Outcome := .next (s.inCmd c (fun s => s.discardCmd c))
def execMailboxDescriptor (q : Fin 2) (request : Option Bytes) (s : State) : Outcome := .next (s.mailbox q.val request)
def execToaMbDoorbell (len : BitVec 32) (s : State) : Outcome :=
  .next (s.onBar 1 0x20000 0 (fun s => s.windowBell len.toNat))
def execSessionIdleClose (sess : Nat) (s : State) : Outcome :=
  .next (if s.toaUp && (s.session? sess).any s.idleDue then s.closeSession sess 4 else s)
def execSupervisorLapse (s : State) : Outcome := .next (if s.toaUp then s.lapseDue else s)
def execPwrTransitionStart (s : State) : Outcome := .next (s.transitionAnswered none)
def execDomainStopTimeout (d : Fin 12) (s : State) : Outcome :=
  .next (if s.fallAsks d.val then s.transitionAnswered (some d.val) else s)
def execPairReset (pair : Fin 2) (s : State) : Outcome := .next (s.pairReset pair.val)

end Sys2Proof.Machine
end

