-- ==== Sys2Proof/Machine/ObjectRows.lean ====
section
/-! DEFINITION. The commands that are a write of one register or one object, and the accesses through BAR4. A write of an object
answers as WRITE does (R317, R508) and leaves its status in `toa.status`. -/

namespace Sys2Proof.Machine

/-- The write of an object from a session, with its type code and value. -/
def State.objCmd (s : State) (c : Ctx) (k ty : Nat) (d : Bytes) : State :=
  s.inCmd c (fun s =>
    let w := s.objWrite c k ty d
    { st := w.st, status := w.status, body := if w.status = 0 then le 4 (crc32c w.held) else [] })

/-- The write of a number: type code and width are the object's; a number the width does not hold has a byte too many. -/
def State.numCmd (s : State) (c : Ctx) (k v : Nat) : State :=
  let n := Obj.tyBytes (keyType k)
  s.objCmd c k (keyType k) (le (if v < 2 ^ (8 * n) then n else n + 1) v)

/-- The write of a table. -/
def State.tableCmd (s : State) (c : Ctx) (k : Nat) (d : Bytes) : State := s.objCmd c k 13 d

/-! ### Register writes (R9, R24, R34) -/

/-- A 4-byte write of BAR0. -/
def State.writeBar0 (s : State) (off v : Nat) : State := if off = 0x200000 then s.hqAbort v else s.writeBar0w off v

/-- A write of BAR0: 8 bytes write two registers, the lower first. -/
def State.hostWrite (s : State) (off size v : Nat) : State :=
  if !bar0Ok off size then s.countBadAccess
  else if size = 4 then s.writeBar0 off (v % 2 ^ 32)
  else (s.writeBar0 off (v % 2 ^ 32)).writeBar0 (off + 4) (v / 2 ^ 32 % 2 ^ 32)

def State.targetWrite (s : State) (t : WriteTarget) : State :=
  match t with
  | .bar0 off size v => s.onBar 3 off 0 (fun s => s.hostWrite off size v)
  | .bar2 off d => s.onBar 1 off 0 (fun s => s.writeWindow off d)
  | .object c idx sub ty d => s.objCmd c (idx * 256 + sub) ty d

/-- The target is a saturating counter. -/
def isCounter (t : WriteTarget) : Bool :=
  match t with
  | .bar0 off _ _ => (decide (off < 0x40000) && off % 0x1000 == 0x24) || off == 0x20000C || off == 0x200010
  | .bar2 _ _ => false
  | .object _ idx sub _ _ => match Obj.find (idx * 256 + sub) with | some (r, _) => r.ctr | none => false

def execRegisterWrite (t : WriteTarget) (s : State) : Outcome := .next (s.targetWrite t)
def execCounterClear (t : WriteTarget) (s : State) : Outcome := .next (if isCounter t then s.targetWrite t else s)

/-! ### BAR4 (R35) -/

def State.bar4Discard (s : State) (off : Nat) : State :=
  s.countBadAccess.latch Config.bar4WriteCode advisory 0 [] false false
    (some { initiator := 1, access := 1, kind := 1, addr := off })

def execBar4Read (off len : Nat) (s : State) : Outcome :=
  .next (s.onBar 2 off len (fun s => s.emit (.readData (s.evidGet (s.hq.aperture + off) len))))
def execBar4Write (off _len : Nat) (s : State) : Outcome := .next (s.onBar 2 off 0 (fun s => s.bar4Discard off))

/-! ### Objects -/

def execJobAbort (c : Ctx) (id : BitVec 32) (s : State) : Outcome := .next (s.numCmd c Obj.JOB_ABORT id.toNat)
def execPsnNext (c : Ctx) (v : BitVec 32) (s : State) : Outcome := .next (s.numCmd c Obj.PSN_NEXT v.toNat)
def execEncEnable (c : Ctx) (w : WebNo) (v : BitVec 8) (s : State) : Outcome := .next (s.numCmd c (Obj.ENC_ENABLE w.val) v.toNat)
def execWebSel (c : Ctx) (v : BitVec 8) (s : State) : Outcome := .next (s.numCmd c Obj.WEB_SEL v.toNat)
def execCmpArm (c : Ctx) (k : CmpNo) (v : BitVec 8) (s : State) : Outcome := .next (s.numCmd c (Obj.CMP_ARM k.val) v.toNat)
def execFfyResume (c : Ctx) (v : BitVec 8) (s : State) : Outcome := .next (s.numCmd c Obj.FFY_RESUME v.toNat)
def execLaneSlip (c : Ctx) (n : LaneNo) (v : BitVec 8) (s : State) : Outcome := .next (s.numCmd c (Obj.LANE_SLIP n.val) v.toNat)
def execHlEnable (c : Ctx) (h : Head) (v : BitVec 8) (s : State) : Outcome := .next (s.numCmd c (Obj.HL_ENABLE h.val) v.toNat)
def execLaneRetrain (c : Ctx) (n : LaneNo) (v : BitVec 8) (s : State) : Outcome := .next (s.numCmd c (Obj.LANE_RETRAIN n.val) v.toNat)
def execLaneEyeStart (c : Ctx) (n : LaneNo) (v : BitVec 8) (s : State) : Outcome := .next (s.numCmd c (Obj.LANE_EYE_START n.val) v.toNat)
def execLaneMode (c : Ctx) (n : LaneNo) (v : BitVec 8) (s : State) : Outcome := .next (s.numCmd c (Obj.LANE_MODE n.val) v.toNat)
def execLaneLoop (c : Ctx) (n : LaneNo) (v : BitVec 8) (s : State) : Outcome := .next (s.numCmd c (Obj.LANE_LOOP n.val) v.toNat)
def execLaneInject (c : Ctx) (n : LaneNo) (v : BitVec 8) (s : State) : Outcome := .next (s.numCmd c (Obj.LANE_INJECT n.val) v.toNat)
def execCamEnable (c : Ctx) (i : CamNo) (v : BitVec 8) (s : State) : Outcome := .next (s.numCmd c (Obj.CAM_ENABLE i.val) v.toNat)
def execCamAcquire (c : Ctx) (i : CamNo) (v : BitVec 8) (s : State) : Outcome := .next (s.numCmd c (Obj.CAM_ACQUIRE i.val) v.toNat)
def execCamRegRead (c : Ctx) (i : CamNo) (s : State) : Outcome := .next (s.numCmd c (Obj.CAM_REG_OP i.val) 1)
def execCamRegWrite (c : Ctx) (i : CamNo) (s : State) : Outcome := .next (s.numCmd c (Obj.CAM_REG_OP i.val) 2)
def execCamSettingsWrite (c : Ctx) (i : CamNo) (s : State) : Outcome := .next (s.numCmd c (Obj.CAM_REG_OP i.val) 3)
def execNimEvidFree (c : Ctx) (v : BitVec 32) (s : State) : Outcome := .next (s.numCmd c Obj.NIM_EVID_FREE v.toNat)
def execCalRun (c : Ctx) (v : BitVec 32) (s : State) : Outcome := .next (s.numCmd c Obj.CAL_RUN v.toNat)
def execCalAccept (c : Ctx) (v : BitVec 32) (s : State) : Outcome := .next (s.numCmd c Obj.CAL_ACCEPT v.toNat)
def execCalReject (c : Ctx) (v : BitVec 32) (s : State) : Outcome := .next (s.numCmd c Obj.CAL_REJECT v.toNat)
def execTimePref (c : Ctx) (v : BitVec 8) (s : State) : Outcome := .next (s.numCmd c Obj.TIME_PREF v.toNat)
def execCommitCancel (c : Ctx) (n : BitVec 32) (s : State) : Outcome := .next (s.numCmd c Obj.COMMIT_CANCEL n.toNat)
def execAxTarget (c : Ctx) (x : Axis) (v : BitVec 64) (s : State) : Outcome := .next (s.numCmd c (Obj.AX_TARGET x.val) v.toNat)
def execAxStop (c : Ctx) (x : Axis) (v : BitVec 8) (s : State) : Outcome := .next (s.numCmd c (Obj.AX_STOP x.val) v.toNat)
def execAxEnable (c : Ctx) (x : Axis) (v : BitVec 8) (s : State) : Outcome := .next (s.numCmd c (Obj.AX_ENABLE x.val) v.toNat)
def execAxHome (c : Ctx) (x : Axis) (v : BitVec 8) (s : State) : Outcome := .next (s.numCmd c (Obj.AX_HOME x.val) v.toNat)
def execAxCamEngage (c : Ctx) (x : Axis) (v : BitVec 8) (s : State) : Outcome := .next (s.numCmd c (Obj.AX_CAM_ENGAGE x.val) v.toNat)
def execAxMode (c : Ctx) (x : Axis) (v : BitVec 8) (s : State) : Outcome := .next (s.numCmd c (Obj.AX_MODE x.val) v.toNat)
def execLpEnable (c : Ctx) (l : LoopNo) (v : BitVec 8) (s : State) : Outcome := .next (s.numCmd c (Obj.LP_ENABLE l.val) v.toNat)
def execLpMode (c : Ctx) (l : LoopNo) (v : BitVec 8) (s : State) : Outcome := .next (s.numCmd c (Obj.LP_MODE l.val) v.toNat)
def execLpTrArm (c : Ctx) (l : LoopNo) (v : BitVec 8) (s : State) : Outcome := .next (s.numCmd c (Obj.LP_TR_ARM l.val) v.toNat)
def execLpTrForce (c : Ctx) (l : LoopNo) (v : BitVec 8) (s : State) : Outcome := .next (s.numCmd c (Obj.LP_TR_FORCE l.val) v.toNat)
def execAdcEnable (c : Ctx) (rate : Bool) (v : BitVec 32) (s : State) : Outcome := .next (s.numCmd c (if rate then Obj.ADC_RATE else Obj.ADC_ENABLE) v.toNat)
def execPwmDuty (c : Ctx) (valve : Bool) (i : Fin 32) (v : BitVec 32) (s : State) : Outcome := .next (s.numCmd c (if valve then Obj.VALVE_DUTY i.val else Obj.PWM_DUTY i.val) v.toNat)
def execGpioDir (c : Ctx) (v : BitVec 32) (s : State) : Outcome := .next (s.numCmd c Obj.GPIO_DIR v.toNat)
def execDramRate (c : Ctx) (v : BitVec 16) (s : State) : Outcome := .next (s.numCmd c Obj.DRAM_RATE v.toNat)
def execStrAbort (c : Ctx) (tag : BitVec 32) (s : State) : Outcome := .next (s.numCmd c Obj.STR_ABORT tag.toNat)
def execFltClear (c : Ctx) (v : BitVec 32) (s : State) : Outcome := .next (s.numCmd c Obj.FLT_CLEAR v.toNat)
def execFltFecClear (c : Ctx) (v : BitVec 8) (s : State) : Outcome := .next (s.numCmd c Obj.FLT_FEC_CLEAR v.toNat)
def execDiagInject (c : Ctx) (v : BitVec 32) (s : State) : Outcome := .next (s.numCmd c Obj.DIAG_INJECT v.toNat)
def execTwinEnable (c : Ctx) (v : BitVec 8) (s : State) : Outcome := .next (s.numCmd c Obj.TWIN_ENABLE v.toNat)
def execTwinHandOver (c : Ctx) (s : State) : Outcome := .next (s.numCmd c Obj.TWIN_CMD 1)
def execTwinForceActive (c : Ctx) (s : State) : Outcome := .next (s.numCmd c Obj.TWIN_CMD 2)
def execSecSvnCommit (c : Ctx) (v : BitVec 8) (s : State) : Outcome := .next (s.numCmd c Obj.SEC_SVN_COMMIT v.toNat)
def execSecLifecycle (c : Ctx) (v : BitVec 8) (s : State) : Outcome := .next (s.numCmd c Obj.SEC_LIFECYCLE v.toNat)
def execSecKeyRevoke (c : Ctx) (v : BitVec 8) (s : State) : Outcome := .next (s.numCmd c Obj.SEC_KEY_REVOKE v.toNat)
def execSecDebugState (c : Ctx) (v : BitVec 8) (s : State) : Outcome := .next (s.numCmd c Obj.SEC_DEBUG_STATE v.toNat)
def execPwrTarget (c : Ctx) (v : BitVec 8) (s : State) : Outcome := .next (s.numCmd c Obj.PWR_TARGET v.toNat)
def execRstRequest (c : Ctx) (s : State) : Outcome := .next (s.numCmd c Obj.RST_REQUEST 1)
def execRstRequestForce (c : Ctx) (s : State) : Outcome := .next (s.numCmd c Obj.RST_REQUEST 2)
def execWear (c : Ctx) (h : Head) (d : Bytes) (s : State) : Outcome := .next (s.tableCmd c (Obj.WEAR h.val) d)
def execWearRestore (c : Ctx) (h : Head) (d : Bytes) (s : State) : Outcome := .next (s.tableCmd c (Obj.WEAR_RESTORE h.val) d)
def execCalRestore (c : Ctx) (d : Bytes) (s : State) : Outcome := .next (s.tableCmd c Obj.CAL_RESTORE d)
def execTimeStep (c : Ctx) (d : Bytes) (s : State) : Outcome := .next (s.tableCmd c Obj.TIME_STEP d)
def execCamTable (c : Ctx) (k : Fin 8) (d : Bytes) (s : State) : Outcome := .next (s.tableCmd c (Obj.CAM_TABLE k.val) d)
def execSecKeyProvision (c : Ctx) (d : Bytes) (s : State) : Outcome := .next (s.tableCmd c Obj.SEC_KEY_PROVISION d)
def execSecMakerKey (c : Ctx) (d : Bytes) (s : State) : Outcome := .next (s.tableCmd c Obj.SEC_MAKER_KEY d)
def execSecDebugKey (c : Ctx) (d : Bytes) (s : State) : Outcome := .next (s.tableCmd c Obj.SEC_DEBUG_KEY d)
def execSecDebugResponse (c : Ctx) (d : Bytes) (s : State) : Outcome := .next (s.tableCmd c Obj.SEC_DEBUG_RESPONSE d)

/-- An object of an Ethernet port, in the type the write names (R329). -/
def execEnPortConfig (c : Ctx) (p : Fin 2) (sub : Fin 256) (ty : Nat) (d : Bytes) (s : State) : Outcome :=
  .next (s.objCmd c ((0x1110 + p.val) * 256 + sub.val) ty d)

/-- A size of a DRAM region (R374). -/
def execDramRegionResize (c : Ctx) (idx sub : Nat) (v : BitVec 16) (s : State) : Outcome :=
  let k := idx * 256 + sub
  .next (if k = Obj.JNL_STORE_MIB ∨ k = Obj.NIM_EVID_SIZE ∨ k = Obj.DRAM_POOL_GIB then s.numCmd c k v.toNat else s)

/-- A read of SEC_DEBUG_CHALLENGE draws a nonce (R452). -/
def execSecDebugChallenge (c : Ctx) (s : State) : Outcome :=
  .next (s.inCmd c (fun s =>
    let r := s.readObj c.sess Obj.SEC_DEBUG_CHALLENGE false
    { st := r.st, status := r.status, body := if r.status = 0 then r.data else [] }))

end Sys2Proof.Machine
end

