-- ==== Sys2Proof/Machine/Dispatch.lean ====
section
/-! DEFINITION. One arm per command: a direct call of its meaning, or its rejection by name. -/

namespace Sys2Proof.Machine

/-- The effect of a command on everything but the queue. -/
def exec (i : Instr) (s : State) : Host.Outcome State Fault Refusal :=
  match i with
  | .registerWrite x0 => Sys2Proof.Machine.execRegisterWrite x0 s
  | .counterClear x0 => Sys2Proof.Machine.execCounterClear x0 s
  | .hqDoorbell x0 x1 => Sys2Proof.Machine.execHqDoorbell x0 x1 s
  | .ringEnable x0 x1 => Sys2Proof.Machine.execRingEnable x0 x1 s
  | .ringDisable x0 x1 => Sys2Proof.Machine.execRingDisable x0 x1 s
  | .descriptorFetch x0 x1 => Sys2Proof.Machine.execDescriptorFetch x0 x1 s
  | .pageJobConsume x0 => Sys2Proof.Machine.execPageJobConsume x0 s
  | .psnWait => Sys2Proof.Machine.execPsnWait s
  | .baseRegisterConsume x0 => Sys2Proof.Machine.execBaseRegisterConsume x0 s
  | .baseRetireConsume x0 => Sys2Proof.Machine.execBaseRetireConsume x0 s
  | .chunkConsume x0 x1 => Sys2Proof.Machine.execChunkConsume x0 x1 s
  | .chunkLanded x0 x1 x2 => Sys2Proof.Machine.execChunkLanded x0 x1 x2 s
  | .chunkOrphan x0 x1 x2 => Sys2Proof.Machine.execChunkOrphan x0 x1 x2 s
  | .jobAccept x0 => Sys2Proof.Machine.execJobAccept x0 s
  | .baseRegistered x0 => Sys2Proof.Machine.execBaseRegistered x0 s
  | .baseFreed x0 => Sys2Proof.Machine.execBaseFreed x0 s
  | .jobStaged x0 x1 => Sys2Proof.Machine.execJobStaged x0 x1 s
  | .lineBoundary x0 => Sys2Proof.Machine.execLineBoundary x0 s
  | .jobRetire x0 => Sys2Proof.Machine.execJobRetire x0 s
  | .recordPost x0 => Sys2Proof.Machine.execRecordPost x0 s
  | .ringIrqTimer x0 => Sys2Proof.Machine.execRingIrqTimer x0 s
  | .hqAbort x0 => Sys2Proof.Machine.execHqAbort x0 s
  | .jobAbort x0 x1 => Sys2Proof.Machine.execJobAbort x0 x1 s
  | .psnNext x0 x1 => Sys2Proof.Machine.execPsnNext x0 x1 s
  | .pcieLinkDown => Sys2Proof.Machine.execPcieLinkDown s
  | .bar0BadAccess x0 x1 x2 => Sys2Proof.Machine.execBar0BadAccess x0 x1 x2 s
  | .bar4Read x0 x1 => Sys2Proof.Machine.execBar4Read x0 x1 s
  | .bar4Write x0 x1 => Sys2Proof.Machine.execBar4Write x0 x1 s
  | .fireDecodeLine x0 => Sys2Proof.Machine.execFireDecodeLine x0 s
  | .checkDecodeLine => Sys2Proof.Machine.execCheckDecodeLine s
  | .checkLate => Sys2Proof.Machine.execCheckLate s
  | .encEdge x0 x1 x2 => Sys2Proof.Machine.execEncEdge x0 x1 x2 s
  | .encIllegal x0 x1 x2 => Sys2Proof.Machine.execEncIllegal x0 x1 x2 s
  | .encIndex x0 => Sys2Proof.Machine.execEncIndex x0 s
  | .encStandstill x0 => Sys2Proof.Machine.execEncStandstill x0 s
  | .encEnable x0 x1 x2 => Sys2Proof.Machine.execEncEnable x0 x1 x2 s
  | .webSel x0 x1 => Sys2Proof.Machine.execWebSel x0 x1 s
  | .webSpanEnd => Sys2Proof.Machine.execWebSpanEnd s
  | .tofMark x0 x1 => Sys2Proof.Machine.execTofMark x0 x1 s
  | .tofMissing x0 => Sys2Proof.Machine.execTofMissing x0 s
  | .cmpArm x0 x1 x2 => Sys2Proof.Machine.execCmpArm x0 x1 x2 s
  | .cmpTarget x0 => Sys2Proof.Machine.execCmpTarget x0 s
  | .cmpPulseEnd x0 => Sys2Proof.Machine.execCmpPulseEnd x0 s
  | .axeEdge x0 x1 x2 => Sys2Proof.Machine.execAxeEdge x0 x1 x2 s
  | .axeIndex x0 => Sys2Proof.Machine.execAxeIndex x0 s
  | .axeSsiSample x0 x1 x2 => Sys2Proof.Machine.execAxeSsiSample x0 x1 x2 s
  | .ffyResume x0 x1 => Sys2Proof.Machine.execFfyResume x0 x1 s
  | .lineDepart x0 => Sys2Proof.Machine.execLineDepart x0 s
  | .wearFlush x0 x1 => Sys2Proof.Machine.execWearFlush x0 x1 s
  | .wear x0 x1 x2 => Sys2Proof.Machine.execWear x0 x1 x2 s
  | .wearRestore x0 x1 x2 => Sys2Proof.Machine.execWearRestore x0 x1 x2 s
  | .laneSlip x0 x1 x2 => Sys2Proof.Machine.execLaneSlip x0 x1 x2 s
  | .blockLock x0 => Sys2Proof.Machine.execBlockLock x0 s
  | .blockLockLoss x0 => Sys2Proof.Machine.execBlockLockLoss x0 s
  | .trainFrameSend x0 => Sys2Proof.Machine.execTrainFrameSend x0 s
  | .trainFrameReceive x0 x1 => Sys2Proof.Machine.execTrainFrameReceive x0 x1 s
  | .trainFail x0 => Sys2Proof.Machine.execTrainFail x0 s
  | .telemetryReceive x0 x1 => Sys2Proof.Machine.execTelemetryReceive x0 x1 s
  | .telemetryTimeout x0 => Sys2Proof.Machine.execTelemetryTimeout x0 s
  | .enumReceive x0 x1 => Sys2Proof.Machine.execEnumReceive x0 x1 s
  | .controlResend x0 => Sys2Proof.Machine.execControlResend x0 s
  | .echoReceive x0 x1 x2 => Sys2Proof.Machine.execEchoReceive x0 x1 x2 s
  | .timeFrameSend x0 => Sys2Proof.Machine.execTimeFrameSend x0 s
  | .authSend x0 => Sys2Proof.Machine.execAuthSend x0 s
  | .hlEnable x0 x1 x2 => Sys2Proof.Machine.execHlEnable x0 x1 x2 s
  | .headAuthReceive x0 x1 x2 => Sys2Proof.Machine.execHeadAuthReceive x0 x1 x2 s
  | .headPortLapse x0 x1 => Sys2Proof.Machine.execHeadPortLapse x0 x1 s
  | .headTimeReceive x0 x1 x2 x3 => Sys2Proof.Machine.execHeadTimeReceive x0 x1 x2 x3 s
  | .headLineDataReceive x0 x1 x2 => Sys2Proof.Machine.execHeadLineDataReceive x0 x1 x2 s
  | .headFireTimeReceive x0 x1 x2 => Sys2Proof.Machine.execHeadFireTimeReceive x0 x1 x2 s
  | .headTableReceive x0 x1 x2 => Sys2Proof.Machine.execHeadTableReceive x0 x1 x2 s
  | .headLineCommit x0 x1 => Sys2Proof.Machine.execHeadLineCommit x0 x1 s
  | .headRowFire x0 x1 x2 => Sys2Proof.Machine.execHeadRowFire x0 x1 x2 s
  | .headHotEnter x0 x1 => Sys2Proof.Machine.execHeadHotEnter x0 x1 s
  | .headEnumSend x0 x1 => Sys2Proof.Machine.execHeadEnumSend x0 x1 s
  | .headTelemetrySend x0 x1 => Sys2Proof.Machine.execHeadTelemetrySend x0 x1 s
  | .assign x0 x1 x2 x3 x4 => Sys2Proof.Machine.execAssign x0 x1 x2 x3 x4 s
  | .hotLimit x0 x1 x2 x3 x4 => Sys2Proof.Machine.execHotLimit x0 x1 x2 x3 x4 s
  | .hotClear x0 x1 x2 x3 x4 => Sys2Proof.Machine.execHotClear x0 x1 x2 x3 x4 s
  | .bankSwitch x0 x1 x2 x3 x4 => Sys2Proof.Machine.execBankSwitch x0 x1 x2 x3 x4 s
  | .service x0 x1 x2 x3 x4 => Sys2Proof.Machine.execService x0 x1 x2 x3 x4 s
  | .release x0 x1 x2 x3 x4 => Sys2Proof.Machine.execRelease x0 x1 x2 x3 x4 s
  | .timeAcquire x0 x1 x2 x3 x4 => Sys2Proof.Machine.execTimeAcquire x0 x1 x2 x3 x4 s
  | .slots x0 x1 x2 x3 x4 => Sys2Proof.Machine.execSlots x0 x1 x2 x3 x4 s
  | .laneRetrain x0 x1 x2 => Sys2Proof.Machine.execLaneRetrain x0 x1 x2 s
  | .laneRetrainIdle x0 => Sys2Proof.Machine.execLaneRetrainIdle x0 s
  | .laneEyeStart x0 x1 x2 => Sys2Proof.Machine.execLaneEyeStart x0 x1 x2 s
  | .eyeScanEnd x0 x1 x2 => Sys2Proof.Machine.execEyeScanEnd x0 x1 x2 s
  | .laneMode x0 x1 x2 => Sys2Proof.Machine.execLaneMode x0 x1 x2 s
  | .laneLoop x0 x1 x2 => Sys2Proof.Machine.execLaneLoop x0 x1 x2 s
  | .laneInject x0 x1 x2 => Sys2Proof.Machine.execLaneInject x0 x1 x2 s
  | .prbsLockLoss x0 x1 x2 => Sys2Proof.Machine.execPrbsLockLoss x0 x1 x2 s
  | .camEnable x0 x1 x2 => Sys2Proof.Machine.execCamEnable x0 x1 x2 s
  | .camDiscoveryDone x0 x1 => Sys2Proof.Machine.execCamDiscoveryDone x0 x1 s
  | .camAcquire x0 x1 x2 => Sys2Proof.Machine.execCamAcquire x0 x1 x2 s
  | .camTriggerSend x0 => Sys2Proof.Machine.execCamTriggerSend x0 s
  | .camLineReceive x0 x1 x2 x3 => Sys2Proof.Machine.execCamLineReceive x0 x1 x2 x3 s
  | .camFrameClose x0 x1 => Sys2Proof.Machine.execCamFrameClose x0 x1 s
  | .camTimeout x0 => Sys2Proof.Machine.execCamTimeout x0 s
  | .camLinkLockLoss x0 x1 => Sys2Proof.Machine.execCamLinkLockLoss x0 x1 s
  | .camRegRead x0 x1 => Sys2Proof.Machine.execCamRegRead x0 x1 s
  | .camRegWrite x0 x1 => Sys2Proof.Machine.execCamRegWrite x0 x1 s
  | .camSettingsWrite x0 x1 => Sys2Proof.Machine.execCamSettingsWrite x0 x1 s
  | .camRegAck x0 x1 x2 x3 => Sys2Proof.Machine.execCamRegAck x0 x1 x2 x3 s
  | .camRegRetry x0 => Sys2Proof.Machine.execCamRegRetry x0 s
  | .camEvent x0 x1 x2 => Sys2Proof.Machine.execCamEvent x0 x1 x2 s
  | .bandComplete => Sys2Proof.Machine.execBandComplete s
  | .verdictPost => Sys2Proof.Machine.execVerdictPost s
  | .nimStreamBlock x0 => Sys2Proof.Machine.execNimStreamBlock x0 s
  | .nimEvidFree x0 x1 => Sys2Proof.Machine.execNimEvidFree x0 x1 s
  | .calUnitDue x0 x1 => Sys2Proof.Machine.execCalUnitDue x0 x1 s
  | .calRun x0 x1 => Sys2Proof.Machine.execCalRun x0 x1 s
  | .calRunComplete x0 x1 x2 => Sys2Proof.Machine.execCalRunComplete x0 x1 x2 s
  | .calRetry x0 x1 => Sys2Proof.Machine.execCalRetry x0 x1 s
  | .calAccept x0 x1 => Sys2Proof.Machine.execCalAccept x0 x1 s
  | .calReject x0 x1 => Sys2Proof.Machine.execCalReject x0 x1 s
  | .calProposalExpire x0 => Sys2Proof.Machine.execCalProposalExpire x0 s
  | .calRestore x0 x1 => Sys2Proof.Machine.execCalRestore x0 x1 s
  | .timeAnchor => Sys2Proof.Machine.execTimeAnchor s
  | .ptpAnnounce x0 x1 => Sys2Proof.Machine.execPtpAnnounce x0 x1 s
  | .ptpMeasurement x0 x1 => Sys2Proof.Machine.execPtpMeasurement x0 x1 s
  | .ptpLoss x0 => Sys2Proof.Machine.execPtpLoss x0 s
  | .timeStep x0 x1 => Sys2Proof.Machine.execTimeStep x0 x1 s
  | .timeStepDeferred => Sys2Proof.Machine.execTimeStepDeferred s
  | .timePref x0 x1 => Sys2Proof.Machine.execTimePref x0 x1 s
  | .ppsInEdge => Sys2Proof.Machine.execPpsInEdge s
  | .ppsInLoss => Sys2Proof.Machine.execPpsInLoss s
  | .ppsOutStart x0 => Sys2Proof.Machine.execPpsOutStart x0 s
  | .ppsOutEnd x0 => Sys2Proof.Machine.execPpsOutEnd x0 s
  | .toaFrameReceive x0 x1 => Sys2Proof.Machine.execToaFrameReceive x0 x1 s
  | .openSession x0 x1 x2 => Sys2Proof.Machine.execOpenSession x0 x1 x2 s
  | .close x0 => Sys2Proof.Machine.execClose x0 s
  | .authBegin x0 x1 x2 => Sys2Proof.Machine.execAuthBegin x0 x1 x2 s
  | .authFinish x0 x1 => Sys2Proof.Machine.execAuthFinish x0 x1 s
  | .ping x0 => Sys2Proof.Machine.execPing x0 s
  | .read x0 x1 => Sys2Proof.Machine.execRead x0 x1 s
  | .write x0 x1 => Sys2Proof.Machine.execWrite x0 x1 s
  | .readShadow x0 x1 => Sys2Proof.Machine.execReadShadow x0 x1 s
  | .blockRead x0 x1 => Sys2Proof.Machine.execBlockRead x0 x1 s
  | .blockWrite x0 x1 => Sys2Proof.Machine.execBlockWrite x0 x1 s
  | .commit x0 => Sys2Proof.Machine.execCommit x0 s
  | .discard x0 => Sys2Proof.Machine.execDiscard x0 s
  | .mailboxDescriptor x0 x1 => Sys2Proof.Machine.execMailboxDescriptor x0 x1 s
  | .toaMbDoorbell x0 => Sys2Proof.Machine.execToaMbDoorbell x0 s
  | .sessionIdleClose x0 => Sys2Proof.Machine.execSessionIdleClose x0 s
  | .supervisorLapse => Sys2Proof.Machine.execSupervisorLapse s
  | .commitTakeEffect x0 => Sys2Proof.Machine.execCommitTakeEffect x0 s
  | .commitCancel x0 x1 => Sys2Proof.Machine.execCommitCancel x0 x1 s
  | .enPortConfig x0 x1 x2 x3 x4 => Sys2Proof.Machine.execEnPortConfig x0 x1 x2 x3 x4 s
  | .axSample x0 => Sys2Proof.Machine.execAxSample x0 s
  | .axTarget x0 x1 x2 => Sys2Proof.Machine.execAxTarget x0 x1 x2 s
  | .axStop x0 x1 x2 => Sys2Proof.Machine.execAxStop x0 x1 x2 s
  | .axEnable x0 x1 x2 => Sys2Proof.Machine.execAxEnable x0 x1 x2 s
  | .axEnDelayExpire x0 => Sys2Proof.Machine.execAxEnDelayExpire x0 s
  | .axLimitActive x0 x1 => Sys2Proof.Machine.execAxLimitActive x0 x1 s
  | .axFollowingError x0 => Sys2Proof.Machine.execAxFollowingError x0 s
  | .axHome x0 x1 x2 => Sys2Proof.Machine.execAxHome x0 x1 x2 s
  | .axIdleCurrent x0 => Sys2Proof.Machine.execAxIdleCurrent x0 s
  | .axCamEngage x0 x1 x2 => Sys2Proof.Machine.execAxCamEngage x0 x1 x2 s
  | .camTable x0 x1 x2 => Sys2Proof.Machine.execCamTable x0 x1 x2 s
  | .axMode x0 x1 x2 => Sys2Proof.Machine.execAxMode x0 x1 x2 s
  | .axContact x0 => Sys2Proof.Machine.execAxContact x0 s
  | .loopEval x0 => Sys2Proof.Machine.execLoopEval x0 s
  | .lpEnable x0 x1 x2 => Sys2Proof.Machine.execLpEnable x0 x1 x2 s
  | .lpMode x0 x1 x2 => Sys2Proof.Machine.execLpMode x0 x1 x2 s
  | .loopFe x0 => Sys2Proof.Machine.execLoopFe x0 s
  | .lpTrArm x0 x1 x2 => Sys2Proof.Machine.execLpTrArm x0 x1 x2 s
  | .lpTrForce x0 x1 x2 => Sys2Proof.Machine.execLpTrForce x0 x1 x2 s
  | .adcConversion x0 x1 => Sys2Proof.Machine.execAdcConversion x0 x1 s
  | .adcEnable x0 x1 x2 => Sys2Proof.Machine.execAdcEnable x0 x1 x2 s
  | .pwmPeriod x0 => Sys2Proof.Machine.execPwmPeriod x0 s
  | .pwmDuty x0 x1 x2 x3 => Sys2Proof.Machine.execPwmDuty x0 x1 x2 x3 s
  | .gpioDir x0 x1 => Sys2Proof.Machine.execGpioDir x0 x1 s
  | .gpioInput x0 x1 => Sys2Proof.Machine.execGpioInput x0 x1 s
  | .dramRead x0 x1 x2 x3 => Sys2Proof.Machine.execDramRead x0 x1 x2 x3 s
  | .dramWrite x0 x1 x2 x3 x4 => Sys2Proof.Machine.execDramWrite x0 x1 x2 x3 x4 s
  | .dramRefresh x0 x1 x2 => Sys2Proof.Machine.execDramRefresh x0 x1 x2 s
  | .dramMr4Read x0 x1 x2 => Sys2Proof.Machine.execDramMr4Read x0 x1 x2 s
  | .dramSweepStart x0 x1 => Sys2Proof.Machine.execDramSweepStart x0 x1 s
  | .dramSweepComplete x0 => Sys2Proof.Machine.execDramSweepComplete x0 s
  | .dramDrift x0 x1 x2 => Sys2Proof.Machine.execDramDrift x0 x1 x2 s
  | .dramScrub x0 => Sys2Proof.Machine.execDramScrub x0 s
  | .dramRate x0 x1 => Sys2Proof.Machine.execDramRate x0 x1 s
  | .dramRegionResize x0 x1 x2 x3 => Sys2Proof.Machine.execDramRegionResize x0 x1 x2 x3 s
  | .dramRowClose x0 => Sys2Proof.Machine.execDramRowClose x0 s
  | .dramPowerDown x0 x1 => Sys2Proof.Machine.execDramPowerDown x0 x1 s
  | .dramRestoreWaitEnd => Sys2Proof.Machine.execDramRestoreWaitEnd s
  | .compressBlocks x0 x1 => Sys2Proof.Machine.execCompressBlocks x0 x1 s
  | .compressStream x0 x1 => Sys2Proof.Machine.execCompressStream x0 x1 s
  | .decompress x0 x1 => Sys2Proof.Machine.execDecompress x0 x1 s
  | .stratusJobComplete x0 => Sys2Proof.Machine.execStratusJobComplete x0 s
  | .strAbort x0 x1 => Sys2Proof.Machine.execStrAbort x0 x1 s
  | .faultLatch x0 x1 x2 => Sys2Proof.Machine.execFaultLatch x0 x1 x2 s
  | .fltClear x0 x1 => Sys2Proof.Machine.execFltClear x0 x1 s
  | .fltFecClear x0 x1 => Sys2Proof.Machine.execFltFecClear x0 x1 s
  | .alertPulseEnd => Sys2Proof.Machine.execAlertPulseEnd s
  | .diagInject x0 x1 => Sys2Proof.Machine.execDiagInject x0 x1 s
  | .chainLow => Sys2Proof.Machine.execChainLow s
  | .safeReadbackMismatch x0 => Sys2Proof.Machine.execSafeReadbackMismatch x0 s
  | .webLoss x0 => Sys2Proof.Machine.execWebLoss x0 s
  | .pairSilent x0 => Sys2Proof.Machine.execPairSilent x0 s
  | .presWinExceeded x0 x1 => Sys2Proof.Machine.execPresWinExceeded x0 x1 s
  | .supplyOutOfWindow x0 x1 => Sys2Proof.Machine.execSupplyOutOfWindow x0 x1 s
  | .twinElection x0 => Sys2Proof.Machine.execTwinElection x0 s
  | .twinElectTimeout => Sys2Proof.Machine.execTwinElectTimeout s
  | .twinPresFall => Sys2Proof.Machine.execTwinPresFall s
  | .twinEnable x0 x1 => Sys2Proof.Machine.execTwinEnable x0 x1 s
  | .twinHandOver x0 => Sys2Proof.Machine.execTwinHandOver x0 s
  | .twinForceActive x0 => Sys2Proof.Machine.execTwinForceActive x0 s
  | .twinFrameReceive x0 x1 x2 => Sys2Proof.Machine.execTwinFrameReceive x0 x1 x2 s
  | .twinRetransmit => Sys2Proof.Machine.execTwinRetransmit s
  | .twinHeartbeatSend => Sys2Proof.Machine.execTwinHeartbeatSend s
  | .twinSilence => Sys2Proof.Machine.execTwinSilence s
  | .twinPlannedStop => Sys2Proof.Machine.execTwinPlannedStop s
  | .twinSnapshotComplete => Sys2Proof.Machine.execTwinSnapshotComplete s
  | .twinStandbyReady => Sys2Proof.Machine.execTwinStandbyReady s
  | .twinLaneFail x0 => Sys2Proof.Machine.execTwinLaneFail x0 s
  | .journalFragmentPost x0 => Sys2Proof.Machine.execJournalFragmentPost x0 s
  | .secSvnCommit x0 x1 => Sys2Proof.Machine.execSecSvnCommit x0 x1 s
  | .secLifecycle x0 x1 => Sys2Proof.Machine.execSecLifecycle x0 x1 s
  | .secKeyProvision x0 x1 => Sys2Proof.Machine.execSecKeyProvision x0 x1 s
  | .secMakerKey x0 x1 => Sys2Proof.Machine.execSecMakerKey x0 x1 s
  | .secDebugKey x0 x1 => Sys2Proof.Machine.execSecDebugKey x0 x1 s
  | .secKeyRevoke x0 x1 => Sys2Proof.Machine.execSecKeyRevoke x0 x1 s
  | .secDebugChallenge x0 => Sys2Proof.Machine.execSecDebugChallenge x0 s
  | .secDebugResponse x0 x1 => Sys2Proof.Machine.execSecDebugResponse x0 x1 s
  | .secDebugState x0 x1 => Sys2Proof.Machine.execSecDebugState x0 x1 s
  | .pwrTarget x0 x1 => Sys2Proof.Machine.execPwrTarget x0 x1 s
  | .pwrTransitionStart => Sys2Proof.Machine.execPwrTransitionStart s
  | .domainStopTimeout x0 => Sys2Proof.Machine.execDomainStopTimeout x0 s
  | .avsStep => Sys2Proof.Machine.execAvsStep s
  | .pmbAlert => Sys2Proof.Machine.execPmbAlert s
  | .cicadaWake x0 x1 => Sys2Proof.Machine.execCicadaWake x0 x1 s
  | .spitLine => Sys2Proof.Machine.execSpitLine s
  | .spitTimeout => Sys2Proof.Machine.execSpitTimeout s
  | .cicWakePin => Sys2Proof.Machine.execCicWakePin s
  | .reset x0 => Sys2Proof.Machine.execReset x0 s
  | .pairReset x0 => Sys2Proof.Machine.execPairReset x0 s
  | .rootPllLock => Sys2Proof.Machine.execRootPllLock s
  | .pllLockRetry x0 => Sys2Proof.Machine.execPllLockRetry x0 s
  | .pllLockLoss => Sys2Proof.Machine.execPllLockLoss s
  | .rstRequest x0 => Sys2Proof.Machine.execRstRequest x0 s
  | .rstRequestForce x0 => Sys2Proof.Machine.execRstRequestForce x0 s
  | .bootComplete => Sys2Proof.Machine.execBootComplete s
  | .pcieLinkUp => Sys2Proof.Machine.execPcieLinkUp s
  | .enLinkChange x0 x1 => Sys2Proof.Machine.execEnLinkChange x0 x1 s
  | .ethernetFrameReceive x0 x1 x2 => Sys2Proof.Machine.execEthernetFrameReceive x0 x1 x2 s
  | .laneSignalDetect x0 => Sys2Proof.Machine.execLaneSignalDetect x0 s
  | .prbsCheckerLock x0 => Sys2Proof.Machine.execPrbsCheckerLock x0 s
  | .chainHigh => Sys2Proof.Machine.execChainHigh s
  | .twinPartnerLost => Sys2Proof.Machine.execTwinPartnerLost s
  | .dramInitComplete x0 x1 => Sys2Proof.Machine.execDramInitComplete x0 x1 s
  | .camHeartbeatReceive x0 => Sys2Proof.Machine.execCamHeartbeatReceive x0 s

end Sys2Proof.Machine
end

