-- ==== Sys2Proof/Safety.lean ====
section
/-! DEFINITION. What a safe run of the block is, and the conditions and answers of commands, in the terms the statements use. -/

namespace Sys2Proof.Machine

/-- DRAM is in its canonical form. -/
def State.MemOk (s : State) : Prop := Memory.wf s.dram = true

/-- The keys of a table rise strictly. -/
def Tab.rising {α : Type} (t : Tab α) : Prop := t.Pairwise (fun x y => x.1 < y.1)

/-- The stores are in their canonical forms: the objects' values and DRAM list no entry that equals what an unlisted one reads
as, and their keys rise strictly; so do the addresses of the tables' bytes. -/
def State.Canonical (s : State) : Prop := Tab.wf Obj.dflt s.objs = true ∧ Tab.rising s.blobs ∧ s.MemOk

/-! ### Writes of objects -/

/-- Type code, access right and whether it is a counter, of an object. -/
def Obj.kind (k : Nat) : Option (Nat × Obj.Acc × Bool) := (Obj.find k).map (fun r => (r.1.ty, r.1.acc, r.1.ctr))

/-- A write of the object k, of type code ty and bytes d, passes steps 1 to 5 of R508 in the session of c: the object server
answers, the session exists, the access right holds, type and length are the object's, its domain is on, and the value is in
range. The checks are made on the state with the session renewed; a table's write has abandoned its open transfer by then. -/
def State.passes (s : State) (c : Ctx) (k ty : Nat) (d : Bytes) : Bool :=
  let u := s.touch c
  s.toaUp && (s.session? c.sess).isSome && u.writeAccess c.sess k == 0 && (u.offDomain k).isNone &&
    match Obj.find k with
    | none => false
    | some (r, _) => ty == r.ty && lengthOk k r d.length &&
      (if ty = 13 then u.dropTransfer c.sess else u).valueOk c.sess k r d (wholeSpans r d)

/-- The bytes the digest of an accepted write covers: those held after it, those written where the object is write-only
(R317). -/
def State.heldBy (t : State) (k : Nat) (d : Bytes) : Bytes :=
  match Obj.find k with
  | some (r, _) => if r.acc = .wo then d else t.value k
  | none => t.value k

/-- An accepted write whose effect has led to t: an ACTIVE card forwards it (R425), and the answer is OK with the digest. -/
def State.written (t : State) (k : Nat) (d : Bytes) : State :=
  let t := if twinShared k then t.forward (.objWrite k d) else t
  t.setToa (fun x => { x with status := 0, answer := le 4 (crc32c (t.heldBy k d)) })

end Sys2Proof.Machine
end

