-- ==== Sys2Proof/Certificates/Slice0/Obligations.lean ====
section
/-! DEFINITION. The statements for the provers. Most say, for each command of a family, that exec answers a next state and
which: the state is written out in the shared operations of the model, so that what the equation does not update is unchanged
(the frames of the shared operations are `SharedOperationsFrame` and `DramHoldsBytes`). -/

open Sys2Proof Sys2Proof.Machine

/-- For every command c and state s, step of s with c put at the front of its queue is exec of c on s with the queue
it had. -/
def Obligations.StepRunsFront : Prop :=
  (∀ (c : Instr) (rest : List Instr) (s : State),
    step { s with pending := c :: rest } = exec c { s with pending := rest })

/-- With nothing waiting, step answers next with one tick of DCLK. That time passes there, and nowhere else, is a
DESIGN CHOICE of the model. -/
def Obligations.EmptyQueueTicks : Prop :=
  (∀ (s : State), s.pending = [] → step s = .next s.tick)

/-- After the reset state and after every full reset, device time is SEC 0, NS 0, FRAC 0, with rate 0 and TIME_STATE
FREE (0). TIME_NOW reads, in any state, as its seconds in bytes 0-5, zeros in 6-7, the nanoseconds in 8-11 and the
fraction in 12-15, all of that one state. (R286.) -/
def Obligations.ResetTime : Prop :=
  (State.reset.time.sec = 0 ∧ State.reset.time.ns = 0 ∧ State.reset.time.frac = 0 ∧ State.reset.time.rate = 0 ∧
    State.reset.obj Obj.TIME_STATE = 0) ∧
  (∀ (s : State) (source : Nat), (s.cleared source).time = State.reset.time) ∧
  (∀ (s : State), s.value Obj.TIME_NOW = le 6 s.time.sec ++ [0, 0] ++ le 4 s.time.ns ++ le 4 s.time.frac)

/-- The reset state has an empty queue, no output, no byte of DRAM or of a table written, no job, base, session or
journal record, and has not booted; RESET_SAFE with source 1 is latched and holds SAFE_N low, every HV_EN, every STO_N
and the valves; no ring is enabled. An empty queue and an empty list of outputs are the model's own fields. Rests on
R409, R412, R474, R475. -/
def Obligations.ResetState : Prop :=
  (State.reset.pending = [] ∧ State.reset.out = [] ∧ State.reset.dram = [] ∧ State.reset.blobs = [] ∧
    State.reset.hq.jobs = [] ∧ State.reset.hq.bases = [] ∧ State.reset.toa.sessions = [] ∧ State.reset.jnl.store = [] ∧
    State.reset.jnl.booted = false) ∧
  ((State.reset.fault? 0x140E 1).isSome = true ∧ State.reset.obj Obj.RST_SOURCE = 1 ∧ State.reset.safeLow = true ∧
    (∀ b, b < 8 → State.reset.hvHeld b = true ∧ State.reset.stoHeld b = true) ∧ State.reset.valveHeld = true) ∧
  (∀ (q : Nat), (State.reset.ring q).en = false)

/-- At reset the object store, the table bytes and DRAM meet Canonical. -/
def Obligations.ResetCanonical : Prop :=
  (State.reset.Canonical)

/-- Doorbells, ring control, fetches and records of the host rings. Commands: HQ_DOORBELL, RING_ENABLE, RING_DISABLE,
DESCRIPTOR_FETCH, RECORD_POST, RING_IRQ_TIMER. Rests on R36, R39, R40, R41, R42. -/
def Obligations.HostRingsServe : Prop :=
  (∀ (q : RingNo) (d : BitVec 32) (s : State), s.hq.linkUp = true → s.ready 3 = true →
    (s.ring q.val).active = true → isRecordRing q.val = false → d.toNat ≠ (s.ring q.val).prod →
    fwd32 (s.ring q.val).prod d.toNat ≤ fwd32 (s.ring q.val).prod (((s.ring q.val).cons + (s.ring q.val).size) % 2 ^ 32) →
    exec (.hqDoorbell q d) s = .next (s.setRing q.val { s.ring q.val with prod := d.toNat })) ∧
  (∀ (q : RingNo) (d : BitVec 32) (s : State), s.hq.linkUp = true → s.ready 3 = true →
    (s.ring q.val).active = true → isRecordRing q.val = false → d.toNat ≠ (s.ring q.val).prod →
    fwd32 (s.ring q.val).prod (((s.ring q.val).cons + (s.ring q.val).size) % 2 ^ 32) < fwd32 (s.ring q.val).prod d.toNat →
    exec (.hqDoorbell q d) s =
      .next ((s.setRing q.val { s.ring q.val with err := true, errCode := 1 }).event 24 0x0201
        [(12, 1, q.val), (13, 1, 1), (16, 4, d.toNat)])) ∧
  (∀ (q : RingNo) (cfg : BitVec 32) (s : State), s.hq.linkUp = true → s.ready 3 = true →
    (s.ring q.val).en = false → 6 ≤ field cfg.toNat 0 5 → field cfg.toNat 0 5 ≤ 16 → (s.ring q.val).base % 4096 = 0 →
    (s.ring q.val).wb % 4 = 0 →
    exec (.ringEnable q cfg) s = .next (s.setRing q.val
      { ({ s.ring q.val with vec := field cfg.toNat 12 8, sizeLog2 := field cfg.toNat 0 5 } : Ring).restart with
        en := true, err := false, errCode := 0 }).psnWatch) ∧
  (∀ (q : RingNo) (cfg : BitVec 32) (s : State), s.hq.linkUp = true → s.ready 3 = true →
    ∃ t : State, exec (.ringDisable q cfg) s = .next t ∧ (t.ring q.val).en = false ∧ (t.ring q.val).head = none ∧
      (t.ring q.val).held = (s.ring q.val).held ∧ ∀ p, p ≠ q.val → t.ring p = s.ring p) ∧
  (∀ (q : RingNo) (d : Bytes) (s : State), isRecordRing q.val = false → s.ringRuns q.val = true →
    (s.ring q.val).cons ≠ (s.ring q.val).prod → (s.ring q.val).head = none →
    getN (slice d 0 64) 60 4 = crc32c ((slice d 0 64).take 60) → descTypeOk q.val (byteAt (slice d 0 64) 0) = true →
    exec (.descriptorFetch q (some d)) s =
      .next (s.setRing q.val { s.ring q.val with head := some (slice d 0 64) }).psnWatch) ∧
  (∀ (q : RingNo) (b : Bytes) (l : List Bytes) (s : State), isRecordRing q.val = true →
    s.ringRuns q.val = true → (s.ring q.val).used < (s.ring q.val).size → (s.ring q.val).held = b :: l →
    exec (.recordPost q) s = .next ((s.setRing q.val { s.ring q.val with held := l }).writeRecord q.val b)) ∧
  (∀ (q : RingNo) (s : State), isRecordRing q.val = true → s.ringRuns q.val = true →
    0 < (s.ring q.val).modCount → 0 < (s.ring q.val).modTime → 0 < (s.ring q.val).unsig →
    (s.ring q.val).unsigSince + 1000 * (s.ring q.val).modTime ≤ s.now →
    exec (.ringIrqTimer q) s = .next ((s.setRing q.val { s.ring q.val with unsig := 0 }).msix (s.ring q.val).vec))

/-- Page jobs and bases from their descriptors to acceptance. Commands: PAGE_JOB_CONSUME, PSN_WAIT,
BASE_REGISTER_CONSUME, BASE_RETIRE_CONSUME. Rests on R47, R50, R51, R54, R55, R506. -/
def Obligations.PageJobsLand : Prop :=
  (∀ (cls : Fin 8) (d : Bytes) (s : State), s.headOfType cls.val 1 = some d →
    s.psnStale (getN d 8 4) = true → s.job? (getN d 4 4) = none →
    let s1 := (State.eat cls.val d s).dropStreams false (getN d 4 4)
    exec (.pageJobConsume cls) s =
      .next (s1.complete cls.val (s1.completion 1 0 3 ((s.jobReason d).getD 0x11) (getN d 4 4) []))) ∧
  (∀ (cls : Fin 8) (d : Bytes) (s : State), s.headOfType cls.val 1 = some d →
    getN d 8 4 = s.hq.psnNext → s.hq.jobs.length < 128 → s.jobReason d = none →
    s.heldFailure false (getN d 4 4) = none → s.orderOk false (getN d 4 4) = true →
    s.countsOk false (getN d 4 4) (descChunks d) = true →
    let e := State.eat cls.val d s
    exec (.pageJobConsume cls) s = .next ({ e with hq := { e.hq with
      psnNext := (s.hq.psnNext + 1) % 2 ^ 32, jobs := s.hq.jobs ++ [s.newJob cls.val d],
      acceptQ := s.hq.acceptQ ++ [⟨getN d 4 4, cls.val, false, none⟩] } } : State).psnWatch) ∧
  (∀ (t : Nat) (s : State), s.hq.waitSince = some t → s.psnBlocked = true → s.hq.waitRaised = false →
    t + 10000000 ≤ s.now →
    exec .psnWait s = .next (({ s with hq := { s.hq with waitRaised := true } } : State).event 24 0x0203
      [(12, 4, s.hq.psnNext), (16, 1, s.laterMask)])) ∧
  (∀ (cls : Fin 8) (d : Bytes) (s : State), s.headOfType cls.val 2 = some d →
    byteAt d 1 = 0 → allZero (slice d 8 12) = true → allZero (slice d 21 3) = true → allZero (slice d 48 12) = true →
    0 < getN d 2 2 → chunksOk (byteAt d 20) (descChunks d) = true → getN d 4 4 ≠ 0 → s.base? (getN d 4 4) = none →
    s.hq.bases.length < 16 → s.heldFailure true (getN d 4 4) = none → s.orderOk true (getN d 4 4) = true →
    s.countsOk true (getN d 4 4) (descChunks d) = true →
    let e := State.eat cls.val d s
    exec (.baseRegisterConsume cls) s = .next { e with hq := { e.hq with
      bases := s.hq.bases ++ [{ id := getN d 4 4, lines := getN d 2 2, mask := byteAt d 20, chunks := descChunks d,
                                cls := cls.val, tag := getN d 40 8 }] } }) ∧
  (∀ (cls : Fin 8) (d : Bytes) (x : Base) (s : State), s.headOfType cls.val 3 = some d →
    allZero (slice d 1 3) = true → allZero (slice d 8 52) = true → s.base? (getN d 4 4) = some x → x.st = .registered →
    exec (.baseRetireConsume cls) s = .next ((State.eat cls.val d s).mapBase (getN d 4 4)
      (fun y => { y with st := .retiring, retCls := cls.val })))

/-- Acceptance, staging, line boundaries, retirement and aborts of page jobs. Commands: JOB_ACCEPT, BASE_REGISTERED,
BASE_FREED, JOB_STAGED, LINE_BOUNDARY, JOB_RETIRE, HQ_ABORT, LINE_DEPART. Rests on R48, R49, R15, R52, R56. -/
def Obligations.PageJobsRun : Prop :=
  (∀ (id : Nat) (j : Job) (s : State), s.job? id = some j → j.st = .landing →
    s.allLanded false id j.chunks = true →
    (j.baseId = 0 ∨ (s.base? j.baseId).any (fun x => x.st != .landing) = true) → s.firstUndecided id = true → s.dramReady = true →
    s.jnlHigh = false →
    let body := s.acceptBody false id j.psn j.baseId j.tag j.lines j.mask j.cls j.mark j.gap j.chunks
    s.jnlFits body.length 720 = true →
    let marks := if s.unguaranteed j then markRate else 0
    let s1 := (s.journal 2 body).mapJob id (fun j => { j with st := .accepted, marks := j.marks ||| marks })
    exec (.jobAccept id) s = .next (s1.decideAccept id (some (s1.completion 1 marks 0 0 id [j.slot])))) ∧
  (∀ (id : Nat) (x : Base) (s : State), s.base? id = some x → x.st = .landing →
    s.allLanded true id x.chunks = true → s.dramReady = true →
    let body := s.acceptBody true id 0 0 x.tag x.lines x.mask x.cls false 0 x.chunks
    s.jnlFits body.length 0 = true →
    exec (.baseRegistered id) s =
      .next (((s.journal 3 body).mapBase id (fun x => { x with st := .registered })).baseDone x.cls 0 0 id)) ∧
  (∀ (id : Nat) (x : Base) (s : State), s.base? id = some x → x.st = .retiring →
    s.hq.jobs.any (fun j => j.baseId == id) = false →
    let body := s.acceptBody true id 0 0 x.tag x.lines x.mask x.cls false 0 x.chunks
    let s1 := (s.journal 3 body).dropStreams true id
    let s2 := { s1 with hq := { s1.hq with bases := s1.hq.bases.filter (fun y => y.id ≠ id) } }
    exec (.baseFreed id) s = .next (s2.complete x.retCls (s2.completion 6 0 0 0 id []))) ∧
  (∀ (b : Bar) (id : Nat) (j : Job) (s : State), b.val ≠ 0 → s.job? id = some j → j.st = .accepted →
    (s.hq.jobs.takeWhile (fun k => k.id ≠ id)).all (fun k => (k.bar b.val).firing || (k.bar b.val).done || k.st == .aborted) = true →
    s.hq.jobs.any (fun k => (k.bar b.val).staged) = false → (j.bar b.val).staged = false → (j.bar b.val).firing = false →
    (j.bar b.val).done = false → s.time.stepHeads = [] →
    exec (.jobStaged b id) s =
      .next (s.mapJob id (fun j => j.setBar b.val (fun x => { x with staged := true }))).readyReturn) ∧
  (∀ (id : Nat) (j : Job) (s : State), s.job? id = some j → j.st = .accepted → s.markMode j = false →
    (s.hq.jobs.takeWhile (fun k => k.id ≠ id)).all (fun k => (k.bar 0).firing || (k.bar 0).done || k.st == .aborted) = true →
    s.hq.jobs.any (fun k => (k.bar 0).staged) = false → (j.bar 0).staged = false → (j.bar 0).firing = false →
    (j.bar 0).done = false → s.time.stepHeads = [] →
    s.obj Obj.PWR_STATE ≠ 1 →
    exec (.jobStaged 0 id) s =
      .next ((s.mapJob id (fun j => j.setBar 0 (fun x => { x with staged := true }))).placeJob id)) ∧
  (∀ (b : Bar) (d : Departed) (l : List Departed) (u : Nat) (s : State), s.departed b.val = d :: l →
    s.hq.jobs.find? (fun j => j.st == .aborted && j.onWeb && decide ((j.bar b.val).passed < j.lines)) = none →
    d.barTime = some u → u ≤ s.now →
    exec (.lineBoundary b) s =
      .next ((((s.keepRows d).setDeparted b.val l).passLine d.job b.val d.line true)).sf4End) ∧
  (∀ (j : Job) (s : State), s.hq.jobs.head? = some j → j.ended = true → s.complRoom j.cls = true →
    let r := s.completion 3 j.marks j.retireStatus 0 j.id (j.bars.map (fun x => min x.late 0xFFFF))
    let s1 := s.journal 6 r
    let s2 := { s1 with hq := { s1.hq with jobs := s1.hq.jobs.filter (fun k => k.id ≠ j.id) } }
    exec (.jobRetire j.id) s = .next (((s2.dropStreams false j.id).forgetPage j.id).complete j.cls r).psnWatch) ∧
  (∀ (id : BitVec 32) (j : Job) (s : State), s.hq.linkUp = true → s.ready 3 = true →
    s.job? id.toNat = some j → j.st = .fired →
    exec (.hqAbort id) s = .next (s.complete j.cls (s.completion 5 0 2 0 id.toNat []))) ∧
  (∀ (id : BitVec 32) (s : State), s.hq.linkUp = true → s.ready 3 = true → (s.abortJob id.toNat).2 = 0 →
    exec (.hqAbort id) s = .next ((s.abortJob id.toNat).1.forward (.objWrite Obj.JOB_ABORT (le 4 id.toNat)))) ∧
  (∀ (b : Bar) (j : Job) (st : Int) (s : State), s.hasAuthority = true → s.ffy.track = true →
    s.ffy.suspended = false → s.ready (4 + b.val / 2) = true → s.ready 11 = true → s.departJob b.val = some j →
    j.startOn b.val = some st → s.departDue (s.snapOf j b.val) st (j.bar b.val).departed = true →
    exec (.lineDepart b) s = .next (s.departLine b.val j (j.bar b.val).departed true))

/-- Chunks of the image rings are consumed, land and expire. Commands: CHUNK_CONSUME, CHUNK_LANDED, CHUNK_ORPHAN.
Rests on R51, R506, R76, R77. -/
def Obligations.ChunksLand : Prop :=
  (∀ (b : Bar) (d bytes : Bytes) (s : State), s.headOfType (8 + b.val) 8 = some d → s.dramReady = true →
    byteAt d 1 < 4 → allZero (slice d 20 40) = true → 1 ≤ getN d 16 4 → getN d 16 4 ≤ 65536 → getN d 2 2 ≤ 65534 →
    s.poolFill + getN d 16 4 ≤ s.objN Obj.DRAM_POOL_GIB * 2 ^ 30 →
    let isBase := bitAt (byteAt d 1) 1
    let s1 := (s.consume (8 + b.val)).forward (.descriptor (8 + b.val) (s.ring (8 + b.val)).cons d)
    let c : Chunk := { idx := getN d 2 2, last := bitAt (byteAt d 1) 0, bytes := slice bytes 0 (getN d 16 4), since := s1.now }
    (s.chunkOwner isBase (getN d 4 4) b.val = .nothing ∨
      ∃ m, s.chunkOwner isBase (getN d 4 4) b.val = .landing m ∧ c.countOk m = true) →
    getN d 2 2 = ((s1.stream? isBase (getN d 4 4) b.val).map Stream.next).getD 0 →
    exec (.chunkConsume b (some bytes)) s =
      .next (s1.mapStream isBase (getN d 4 4) b.val (fun x => { x with chunks := x.chunks ++ [c] }))) ∧
  (∀ (b : Bar) (isBase : Bool) (id : Nat) (x : Stream) (c : Chunk) (s : State),
    s.stream? isBase id b.val = some x → x.chunks.find? (fun c => c.digest.isNone) = some c →
    exec (.chunkLanded b isBase id) s =
      .next ((s.mapStream isBase id b.val Stream.digestNext).forward (.chunk b.val isBase id c.idx c.last c.bytes))) ∧
  (∀ (b : Bar) (isBase : Bool) (id : Nat) (x : Stream) (s : State), s.stream? isBase id b.val = some x →
    s.chunkOwner isBase id b.val = .nothing → 0 < (x.chunks.filter (Chunk.stale s.now)).length →
    x.chunks.filter (fun c => !c.stale s.now) = [] → x.since + 10000000000 ≤ s.now →
    exec (.chunkOrphan b isBase id) s = .next
      (({ s with hq := { s.hq with streams := s.hq.streams.filter (fun y => !(y.isBase == isBase && y.id == id && y.bar == b.val)) } } : State).orphanEvent
        24 id b.val (x.chunks.filter (Chunk.stale s.now)).length))

/-- Accesses of the host through its windows and the PCI Express link. Commands: PCIE_LINK_UP, BAR0_BAD_ACCESS,
BAR4_READ, BAR4_WRITE, REGISTER_WRITE, COUNTER_CLEAR, PCIE_LINK_DOWN. Rests on R9, R24, R34, R35, R37, R47. -/
def Obligations.HostRegistersServe : Prop :=
  (∀ (s : State), exec .pcieLinkUp s = .next { s with hq := { s.hq with linkUp := true } }) ∧
  (∀ (isRead : Bool) (off size : Nat) (s : State), s.hq.linkUp = true → s.ready 3 = true → bar0Ok off size = false →
    exec (.bar0BadAccess isRead off size) s =
      .next (if isRead then s.countBadAccess.emit (.readData (List.replicate size 0xFF)) else s.countBadAccess)) ∧
  (∀ (off len : Nat) (s : State), s.hq.linkUp = true → s.ready 2 = true →
    exec (.bar4Read off len) s = .next (s.emit (.readData (s.evidGet (s.hq.aperture + off) len)))) ∧
  (∀ (off len : Nat) (s : State), s.hq.linkUp = true → s.ready 2 = true →
    exec (.bar4Write off len) s = .next (s.bar4Discard off)) ∧
  (∀ (q : RingNo) (v : Nat) (s : State), s.hq.linkUp = true → s.ready 3 = true → v < 2 ^ 32 →
    exec (.registerWrite (.bar0 (0x1000 * q.val + 0x20) 4 v)) s =
      .next (s.setRing q.val { s.ring q.val with modTime := field v 16 16, modCount := field v 0 16 })) ∧
  (∀ (c : Ctx) (idx sub ty : Nat) (d : Bytes) (s : State),
    exec (.registerWrite (.object c idx sub ty d)) s = .next (s.objCmd c (idx * 256 + sub) ty d)) ∧
  (∀ (q : RingNo) (s : State), s.hq.linkUp = true → s.ready 3 = true →
    exec (.counterClear (.bar0 (0x1000 * q.val + 0x24) 4 0)) s =
      .next (s.setRing q.val { s.ring q.val with drop := 0, dropOvf := false })) ∧
  (∀ (s : State), s.hq.linkUp = true →
    let s1 := (List.range 64).foldl State.linkDownRing { s with hq := { s.hq with linkUp := false } }
    let s2 := (s1.hq.jobs.filter (fun j => j.st == .landing)).foldl (fun s j => s.rejectJob j 0x15) s1
    exec .pcieLinkDown s = .next ((s2.hq.bases.filter (fun x => x.st == .landing)).foldl (fun s x => s.rejectBase x 0x15) s2))

/-- Edges, index pulses, standstill and enabling of the web channels. Commands: ENC_EDGE, ENC_ILLEGAL, ENC_INDEX,
ENC_STANDSTILL, ENC_ENABLE, WEB_SEL, WEB_SPAN_END. Rests on R96, R97, R98, R99, R100, R101, R102, R103, R104, R105,
R106, R107, R111, R112. -/
def Obligations.WebEncodersCount : Prop :=
  (∀ (w : WebNo) (a b : Bool) (s : State), s.obj (Obj.ENC_ENABLE w.val) = 1 → s.ready 11 = true →
    let c := s.chan (.web w.val)
    let s1 := s.setChan (.web w.val) { c with a := a, b := b }
    let t := s.now - 2 - (s.webKeys w.val).filter
    (a ≠ c.a ∧ b = c.b → exec (.encEdge w a b) s = .next (s1.webCount w.val (b == c.a) t)) ∧
    (a = c.a ∧ b ≠ c.b → exec (.encEdge w a b) s = .next (s1.webCount w.val (b == a) t))) ∧
  (∀ (w : WebNo) (a b : Bool) (s : State), s.obj (Obj.ENC_ENABLE w.val) = 1 → s.ready 11 = true →
    s.obj (Obj.ENC_PATH w.val) = 1 → a ≠ (s.chan (.web w.val)).a → b ≠ (s.chan (.web w.val)).b →
    let s1 := (s.setChan (.web w.val) { s.chan (.web w.val) with a := a, b := b }).count (Obj.ENC_ILLEGAL_CNT w.val) 1
    let s2 := s1.setStatus (s.webKeys w.val) (putBit (s1.objN (Obj.ENC_STATUS w.val)) bIllegal true)
    exec (.encIllegal w a b) s =
      .next (if s.objBit (Obj.ENC_STATUS w.val) bIllegal then s2 else s2.event 24 0x0504 [(12, 1, w.val)])) ∧
  (∀ (w : WebNo) (s : State), s.obj (Obj.ENC_ENABLE w.val) = 1 → s.ready 11 = true →
    bitAt (s.objN (Obj.ENC_STATUS w.val)) bDir = true → bitAt (s.objN (Obj.ENC_STATUS w.val)) bIndexSeen = false →
    s.obj (Obj.ENC_REV_COUNTS w.val) ≠ 0 →
    exec (.encIndex w) s = .next ((s.setChan (.web w.val) { s.chan (.web w.val) with rev := s.objN (Obj.ENC_INDEX_POS w.val) }).setStatus
      (s.webKeys w.val) (putBit (s.objN (Obj.ENC_STATUS w.val)) bIndexSeen true))) ∧
  (∀ (w : WebNo) (s : State), s.obj (Obj.ENC_ENABLE w.val) = 1 → s.ready 11 = true →
    bitAt (s.objN (Obj.ENC_STATUS w.val)) bStandstill = false →
    (s.chan (.web w.val)).lastNs + s.objN (Obj.ENC_STANDSTILL_MS w.val) * msNs ≤ s.now →
    let s1 := (s.setObj (Obj.ENC_SPEED w.val) 0).setStatus (s.webKeys w.val) (putBit (s.objN (Obj.ENC_STATUS w.val)) bStandstill true)
    exec (.encStandstill w) s =
      .next (if s1.web.driver = w.val then ((s1.latchPending none).enterHold false).forwardPredictor else s1)) ∧
  (∀ (c : Ctx) (w : WebNo) (v : BitVec 8) (s : State), s.passes c (Obj.ENC_ENABLE w.val) 1 (le 1 v.toNat) = true →
    let u := s.touch c
    let k := Obj.ENC_ENABLE w.val
    let u1 := (u.setObj k 1).resetChan (.web w.val)
    (v.toNat = 1 → u.obj k ≠ 1 → exec (.encEnable c w v) s = .next
      ((if u1.web.driver = w.val then ({ u1 with ffy := { u1.ffy with hwm := u1.web.pos } } : State).enterHold false else u1).startSpan.written
        k (le 1 v.toNat))) ∧
    (v.toNat = 0 → u.obj k = 1 → u.web.driver ≠ w.val → exec (.encEnable c w v) s = .next
      ((if u.objN Obj.WEB_SEL = w.val then (u.setObj k 0).setObj Obj.WEB_SEL u.web.driver else u.setObj k 0).written k (le 1 v.toNat)))) ∧
  (∀ (c : Ctx) (v : BitVec 8) (s : State), s.passes c Obj.WEB_SEL 2 (le 1 v.toNat) = true →
    (s.touch c).obj (Obj.ENC_ENABLE v.toNat) = 1 →
    exec (.webSel c v) s = .next (((s.touch c).setObj Obj.WEB_SEL v.toNat).written Obj.WEB_SEL (le 1 v.toNat))) ∧
  (∀ (s : State), s.obj (Obj.ENC_ENABLE 0) = 1 → s.obj (Obj.ENC_ENABLE 1) = 1 → s.ready 11 = true →
    s.web.spanStart + s.obj Obj.WEB_CMP_SPAN ≤ s.web.pos →
    let d0 := (s.chan (.web 0)).pos - s.web.span0
    let d1 := (s.chan (.web 1)).pos - s.web.span1
    ((d0 - d1).natAbs : Int) ≤ s.obj Obj.WEB_CMP_WINDOW →
    exec .webSpanEnd s = .next (s.setBit Obj.WEB_DISAGREE 0 false).startSpan) ∧
  (∀ (s : State), s.obj (Obj.ENC_ENABLE 0) = 1 → s.obj (Obj.ENC_ENABLE 1) = 1 → s.ready 11 = true →
    s.web.spanStart + s.obj Obj.WEB_CMP_SPAN ≤ s.web.pos →
    let d0 := (s.chan (.web 0)).pos - s.web.span0
    let d1 := (s.chan (.web 1)).pos - s.web.span1
    s.obj Obj.WEB_CMP_WINDOW < ((d0 - d1).natAbs : Int) → s.objBit Obj.WEB_DISAGREE 0 = false →
    let s1 := (s.setBit Obj.WEB_DISAGREE 0 true).count Obj.WEB_DISAGREE_CNT 1
    exec .webSpanEnd s = .next (s1.event 24 0x0502 [(12, 1, s1.objN Obj.WEB_SEL), (16, 4, bitsOf 32 d0), (20, 4, bitsOf 32 d1)]).startSpan)

/-- Top-of-form marks, compare outputs and axis encoders. Commands: TOF_MARK, TOF_MISSING, CMP_ARM, CMP_TARGET,
CMP_PULSE_END, AXE_EDGE, AXE_INDEX, AXE_SSI_SAMPLE. Rests on R114, R115, R116, R117, R118, R119, R120, R121, R122,
R123, R124, R125. -/
def Obligations.WebMarksAndCompares : Prop :=
  (∀ (t : Fin 8) (rising : Bool) (s : State), s.ready 11 = true →
    s.objN (Obj.TOF_EDGE t.val) = (if rising then 1 else 2) →
    (s.webForward = false → exec (.tofMark t rising) s = .next (s.count (Obj.TOF_REJECT_CNT t.val) 1)) ∧
    (s.webForward = true →
      s.web.recent.find? (fun e => decide (e.2 ≤ s.now - 2 - s.objN (Obj.TOF_FILTER t.val))) = none →
      exec (.tofMark t rising) s =
        .next (s.latchMark t.val (s.web.pos * 2 ^ 32) (s.now - 2 - s.objN (Obj.TOF_FILTER t.val))))) ∧
  (∀ (t : Fin 8) (r : Int) (s : State), s.ready 11 = true → (s.tof t.val).ref = some r →
    s.obj (Obj.TOF_PITCH t.val) ≠ 0 →
    let m := r + s.obj (Obj.TOF_PITCH t.val) * 2 ^ 32
    m + s.obj (Obj.TOF_TOL t.val) * 2 ^ 32 < s.webQ →
    exec (.tofMissing t) s =
      .next ((((s.event 24 0x0506 [(12, 1, t.val), (16, 8, bitsOf 64 (m / 2 ^ 32))]).count (Obj.TOF_MISSING_CNT t.val) 1).setTof t.val
        { s.tof t.val with ref := some m }).useMark t.val m)) ∧
  (∀ (c : Ctx) (k : CmpNo) (v : BitVec 8) (s : State), s.passes c (Obj.CMP_ARM k.val) 2 (le 1 v.toNat) = true →
    exec (.cmpArm c k v) s = .next (((s.touch c).cmpArm k.val v.toNat).written (Obj.CMP_ARM k.val) (le 1 v.toNat))) ∧
  (∀ (k v : Nat) (u : State),
    (v = 0 → u.cmpArm k v = (u.setObj (Obj.CMP_ARM k) 0).setCmp k { u.cmp k with armed := false, waitMark := false, due := none }) ∧
    (v = 1 → let w := (u.setObj (Obj.CMP_ARM k) 1).takeList k
      u.cmpArm k v = w.setCmp k { u.cmp k with
        armed := true, waitMark := false, entry := 0, due := none, last := nearest64 (w.cmpSource k) (w.objN (Obj.CMP_START k)) * 65536 })) ∧
  (∀ (k : CmpNo) (s : State) (p16 : Int), (s.cmp k.val).due = some p16 →
    let w := cmpWalk k.val p16 (s.cmpFuel k.val p16 (s.cmp k.val).last) { st := s, c := { s.cmp k.val with due := none } }
    w.passed = 1 → w.act = 2 → w.c.armed = true →
    exec (.cmpTarget k) s = .next (((w.st.forward (.cmpEntry k.val w.c.entry)).count (Obj.CMP_MISSED_CNT k.val) 0).setCmp k.val
      { w.c with active := true, pulseEnd := none })) ∧
  (∀ (k : CmpNo) (t : Nat) (s : State), (s.cmp k.val).pulseEnd = some t → t ≤ s.now →
    exec (.cmpPulseEnd k) s = .next (s.setCmp k.val { s.cmp k.val with active := false, pulseEnd := none })) ∧
  (∀ (x : Axis) (a b : Bool) (s : State), s.obj (Obj.AXE_MODE x.val) = 1 → s.ready 11 = true →
    let c := s.chan (.axis x.val)
    let s1 := s.setChan (.axis x.val) { c with a := a, b := b }
    let t := s.now - 2 - s.objN (Obj.AXE_FILTER x.val)
    (a ≠ c.a ∧ b = c.b → exec (.axeEdge x a b) s = .next (s1.axisCount x.val (b == c.a) t)) ∧
    (a = c.a ∧ b ≠ c.b → exec (.axeEdge x a b) s = .next (s1.axisCount x.val (b == a) t))) ∧
  (∀ (x : Axis) (s : State), s.obj (Obj.AXE_MODE x.val) = 1 → s.ready 11 = true →
    bitAt (s.objN (Obj.AXE_STATUS x.val)) bDir = true →
    exec (.axeIndex x) s = .next (((s.setObj (Obj.AXE_INDEX_LATCH x.val) (bitsOf 64 (s.chan (.axis x.val)).pos)).setObj
      (Obj.AXE_STATUS x.val) (putBit (s.objN (Obj.AXE_STATUS x.val)) bIndexSeen true)).homeIndex x.val)) ∧
  (∀ (x : Axis) (bits : List Bool) (s : State), s.obj (Obj.AXE_MODE x.val) = 2 → s.ready 11 = true →
    (s.chan (.axis x.val)).ssiGood = none → s.objBit (Obj.AXE_STATUS x.val) bSsiInvalid = false →
    let f := s.objN (Obj.AXE_SSI_FRAME x.val)
    field f 20 2 = 0 → bitAt f 22 = false → bitAt f 23 = false → field f 16 4 + field f 0 6 = bits.length →
    let v := bitsToNat ((bits.drop (field f 16 4)).take (field f 0 6))
    let s1 := (s.setChan (.axis x.val) { s.chan (.axis x.val) with
      pos := v, any := true, ssiBad := 0, ssiGood := some (v, v, s.now) }).setObj (Obj.AXE_SPEED x.val) 0
    exec (.axeSsiSample x false bits) s = .next s1)

/-- Decoding of fire lines and check lines, and late check lines. Commands: FIRE_DECODE_LINE, CHECK_DECODE_LINE,
CHECK_LATE. Rests on R79, R80, R81, R82, R83, R84, R85, R86, R87, R88, R89, R90, R91, R92, R93, R94. -/
def Obligations.LanesDecode : Prop :=
  (∀ (b : Bar) (j : Job) (s : State), s.nextFireLine b.val = some j → s.ready (4 + b.val / 2) = true →
    s.dramReady = true → (s.fireLane b.val).buf.length < 64 →
    let lane := s.fireLane b.val
    let l := (j.bar b.val).decoded
    let r := s.jobDecode j b.val
    let x := r.1.getD l {}
    let base := (s.baseDecode j b.val).getD []
    let adv := baseAdvance j.baseId base lane.basePos x.reqs
    let cost := if s.barPrints j b.val then max x.cost (baseCost base lane.basePos j.baseId x.reqs) else 0
    let buf := if l < (j.bar b.val).departed then lane.buf else lane.buf ++ [⟨j.id, l, x.dots, x.blank⟩]
    let s1 := (s.setFireLane b.val { lane with basePos := adv.1, buf := buf, cost := cost }).count (Obj.SCB_BASE_RESTART b.val) adv.2
    let s2 := s1.mapJob j.id (fun j => j.setBar b.val (fun y => { y with decoded := y.decoded + 1 }))
    exec (.fireDecodeLine b) s = .next ((r.2.filter (fun e => e.line == l)).foldl (fun s e => s.norrekError j b.val e) s2)) ∧
  (∀ (j : Job) (p : Int) (s : State), s.nextCheckLine = some j → s.camPos j (j.bar 0).checked = some p →
    s.ready 8 = true → s.dramReady = true → p - 64 * s.pitchR ≤ s.webQ →
    exec .checkDecodeLine s = .next (s.deliverCheck j false)) ∧
  (∀ (j : Job) (p : Int) (s : State), s.nextCheckLine = some j → s.camPos j (j.bar 0).checked = some p →
    p ≤ s.webQ → s.ready 8 = true →
    let late := (List.range 8).filter (fun b => s.checkedOn j b (j.bar 0).checked)
    late ≠ [] →
    let s1 := late.foldl (fun s b => s.count (Obj.SCB_CHECK_LATE b) 1) s
    let s2 := if j.checkLate then s1 else s1.event (24 + j.cls) 0x0303
      [(12, 4, j.id), (16, 1, late.foldl (fun v b => v + 2 ^ b) 0), (18, 2, (j.bar 0).checked)]
    exec .checkLate s = .next ((s2.mapJob j.id (fun j => { j with checkLate := true, unverified := true })).deliverCheck j true))

/-- Writes that abort a job, set the next PSN, resume firing, cancel a set, clear and restore wear. Commands:
JOB_ABORT, PSN_NEXT, FFY_RESUME, COMMIT_CANCEL, WEAR_FLUSH, WEAR, WEAR_RESTORE. Rests on R49, R50, R150, R180, R181,
R321. -/
def Obligations.PrintObjectsWrite : Prop :=
  (∀ (c : Ctx) (id : BitVec 32) (s : State), s.passes c Obj.JOB_ABORT 4 (le 4 id.toNat) = true →
    ((s.touch c).abortJob id.toNat).2 = 0 →
    exec (.jobAbort c id) s = .next (((s.touch c).abortJob id.toNat).1.written Obj.JOB_ABORT (le 4 id.toNat))) ∧
  (∀ (c : Ctx) (v : BitVec 32) (s : State), s.passes c Obj.PSN_NEXT 4 (le 4 v.toNat) = true → s.hq.jobs = [] →
    let u := s.touch c
    exec (.psnNext c v) s =
      .next ((({ u with hq := { u.hq with psnNext := v.toNat } } : State).psnWatch).written Obj.PSN_NEXT (le 4 v.toNat))) ∧
  (∀ (c : Ctx) (v : BitVec 8) (s : State), s.passes c Obj.FFY_RESUME 2 (le 1 v.toNat) = true →
    let u := s.touch c
    exec (.ffyResume c v) s =
      .next ((if u.ffy.suspended then ({ u with ffy := { u.ffy with resumed := true } } : State).tryResume else u).written
        Obj.FFY_RESUME (le 1 v.toNat))) ∧
  (∀ (c : Ctx) (n : BitVec 32) (x : CommitSet) (s : State), s.passes c Obj.COMMIT_CANCEL 4 (le 4 n.toNat) = true →
    s.toa.pending.find? (fun y => y.number == n.toNat) = some x → x.doneBars = 0 → x.doneCams = 0 →
    (x.super = true → (s.touch c).isSuper c.sess = true) →
    exec (.commitCancel c n) s = .next (((s.touch c).finishSet n.toNat 5).written Obj.COMMIT_CANCEL (le 4 n.toNat))) ∧
  (∀ (h : Head) (n : Fin 8192) (s : State), exec (.wearFlush h n) s = .next (s.flushWear h.val n.val)) ∧
  (∀ (c : Ctx) (h : Head) (d : Bytes) (s : State), s.passes c (Obj.WEAR h.val) 13 d = true → d.length = 65536 →
    exec (.wear c h d) s = .next ((((s.touch c).dropTransfer c.sess).clearWear h.val 0 8192).written (Obj.WEAR h.val) d)) ∧
  (∀ (c : Ctx) (h : Head) (d : Bytes) (s : State), s.passes c (Obj.WEAR_RESTORE h.val) 13 d = true →
    let u := (s.touch c).dropTransfer c.sess
    (u.headDev h.val).drops = false →
    exec (.wearRestore c h d) s = .next ((u.restoreWear h.val 0 (tableWords 8 d)).written (Obj.WEAR_RESTORE h.val) d))

/-- Head links: signal, lock, training, its failure, and enabling. Commands: LANE_SIGNAL_DETECT, BLOCK_LOCK,
BLOCK_LOCK_LOSS, TRAIN_FRAME_SEND, TRAIN_FRAME_RECEIVE, TRAIN_FAIL, HL_ENABLE. Rests on R185, R186, R189, R208, R210,
R215, R216, R217. -/
def Obligations.HeadLinksTrain : Prop :=
  (∀ (h : Head) (s : State), s.ready (headDomain h.val) = true →
    exec (.laneSignalDetect h) s =
      .next ((s.setHeadDev h.val { s.headDev h.val with signal := true }).laneBits h.val [lnSignal] [])) ∧
  (∀ (h : Head) (s : State), s.hlOn h.val = true → (s.headDev h.val).lock = false → s.obj (Obj.HL_STATE h.val) = 0 →
    (s.headDev h.val).retryAt ≤ s.aclkNs →
    let s1 := s.setHeadDev h.val { s.headDev h.val with lock := true, trainSince := s.aclkNs, rdySent := 0, rdyRecv := 0, stat := 0 }
    exec (.blockLock h) s = .next (((s1.setObj (Obj.HL_STATE h.val) 1).setBit (Obj.HL_LINK_STATUS h.val) 0 true).laneBits h.val
      [lnSignal, lnCdr, lnLocked, lnAdapting] [])) ∧
  (∀ (h : Head) (s : State), (s.headDev h.val).lock = true →
    exec (.blockLockLoss h) s = .next ((s.count (Obj.LANE_LOCK_LOSS_CNT h.val) 1).headLost h.val 1)) ∧
  (∀ (h : Head) (s : State), (s.headDev h.val).lock = true → (s.headDev h.val).trained = false →
    s.obj (Obj.HL_STATE h.val) = 1 → bitAt (s.headDev h.val).stat 6 = true →
    let d := s.headDev h.val
    let stat := putBit d.stat 6 true
    exec (.trainFrameSend h) s = .next (((s.drawNat.2.setHeadDev h.val { d with stat := stat, rdySent := d.rdySent + 1 }).hlTx h.val 11
      (withCrc (layout 12 [(0, 1, 0), (1, 1, 0), (2, 1, 0), (3, 1, stat)]))).trainDone h.val)) ∧
  (∀ (h : Head) (body : Bytes) (s : State), (s.headDev h.val).lock = true → frameOk 16 body = true →
    (s.headDev h.val).trained = false →
    let d := s.headDev h.val
    let t := tapRequests (s.objN (Obj.LANE_TX_TAPS h.val)) (byteAt body 0) (byteAt body 1) (byteAt body 2)
    exec (.trainFrameReceive h body) s = .next (((s.setObj (Obj.LANE_TX_TAPS h.val) t.1).setHeadDev h.val { d with
      stat := t.2 + (if bitAt d.stat 6 then 64 else 0), rdyRecv := if bitAt (byteAt body 3) 6 then d.rdyRecv + 1 else 0 }).trainDone
      h.val)) ∧
  (∀ (h : Head) (s : State), s.obj (Obj.HL_STATE h.val) = 1 → (s.headDev h.val).trained = false →
    (s.headDev h.val).trainSince + s.objN Obj.HL_TRAIN_TIMEOUT * msNs ≤ s.aclkNs →
    let s1 := ((s.event 24 0x0807 [(12, 1, h.val)]).setObj (Obj.HL_STATE h.val) 0).hlDown h.val
    exec (.trainFail h) s = .next (s1.setHeadDev h.val { s1.headDev h.val with retryAt := s1.aclkNs + 10 * msNs })) ∧
  (∀ (c : Ctx) (h : Head) (v : BitVec 8) (s : State), s.passes c (Obj.HL_ENABLE h.val) 1 (le 1 v.toNat) = true →
    let u := s.touch c
    let k := Obj.HL_ENABLE h.val
    (v.toNat = 1 → u.obj (Obj.LANE_MODE h.val) ≠ 1 →
      let u1 := u.setObj k 1
      exec (.hlEnable c h v) s = .next ((if u1.obj (Obj.HL_STATE h.val) = 6 then (u1.setObj (Obj.HL_STATE h.val) 0).hlDown h.val else u1).written
        k (le 1 v.toNat))) ∧
    (v.toNat = 0 →
      let st := u.objN (Obj.HL_STATE h.val)
      let u1 := if 2 ≤ st ∧ st ≤ 5 then u.releaseHead h.val else u
      exec (.hlEnable c h v) s =
        .next (((((u1.setObj k 0).setObj (Obj.HL_STATE h.val) 0).hlDown h.val).refreshSets).written k (le 1 v.toNat))))

/-- Enumeration, telemetry, control, time and authority frames of the head links. Commands: TELEMETRY_RECEIVE,
TELEMETRY_TIMEOUT, ENUM_RECEIVE, CONTROL_RESEND, ECHO_RECEIVE, TIME_FRAME_SEND, AUTH_SEND, LANE_SLIP. Rests on R187,
R188, R195, R198, R199, R200, R201, R203, R209. -/
def Obligations.HeadFramesServe : Prop :=
  (∀ (h : Head) (body : Bytes) (s : State), (s.headDev h.val).lock = true → frameOk 32 body = true →
    (s.headDev h.val).trained = true →
    let lseq := getN body 0 4
    let temp := getI body 4 2
    let st := byteAt body 6
    let d := s.headDev h.val
    let s1 := (s.setObj (Obj.HL_TEMP h.val) temp).setObj (Obj.HL_HEAD_STATE h.val) ((st + 256 * (byteAt body 7 / 2 % 2) : Nat) : Int)
    let s2 := match d.counts with
      | some (a, b, c, e) =>
        (((s1.addMod8 (Obj.HL_HDR_ERR h.val) a (byteAt body 24)).addMod8 (Obj.HL_LATE h.val) b (byteAt body 25)).addMod8
          (Obj.HL_BUSY h.val) c (byteAt body 26)).addMod8 (Obj.HL_HEAD_DISCARD h.val) e (byteAt body 27)
      | none => s1
    let acked := match d.cur with | some (_, q) => q == getN body 12 2 | none => false
    let s3 := s2.setHeadDev h.val { d with
      teleNs := s2.aclkNs, counts := some (byteAt body 24, byteAt body 25, byteAt body 26, byteAt body 27), trimCrc := getN body 20 4
      cur := if acked then none else d.cur }
    let s4 := (s3.setObj (Obj.LCW_WAVE_STAGED h.val) ((getN body 16 4 : Nat) : Int)).ctlNext h.val
    let s5 := s4.portReport h.val (if bitAt st 6 then b2n (bitAt st 2) else 0xFF) (getN body 8 4)
    let s6 := if s5.hasAuthority then s5 else s5.setHeadDev h.val { s5.headDev h.val with
      waveGen := field (byteAt body 14) 0 4, trimGen := field (byteAt body 14) 4 4 }
    let s7 := (s6.bringUp h.val (bitAt st 5) (getN body 16 4) (getN body 20 4) (byteAt body 14)).serviceReport h.val (bitAt st 1)
    let s8 := if bitAt st 5 ∧ !s7.time.stepFrames.contains h.val then
        { s7 with time := { s7.time with stepHeads := s7.time.stepHeads.filter (fun x => x ≠ h.val) } }
      else s7
    let s9 := if s8.inService h.val then (s8.hotReport h.val lseq (bitAt st 0)).sf1Report h.val temp else s8
    let s10 := if bitAt st 7 then
        s9.event 24 0x0808 [(12, 1, h.val), (13, 1, ((s9.headDev h.val).bound.getD ⟨0, 0, 0⟩).op),
          (16, 4, ((s9.headDev h.val).bound.getD ⟨0, 0, 0⟩).arg0)]
      else s9
    exec (.telemetryReceive h body) s = .next (if bitAt st 6 then s10.stepDown (getN body 8 4) else s10).refreshSets) ∧
  (∀ (h : Head) (s : State), (s.headDev h.val).trained = true → 2 ≤ s.objN (Obj.HL_STATE h.val) →
    s.objN (Obj.HL_STATE h.val) ≤ 5 → (s.headDev h.val).teleNs + 1000 * s.objN Obj.HL_TELE_TIMEOUT ≤ s.aclkNs →
    exec (.telemetryTimeout h) s = .next (s.headLost h.val 2)) ∧
  (∀ (h : Head) (body : Bytes) (s : State), (s.headDev h.val).lock = true → frameOk 48 body = true →
    (s.headDev h.val).trained = true → s.obj (Obj.HL_STATE h.val) = 1 → (s.headDev h.val).stage = 0 →
    (∀ c, enumCause body = some c → exec (.enumReceive h body) s = .next (s.headRefused h.val c)) ∧
    (enumCause body = none → (s.headDev h.val).keep = false →
      let s1 := (s.setBlob (Obj.HL_IDENTITY h.val) 0 (body.take 44)).freshHead h.val
      let s2 := (s1.setHeadDev h.val { s1.headDev h.val with stage := 1, keep := false }).ctlSend h.val ⟨1, h.val, 0⟩
      let s3 := s2.ctlSend h.val (s2.ctlHotLimit h.val)
      exec (.enumReceive h body) s = .next ((s3.ctlSend h.val s2.ctlSlots).ctlSend h.val ⟨7, 0, 0⟩))) ∧
  (∀ (h : Head) (c : Ctl) (q : Nat) (s : State), (s.headDev h.val).cur = some (c, q) →
    (s.headDev h.val).sentNs + 20000 ≤ s.aclkNs → (s.headDev h.val).sends < 50 →
    let d := s.headDev h.val
    exec (.controlResend h) s =
      .next ((s.setHeadDev h.val { d with sends := d.sends + 1, sentNs := s.aclkNs }).hlTx h.val 5 (ctlBody c q))) ∧
  (∀ (h : Head) (body : Bytes) (rtt : Int) (s : State), (s.headDev h.val).lock = true → frameOk 24 body = true →
    (s.headDev h.val).trained = true → getN body 0 2 = (s.headDev h.val).timeSeq →
    (s.headDev h.val).accepted < s.objN Obj.HL_DELAY_AVG →
    let d := s.headDev h.val
    let err := getI body 10 4
    let turn : Int := (getN body 4 4 : Nat)
    let one := (rtt * 256 - turn * 1000 + s.obj (Obj.HL_ASYM h.val) * 256) / 512
    let s1 := ((s.setObj (Obj.HL_RTT h.val) ((bitsOf 32 rtt : Nat) : Int)).setObj (Obj.HL_TIME_ERR h.val) (err * 1000 / 256)).timeErrReport
      h.val err
    let l := (one :: d.delays).take (s.objN Obj.HL_DELAY_AVG)
    let s2 := (s1.setHeadDev h.val { s1.headDev h.val with delays := l, accepted := d.accepted + 1 }).setObj (Obj.HL_DELAY h.val)
      (max 0 (meanDelay l))
    exec (.echoReceive h body rtt) s = .next (if 150000 < meanDelay l then s2.headRefused h.val 7 else s2)) ∧
  (∀ (h : Head) (s : State), (s.headDev h.val).trained = true →
    (s.headDev h.val).timeNs + 1000 * s.objN Obj.HL_TIME_PERIOD ≤ s.aclkNs →
    let d := s.headDev h.val
    let t := s.timeIn (s.objN (Obj.HL_DELAY h.val))
    let q := (d.timeSeq + 1) % 2 ^ 16
    let body := layout 20 [(0, 2, q), (2, 1, b2n (s.time.state != 2) + 2 * b2n (s.time.stepFrames.contains h.val)), (4, 6, t.1),
      (10, 4, t.2.1), (14, 4, t.2.2)]
    let s1 := s.setHeadDev h.val { d with timeSeq := q, timeNs := s.aclkNs }
    exec (.timeFrameSend h) s = .next
      (({ s1 with time := { s1.time with stepFrames := s1.time.stepFrames.filter (fun x => x ≠ h.val) } } : State).hlTx h.val 7
        (withCrc body))) ∧
  (∀ (h : Head) (s : State), s.takesAuth h.val = true →
    exec (.authSend h) s = .next ((s.setHeadDev h.val { s.headDev h.val with authNs := s.aclkNs }).hlTx h.val (if s.hasAuthority then 3 else 4)
      (s.authBody s.hasAuthority))) ∧
  (∀ (c : Ctx) (n : LaneNo) (v : BitVec 8) (s : State), s.passes c (Obj.LANE_SLIP n.val) 2 (le 1 v.toNat) = true →
    let u := s.touch c
    exec (.laneSlip c n v) s = .next ((if laneGroup n.val = 0 ∨ u.laneTest n.val then
      u.setLane n.val { u.lane n.val with slip := ((u.lane n.val).slip + 1) % 66 } else u).written (Obj.LANE_SLIP n.val) (le 1 v.toNat)))

/-- What a head module does with its frames: authority, lapse, time, line data, fire times, tables. Commands:
HEAD_AUTH_RECEIVE, HEAD_PORT_LAPSE, HEAD_TIME_RECEIVE, HEAD_LINE_DATA_RECEIVE, HEAD_FIRE_TIME_RECEIVE,
HEAD_TABLE_RECEIVE. Rests on R190, R191, R192, R197, R200, R203. -/
def Obligations.HeadModulesReceive : Prop :=
  (∀ (h : Head) (p : Fin 2) (body : Bytes) (s : State), frameOk 16 body = true →
    let x := (s.headSide h.val).setPort p.val (fun q => { q with
      fresh := true, epoch := getN body 0 4, lease := getN body 4 4, authNs := s.now })
    exec (.headAuthReceive h p body) s = .next (s.setHeadSide h.val (s.chooseObeyed x))) ∧
  (∀ (h : Head) (p : Fin 2) (s : State), ((s.headSide h.val).port p.val).fresh = true →
    ((s.headSide h.val).port p.val).authNs + ((s.headSide h.val).port p.val).lease ≤ s.now →
    exec (.headPortLapse h p) s =
      .next (s.setHeadSide h.val (s.chooseObeyed ((s.headSide h.val).setPort p.val (fun q => { q with fresh := false }))))) ∧
  (∀ (h : Head) (p : Fin 2) (body : Bytes) (e : Int) (s : State), frameOk 24 body = true →
    (s.headSide h.val).obeyed = some p.val →
    ((s.headSide h.val).synced = false ∨ bitAt (byteAt body 2) 1 = true) →
    let echo := withCrc (layout 20 [(0, 2, getN body 0 2), (2, 1, p.val), (4, 4, s.drawNat.1 % (10000 * 256 + 1)), (10, 4, errField e)])
    exec (.headTimeReceive h p body e) s = .next ((s.drawNat.2.emit (.headTx h.val p.val 8 echo)).setHeadSide h.val
      { s.headSide h.val with synced := true, err := 0, timeLock := false, good := 0, bad := 0 })) ∧
  (∀ (h : Head) (p : Fin 2) (body : Bytes) (s : State), body.length = 2080 →
    getN body 28 4 = crc32c (body.take 28) →
    let x := (s.headSide h.val).reap (s.headNs h.val)
    x.takes p.val (byteAt body 7) = true → getN body 8 4 = (x.port p.val).epoch → x.isCommitted (getN body 0 4) = false →
    exec (.headLineDataReceive h p body) s = .next (s.setHeadSide h.val (x.withSlot (headSlots h.val) (getN body 0 4) (fun c => { c with
      line := some (getN body 4 2, byteAt body 12, body.drop 32), hdrBad := false })))) ∧
  (∀ (h : Head) (p : Fin 2) (body : Bytes) (a b : FireTime) (s : State), frameOk 32 body = true →
    let ns := s.headNs h.val
    let x := (s.headSide h.val).reap ns
    bitAt (byteAt body 4) 0 = true → bitAt (byteAt body 4) 1 = true → bitAt (byteAt body 4) 2 = false →
    fireTimeOf (ns / 1000000000) (getN body 8 8) = some a → fireTimeOf (ns / 1000000000) (getN body 16 8) = some b →
    isCancel (getN body 8 8) = false → isCancel (getN body 16 8) = false →
    x.takes p.val (byteAt body 5) = true → ({ x with lastFt := some (getN body 0 4) } : HeadSide).isCommitted (getN body 0 4) = false →
    exec (.headFireTimeReceive h p body) s = .next (s.setHeadSide h.val
      (({ x with lastFt := some (getN body 0 4) } : HeadSide).withSlot (headSlots h.val) (getN body 0 4) (fun c => { c with tA := a, tB := b })))) ∧
  (∀ (h : Head) (p : Fin 2) (body : Bytes) (s : State), frameOk 144 body = true →
    (s.headSide h.val).obeyed = some p.val →
    let x := s.headSide h.val
    let k := getN body 2 2
    let d := (body.drop 8).take (min 128 (getN body 4 2))
    (byteAt body 0 = 0 → k < 2 →
      let y := x.waveLoad.take x.waveStaged 2 k (getN body 136 4) d
      exec (.headTableReceive h p body) s = .next (s.setHeadSide h.val { x with waveLoad := y.1, waveStaged := y.2 })) ∧
    (byteAt body 0 = 1 → k < 256 →
      let y := x.trimLoad.take x.trimStaged 256 k (getN body 136 4) d
      exec (.headTableReceive h p body) s = .next (s.setHeadSide h.val { x with trimLoad := y.1, trimStaged := y.2 })))

/-- Committing and firing lines at a head, heat, and the frames it sends. Commands: HEAD_LINE_COMMIT, HEAD_ROW_FIRE,
HEAD_HOT_ENTER, HEAD_ENUM_SEND, HEAD_TELEMETRY_SEND. Rests on R153, R174, R176, R193, R194, R198, R207. -/
def Obligations.HeadModulesFire : Prop :=
  (∀ (h : Head) (lseq : Nat) (c : HSlot) (r t : Nat) (s : State),
    let x := (s.headSide h.val).reap (s.headNs h.val)
    x.slot? lseq = some c → c.first = some (r, t) → c.committed = false → t ≤ s.headNs h.val →
    (c.hdrBad && c.line.isNone) = false → s.mayCommit (x.reach lseq) c = true →
    let z := x.reach lseq
    let y := s.fireRow h.val { z with
      slots := z.slots.map (fun d => if d.lseq = lseq then { d with committed := true } else d)
      lastCommit := lseq, lastCommitNs := s.now, anyCommit := true, ports := z.ports.map (fun p => { p with teleDue := true }) } c r t
    exec (.headLineCommit h lseq) s = .next (y.1.setHeadSide h.val y.2)) ∧
  (∀ (h : Head) (lseq : Nat) (row : Fin 2) (c : HSlot) (t : Nat) (s : State),
    (s.headSide h.val).slot? lseq = some c → (if row.val = 0 then c.tA else c.tB).ns? = some t → c.committed = true →
    (if row.val = 0 then c.firedA else c.firedB) = false → t ≤ s.headNs h.val →
    let y := s.fireRow h.val (s.headSide h.val) c row.val t
    exec (.headRowFire h lseq row) s = .next (y.1.setHeadSide h.val y.2)) ∧
  (∀ (h : Head) (temp : Int) (s : State),
    exec (.headHotEnter h temp) s = .next (s.setHeadSide h.val { s.headSide h.val with
      temp := temp, hot := (s.headSide h.val).hot || (s.headSide h.val).hotLimit.any (fun l => decide (l ≤ temp)) })) ∧
  (∀ (h : Head) (p : Fin 2) (s : State), s.portTrained h.val p.val = true → ((s.headSide h.val).port p.val).asn = false →
    ((s.headSide h.val).port p.val).enumNs.any (fun t => decide (s.now < t + 100000)) = false →
    exec (.headEnumSend h p) s = .next ((s.setHeadSide h.val ((s.headSide h.val).setPort p.val (fun q => { q with enumNs := some s.now }))).emit
      (.headTx h.val p.val 10 (enumBody h.val p.val)))) ∧
  (∀ (h : Head) (p : Fin 2) (s : State), s.portTrained h.val p.val = true →
    (((s.headSide h.val).port p.val).teleDue = true ∨
      (s.headSide h.val).lastCommitNs + 10000 ≤ s.now ∧ ((s.headSide h.val).port p.val).teleNs + 10000 ≤ s.now) →
    exec (.headTelemetrySend h p) s = .next ((s.setHeadSide h.val ((s.headSide h.val).setPort p.val (fun q => { q with
      teleNs := s.now, teleDue := false, ctlLate := false }))).emit (.headTx h.val p.val 9 (s.teleBody (s.headSide h.val) p.val))))

/-- The CONTROL operations at a head, in the order of their sequence numbers. Commands: ASSIGN, HOT_LIMIT, HOT_CLEAR,
BANK_SWITCH, SERVICE, RELEASE, TIME_ACQUIRE, SLOTS. Rests on R195, R196, R197. -/
def Obligations.HeadControlsApply : Prop :=
  (∀ (h : Head) (p : Fin 2) (cseq a b : Nat) (s : State),
    ((s.headSide h.val).assigned = none ∨ (s.headSide h.val).assigned = some (a % 128)) →
    exec (.assign h p cseq a b) s = .next (s.setHeadSide h.val
      (({ s.headSide h.val with assigned := some (a % 128) } : HeadSide).setPort p.val (fun q => { q with cseq := cseq % 2 ^ 16, asn := true })))) ∧
  (∀ (h : Head) (p : Fin 2) (cseq a b : Nat) (s : State), (s.headSide h.val).obeyed = some p.val →
    (((s.headSide h.val).port p.val).cseq + 1 = cseq ∨ ((s.headSide h.val).port p.val).cseq = 2 ^ 16 - 1 ∧ cseq = 0) →
    let x := s.headSide h.val
    let put := fun (y : HeadSide) => (Host.Outcome.next (s.setHeadSide h.val (y.setPort p.val (fun q => { q with cseq := cseq }))) : Outcome)
    exec (.hotLimit h p cseq a b) s = put { x with hotLimit := some (sext 16 a) } ∧
    exec (.hotClear h p cseq a b) s = put (x.bindOp ⟨3, a % 2 ^ 32, b⟩) ∧
    exec (.bankSwitch h p cseq a b) s = put (x.bindOp ⟨4, a % 2 ^ 32, b⟩) ∧
    exec (.service h p cseq a b) s = put (x.bindOp ⟨5, a % 2 ^ 32, b⟩) ∧
    exec (.release h p cseq a b) s = put { x with
      inService := false, slots := x.slots.filter (·.committed), bound := x.bound.filter (fun c => c.op ≠ 5) } ∧
    exec (.timeAcquire h p cseq a b) s = put { x with synced := false } ∧
    exec (.slots h p cseq a b) s = put { x with slotNs := a % 256 })

/-- Lane test logic: retraining, the eye monitor, TEST_LOOP, loopback, injection and the checker. Commands:
LANE_RETRAIN, LANE_RETRAIN_IDLE, LANE_EYE_START, EYE_SCAN_END, LANE_MODE, LANE_LOOP, LANE_INJECT, PRBS_LOCK_LOSS,
PRBS_CHECKER_LOCK. Rests on R217, R218, R219, R220, R221, R222, R223, R224, R225, R226. -/
def Obligations.LanesTest : Prop :=
  (∀ (c : Ctx) (n : LaneNo) (v : BitVec 8) (s : State), s.passes c (Obj.LANE_RETRAIN n.val) 2 (le 1 v.toNat) = true →
    let u := s.touch c
    let k := Obj.LANE_RETRAIN n.val
    (laneGroup n.val = 0 → u.inService n.val = true →
      exec (.laneRetrain c n v) s = .next ((u.laneBits n.val [9] []).written k (le 1 v.toNat))) ∧
    (laneGroup n.val = 0 → u.inService n.val = false →
      exec (.laneRetrain c n v) s = .next ((u.retrainHead n.val).written k (le 1 v.toNat))) ∧
    (laneGroup n.val = 3 →
      exec (.laneRetrain c n v) s = .next ((((u.calInterrupt 1 n.val).eyeAbort n.val).twinLaneDown (n.val - 160)).written k (le 1 v.toNat))) ∧
    (laneGroup n.val ≠ 0 → laneGroup n.val ≠ 3 →
      exec (.laneRetrain c n v) s = .next ((((u.calInterrupt 1 n.val).eyeAbort n.val).emit (.laneTx n.val 1)).written k (le 1 v.toNat)))) ∧
  (∀ (n : LaneNo) (s : State), laneGroup n.val = 0 → bitAt (s.objN (Obj.LANE_STATUS n.val)) 9 = true →
    s.barIdle (n.val / 16) = true → exec (.laneRetrainIdle n) s = .next (s.retrainHead n.val)) ∧
  (∀ (c : Ctx) (n : LaneNo) (v : BitVec 8) (s : State), s.passes c (Obj.LANE_EYE_START n.val) 2 (le 1 v.toNat) = true →
    let u := s.touch c
    u.obj (Obj.LANE_EYE_STATE n.val) ≠ 1 →
    exec (.laneEyeStart c n v) s = .next (((u.setLane n.val { u.lane n.val with eye := v.toNat }).setObj (Obj.LANE_EYE_STATE n.val) 1).written
      (Obj.LANE_EYE_START n.val) (le 1 v.toNat))) ∧
  (∀ (n : LaneNo) (dis : List Nat) (s : State), s.obj (Obj.LANE_EYE_STATE n.val) = 1 →
    exec (.eyeScanEnd n false dis) s = .next (((s.setLane n.val { s.lane n.val with eye := 0 }).setObj (Obj.LANE_EYE_STATE n.val) 3).setObj
      (Obj.LANE_EYE_STAMP n.val) (s.stamp : Nat))) ∧
  (∀ (c : Ctx) (n : LaneNo) (v : BitVec 8) (s : State), s.passes c (Obj.LANE_MODE n.val) 2 (le 1 v.toNat) = true →
    let u := s.touch c
    (v.toNat = 1 → u.heldDown n.val c.transport = true) → u.obj (Obj.LANE_MODE n.val) ≠ (v.toNat : Int) →
    let u1 := (((u.eyeAbort n.val).prbsUnlock n.val).setObj (Obj.LANE_MODE n.val) (v.toNat : Int)).setBit (Obj.LANE_STATUS n.val) 7 (v.toNat == 1)
    let u2 := if v.toNat = 0 then u1.setObj (Obj.LANE_RATE n.val) (Obj.dflt (Obj.LANE_RATE n.val)) else u1
    let u3 := if laneGroup n.val = 0 then u2.hlDown n.val else u2.laneBits n.val [] [lnCdr, lnLocked, lnTrained, lnAdapting]
    exec (.laneMode c n v) s = .next ((u3.event 24 0x0902 [(12, 1, n.val), (13, 1, v.toNat)]).written (Obj.LANE_MODE n.val) (le 1 v.toNat))) ∧
  (∀ (c : Ctx) (n : LaneNo) (v : BitVec 8) (s : State), s.passes c (Obj.LANE_LOOP n.val) 2 (le 1 v.toNat) = true →
    let u := s.touch c
    u.laneTest n.val = true →
    exec (.laneLoop c n v) s = .next ((((u.eyeAbort n.val).prbsUnlock n.val).setObj (Obj.LANE_LOOP n.val) (v.toNat : Int)).written
      (Obj.LANE_LOOP n.val) (le 1 v.toNat))) ∧
  (∀ (c : Ctx) (n : LaneNo) (v : BitVec 8) (s : State), s.passes c (Obj.LANE_INJECT n.val) 2 (le 1 v.toNat) = true →
    let u := s.touch c
    u.patOn n.val = true →
    let k := if v.toNat = 2 then u.objN (Obj.LANE_INJ_BURST n.val) else 1
    let u1 := u.emit (.laneTx n.val (16 + k))
    exec (.laneInject c n v) s = .next ((if u1.obj (Obj.LANE_LOOP n.val) = 1 ∧ u1.patRuns n.val then
      (u1.prbsSync n.val).count (Obj.LANE_PRBS_ERR n.val) k else u1).written (Obj.LANE_INJECT n.val) (le 1 v.toNat))) ∧
  (∀ (n : LaneNo) (bits errors : Nat) (s : State), s.patRuns n.val = true → 512 ≤ errors → bits ≤ 1024 →
    exec (.prbsLockLoss n bits errors) s =
      .next (((s.prbsSync n.val).count (Obj.LANE_PRBS_ERR n.val) errors).count (Obj.LANE_PRBS_RELOCK n.val) 1)) ∧
  (∀ (n : LaneNo) (s : State), s.laneTest n.val = true → s.obj (Obj.LANE_PAT_CHK n.val) ≠ 0 →
    s.obj (Obj.LANE_LOOP n.val) ≠ 2 → bitAt (s.objN (Obj.LANE_PAT_STATUS n.val)) 0 = false →
    (s.obj (Obj.LANE_LOOP n.val) = 1 → s.obj (Obj.LANE_PAT_GEN n.val) = s.obj (Obj.LANE_PAT_CHK n.val)) →
    exec (.prbsCheckerLock n) s = .next ((s.setLane n.val { s.lane n.val with since := s.now }).setBit (Obj.LANE_PAT_STATUS n.val) 0 true)) ∧
  (∀ (n : LaneNo) (dis : List Nat) (s : State), s.obj (Obj.LANE_EYE_STATE n.val) = 1 → (s.lane n.val).eye ≠ 2 →
    let th := s.objN (Obj.LANE_EYE_THRESH n.val)
    let w := eyeRun ((dis.take 64).map (fun d => decide (d ≤ th)))
    let h := eyeRun (((dis.drop 64).take 64).map (fun d => decide (d ≤ th))) * (if laneF n.val then 3 else 4)
    let s1 := (((s.setLane n.val { s.lane n.val with eye := 0 }).setObj (Obj.LANE_EYE_STATE n.val) 2).setObj (Obj.LANE_EYE_W n.val)
      (w : Nat)).setObj (Obj.LANE_EYE_H n.val) (h : Nat)
    let s2 := s1.setObj (Obj.LANE_EYE_STAMP n.val) (s1.stamp : Nat)
    let low := decide ((w : Int) < s2.obj (Obj.LANE_EYE_MIN_W n.val)) || decide ((h : Int) < s2.obj (Obj.LANE_EYE_MIN_H n.val))
    let s3 := s2.setBit (Obj.LANE_STATUS n.val) 6 low
    exec (.eyeScanEnd n true dis) s = .next
      (if low && !bitAt (s2.objN (Obj.LANE_STATUS n.val)) 6 then s3.event 24 0x0901 [(12, 1, n.val), (16, 1, w), (18, 2, h)] else s3))

/-- Cameras: enabling, discovery, acquiring, registers and events. Commands: CAM_ENABLE, CAM_DISCOVERY_DONE,
CAM_ACQUIRE, CAM_REG_READ, CAM_REG_WRITE, CAM_SETTINGS_WRITE, CAM_REG_ACK, CAM_REG_RETRY, CAM_EVENT,
CAM_HEARTBEAT_RECEIVE. Rests on R229, R230, R231, R241, R242, R243. -/
def Obligations.CamerasConnect : Prop :=
  (∀ (c : Ctx) (i : CamNo) (v : BitVec 8) (s : State), s.passes c (Obj.CAM_ENABLE i.val) 1 (le 1 v.toNat) = true →
    let u := s.touch c
    let k := Obj.CAM_ENABLE i.val
    (v.toNat = 0 →
      let u1 := if u.camState i.val = camAcquiring then u.camIsLost i.val 3 else u
      let u2 := u1.setCam i.val { u1.cam i.val with reg := none }
      exec (.camEnable c i v) s = .next
        ((((u2.setObj k 0).setObj (Obj.CAM_STATE i.val) camOff).setObj (Obj.CAM_REG_STATUS i.val) 0).flushStats.written k (le 1 v.toNat))) ∧
    (v.toNat = 1 → u.camState i.val = camOff →
      let f := u.objN (Obj.CAM_LINK_FIRST i.val)
      let n := u.objN (Obj.CAM_LINKS i.val)
      f + n ≤ 16 → (List.range 4).all (fun d => d == i.val || u.obj (Obj.CAM_ENABLE d) != 1) = true →
      u.rangesOk [] (if u.camsEnabled.contains i.val then u.camsEnabled else i.val :: u.camsEnabled) = true →
      ((List.range n).map (fun x => f + x)).any (fun x => u.laneTest (144 + x)) = false →
      exec (.camEnable c i v) s = .next ((((u.setCam i.val { u.cam i.val with next := 0, prevEpoch := none }).setObj k 1).setObj
        (Obj.CAM_STATE i.val) camDiscovery).flushStats.written k (le 1 v.toNat)))) ∧
  (∀ (i : CamNo) (d : Discovery) (s : State), s.camState i.val = camDiscovery →
    let n := s.objN (Obj.CAM_LINKS i.val)
    (d.links = n → d.speedOk = true → d.masterOk = true →
      let s1 := (List.range n).foldl (fun s k => s.laneBits (144 + s.objN (Obj.CAM_LINK_FIRST i.val) + k) [lnSignal, lnCdr, lnLocked] []) s
      exec (.camDiscoveryDone i d) s =
        .next ((s1.setObj (Obj.CAM_STATE i.val) camConfig).event 24 0x0A01 [(12, 1, i.val), (13, 1, n)])) ∧
    (d.links ≠ n →
      exec (.camDiscoveryDone i d) s = .next ((s.setObj (Obj.CAM_STATE i.val) camRefused).event 24 0x0A03 [(12, 1, i.val), (13, 1, 1)]))) ∧
  (∀ (c : Ctx) (i : CamNo) (v : BitVec 8) (s : State), s.passes c (Obj.CAM_ACQUIRE i.val) 2 (le 1 v.toNat) = true →
    let u := s.touch c
    u.camState i.val = camConfig → u.hq.jobs = [] →
    exec (.camAcquire c i v) s = .next (((u.setCam i.val { u.cam i.val with gone := false, skip := [], lastPkt := u.now }).setObj
      (Obj.CAM_STATE i.val) camAcquiring).written (Obj.CAM_ACQUIRE i.val) (le 1 v.toNat))) ∧
  (∀ (c : Ctx) (i : CamNo) (op : Nat) (s : State), s.passes c (Obj.CAM_REG_OP i.val) 2 (le 1 op) = true →
    let u := s.touch c
    u.obj (Obj.CAM_REG_STATUS i.val) ≠ 1 → (u.camState i.val = camConfig ∨ u.camState i.val = camAcquiring) →
    let x := u.cam i.val
    let tag := (x.tag + 1) % 256
    let data := if op = 1 then [] else u.blob (Obj.CAM_REG_DATA i.val) 0 (u.objN (Obj.CAM_REG_LEN i.val))
    let t := (((u.setCam i.val { x with tag := tag, reg := some (op, tag, 1, u.now, data) }).setObj (Obj.CAM_REG_STATUS i.val) 1).camRequest
      i.val op tag data).written (Obj.CAM_REG_OP i.val) (le 1 op)
    (op = 1 → exec (.camRegRead c i) s = .next t) ∧ (op = 2 → exec (.camRegWrite c i) s = .next t) ∧
    (op = 3 → exec (.camSettingsWrite c i) s = .next t)) ∧
  (∀ (i : CamNo) (tag op n t : Nat) (ok : Bool) (old data : Bytes) (s : State),
    (s.cam i.val).reg = some (op, tag, n, t, old) →
    let x := s.cam i.val
    let due := if ok ∧ op = 3 then x.due ++ [s.objN (Obj.CAM_SET_LATENCY i.val)] else x.due
    let s1 := s.setCam i.val { x with reg := none, lastPkt := s.now, due := due }
    let s2 := if ok ∧ op = 1 then s1.setBlob (Obj.CAM_REG_DATA i.val) 0 (slice data 0 (s1.objN (Obj.CAM_REG_LEN i.val))) else s1
    exec (.camRegAck i tag ok data) s = .next (s2.setObj (Obj.CAM_REG_STATUS i.val) (if ok then 2 else 3))) ∧
  (∀ (i : CamNo) (op tag n t : Nat) (data : Bytes) (s : State),
    (s.cam i.val).reg = some (op, tag, n, t, data) → t + 50 * msNs ≤ s.now →
    (n < 3 → exec (.camRegRetry i) s =
      .next ((s.setCam i.val { s.cam i.val with reg := some (op, tag, n + 1, s.now, data) }).camRequest i.val op tag data)) ∧
    (3 ≤ n → exec (.camRegRetry i) s =
      .next ((s.setCam i.val { s.cam i.val with reg := none }).setObj (Obj.CAM_REG_STATUS i.val) 4))) ∧
  (∀ (i : CamNo) (ev : Nat) (data : Bytes) (s : State), (s.camState i.val = camConfig ∨ s.camState i.val = camAcquiring) →
    let s1 := s.setCam i.val { s.cam i.val with lastPkt := s.now }
    exec (.camEvent i ev data) s =
      .next (s1.push 24 (Sys2Proof.splice (s1.eventBytes 0x0A05 0 0 [(12, 1, i.val), (14, 2, ev)]) 16 (slice data 0 12)))) ∧
  (∀ (i : CamNo) (s : State),
    exec (.camHeartbeatReceive i) s = .next (s.setCam i.val { s.cam i.val with lastPkt := s.now }))

/-- Cameras: triggers, lines, closing frames and losses. Commands: CAM_TRIGGER_SEND, CAM_LINE_RECEIVE,
CAM_FRAME_CLOSE, CAM_TIMEOUT, CAM_LINK_LOCK_LOSS. Rests on R232, R233, R234, R235, R236, R237, R238, R239, R240. -/
def Obligations.CameraFramesRun : Prop :=
  (∀ (i : CamNo) (p : Int) (f : Frame) (at_ : Nat) (s : State), s.hasAuthority = true → s.ready 9 = true →
    s.camState i.val = camAcquiring → firstTrig (s.trigs i.val) = some (p, .line f) → s.tpredQ p = some at_ →
    at_ - s.objN (Obj.CAM_TRIG_LAT i.val) ≤ s.now → (s.cam i.val).trigBusy ≤ at_ - s.objN (Obj.CAM_TRIG_LAT i.val) →
    let s1 := (s.mapFrame i.val f.number (fun g => { g with nextTrig := g.nextTrig + 1 })).emit (.camTx i.val 3 0 [])
    exec (.camTriggerSend i) s = .next (s1.setCam i.val { s1.cam i.val with trigBusy := s.now + Config.trigPacketNs }).flushStats) ∧
  (∀ (i : CamNo) (link : Fin 4) (px : Bytes) (f : Frame) (s : State), s.camState i.val = camAcquiring →
    (s.cam i.val).frames.find? (fun f => !f.closed) = some f → f.lines.length < f.height →
    px.length = s.camLineBytes i.val →
    let s1 := s.setCam i.val { s.cam i.val with lastPkt := s.now }
    exec (.camLineReceive i link px true) s =
      .next (s1.mapFrame i.val f.number (fun _ => { f with lines := f.lines ++ [some px] }))) ∧
  (∀ (i : CamNo) (f : Frame) (s : State), (s.cam i.val).frames.find? (fun f => !f.closed) = some f →
    (s.camState i.val = camAcquiring → exec (.camFrameClose i true) s =
      .next ((s.setCam i.val { s.cam i.val with lastPkt := s.now }).closeFrame i.val f).flushStats) ∧
    (f.endNs.any (fun t => decide (t + 1000 * s.objN (Obj.CAM_CLOSE_US i.val) ≤ s.now)) = true →
      exec (.camFrameClose i false) s = .next (s.closeFrame i.val f).flushStats)) ∧
  (∀ (i : CamNo) (s : State), s.camState i.val = camAcquiring →
    (s.cam i.val).lastPkt + s.objN (Obj.CAM_TIMEOUT i.val) * msNs ≤ s.now →
    exec (.camTimeout i) s = .next (s.camIsLost i.val 1).flushStats) ∧
  (∀ (i : CamNo) (link : Fin 16) (s : State), s.objN (Obj.CAM_LINK_FIRST i.val) ≤ link.val →
    link.val < s.objN (Obj.CAM_LINK_FIRST i.val) + s.objN (Obj.CAM_LINKS i.val) → s.camState i.val ≠ camOff →
    let s1 := (((s.count (Obj.LANE_LOCK_LOSS_CNT (144 + link.val)) 1).eyeAbort (144 + link.val)).calInterrupt 1 (144 + link.val)).laneBits
      (144 + link.val) [] [lnCdr, lnLocked]
    exec (.camLinkLockLoss i link) s = .next (if s1.camState i.val = camAcquiring then s1.camIsLost i.val 2 else s1).flushStats)

/-- Nimbus: bands, verdicts, stream blocks and the evidence ring. Commands: BAND_COMPLETE, VERDICT_POST,
NIM_STREAM_BLOCK, NIM_EVID_FREE. Rests on R244, R253, R262, R263, R264, R265, R266, R267. -/
def Obligations.NimbusJudges : Prop :=
  (∀ (j : Job) (s : State), s.nimJob = some j → s.nim.pages.any (fun p => p.job == j.id) = true →
    let p := s.pageOf j.id
    let k := p.bands
    let l1 := min j.lines (2048 * k + 2048)
    k < j.bands → s.linesSeen j l1 = true →
    (s.nimRuns p = false → exec .bandComplete s = .next
      (((s.mapPage j.id (fun p => p.addBand {} [] [])).bandEvidence j.id k [] [] (j.wholeBand l1)).forward (.band j.id (k + 1)))) ∧
    (s.nimRuns p = true →
      let seen := s.nimEnv j p 0 l1
      let b := (s.nimEnv j p (2048 * k) l1).band (seen.unobserved seen.whole)
      let observed := (s.lcw.pairs.filter (fun e => e.2.state != 0)).map (·.1)
      let probes := if k = 0 then s.probedOn j.id else []
      let s1 := (s.postBand j k (2048 * k) l1 b).mapPage j.id (fun p =>
        p.addBand b (b.judged.filter observed.contains) (probes.map (probeItem b.susp (l1 - 1))))
      exec .bandComplete s = .next ((s1.bandEvidence j.id k (b.susp.map (fun x => (x.1, x.2.1))) b.judged (j.wholeBand l1)).forward
        (.band j.id (k + 1))))) ∧
  (∀ (j : Job) (s : State), s.nimJob = some j → j.bands ≤ (s.pageOf j.id).bands → j.st = .fired →
    (s.nimCams j).any (fun c => (s.cam c).frames.any (fun f => f.job == j.id && !f.closed)) = false →
    exec .verdictPost s = .next (s.flushStats.postVerdict j (s.pageOf j.id))) ∧
  (∀ (i : Fin 4) (b : StreamBlk) (s : State), s.nim.blocks.find? (fun b => b.stream == i.val) = some b →
    b.drop = false → (i.val = 2 → s.ready 10 = true) →
    let s1 : State := { s with nim := { s.nim with blocks := s.nim.blocks.erase b } }
    let x := s1.evidPut true (if i.val = 2 then s2Block b.level b.data else b.data)
    let f := evidFields x.2
    exec (.nimStreamBlock i) s = .next (x.1.push (40 + i.val) (layout 28 [(0, 1, 0x23), (1, 1, f.1), (2, 1, i.val), (3, 1, b.format),
      (4, 4, b.job), (8, 2, b.x0), (10, 2, b.w), (12, 2, b.y0), (14, 2, b.h), (16, 4, f.2.1), (20, 4, f.2.2)]))) ∧
  (∀ (c : Ctx) (v : BitVec 32) (s : State), s.passes c Obj.NIM_EVID_FREE 4 (le 4 v.toNat) = true →
    let u := s.touch c
    fwd32 v.toNat (u.objN Obj.NIM_EVID_PROD) ≤ u.evidUnits →
    let u1 := u.setObj Obj.NIM_EVID_FREE (v.toNat : Int)
    exec (.nimEvidFree c v) s = .next ((u.evidFree v.toNat).1.written Obj.NIM_EVID_FREE (le 4 v.toNat)) ∧
      ((u.evidFree v.toNat).1 = u1 ∨ (u.evidFree v.toNat).1 = { u1 with nim := { u1.nim with fullRaised := false } }))

/-- Calibration: due units, runs and their results, retries, proposals and restoring. Commands: CAL_UNIT_DUE, CAL_RUN,
CAL_RUN_COMPLETE, CAL_RETRY, CAL_ACCEPT, CAL_REJECT, CAL_PROPOSAL_EXPIRE, CAL_RESTORE. Rests on R271, R272, R273,
R274, R280, R281, R282. -/
def Obligations.CalibrationRuns : Prop :=
  (∀ (cls inst : Nat) (s : State), calExists cls inst = true → s.calState cls inst = 1 →
    (s.calUnit cls inst).retryAt = none → s.calRuns cls inst = true →
    exec (.calUnitDue cls inst) s = .next ((s.setCalState cls inst 2).setCalUnit cls inst { s.calUnit cls inst with
      first := none, temp0 := s.calTemp cls inst [], retryAt := none, tiles := [], pages := 0 })) ∧
  (∀ (c : Ctx) (v : BitVec 32) (s : State), s.passes c Obj.CAL_RUN 4 (le 4 v.toNat) = true →
    let u := s.touch c
    let cls := field v.toNat 24 8
    let inst := field v.toNat 0 16
    calExists cls inst = true → field v.toNat 16 8 = 0 → u.ready (calDomain cls inst) = true →
    (cls = 1 → bitAt (u.objN (Obj.LANE_STATUS inst)) lnLocked = true) → u.calState cls inst < 2 →
    exec (.calRun c v) s = .next (((u.setCalState cls inst 1).setCalUnit cls inst { u.calUnit cls inst with retryAt := none }).written
      Obj.CAL_RUN (le 4 v.toNat))) ∧
  (∀ (cls inst : Nat) (r : List Int) (s : State), (cls = 1 ∨ cls = 2) → calExists cls inst = true →
    2 ≤ s.calState cls inst → s.calRuns cls inst = true →
    ((s.calUnit cls inst).first = none → exec (.calRunComplete cls inst r) s =
      .next ((s.setCalState cls inst 3).setCalUnit cls inst { s.calUnit cls inst with
        first := some r, temp0 := if cls = 1 then s.calTemp cls inst r else (s.calUnit cls inst).temp0, tiles := [], pages := 0 })) ∧
    (∀ a, (s.calUnit cls inst).first = some a → s.calDelta (s.calTemp cls inst r) (s.calUnit cls inst).temp0 = false →
      s.calAgrees cls inst a r = true →
      exec (.calRunComplete cls inst r) s = .next (s.calAccepts cls inst a r (s.calTemp cls inst r)))) ∧
  (∀ (cls inst t : Nat) (s : State), (s.calUnit cls inst).retryAt = some t → t ≤ s.now → s.calRuns cls inst = true →
    exec (.calRetry cls inst) s = .next (s.calStart cls inst)) ∧
  (∀ (c : Ctx) (v : BitVec 32) (p : Proposal) (s : State), s.passes c Obj.CAL_ACCEPT 4 (le 4 v.toNat) = true →
    let u := s.touch c
    u.proposal? v.toNat = some p →
    let u1 := u.withdraw (fun x => x.seq == v.toNat)
    (p.cls ≠ 5 → exec (.calAccept c v) s = .next
      (({ u1 with cal := { u1.cal with staged := u1.cal.staged ++ [⟨p.cls, p.inst, p.value, true⟩] } } : State).written Obj.CAL_ACCEPT
        (le 4 v.toNat))) ∧
    (p.cls = 5 → exec (.calAccept c v) s = .next ((u1.deadDue p.inst p.value.toNat (u1.nozStatus p.inst p.value.toNat) p.job p.loss).written
      Obj.CAL_ACCEPT (le 4 v.toNat)))) ∧
  (∀ (c : Ctx) (v : BitVec 32) (p : Proposal) (s : State), s.passes c Obj.CAL_REJECT 4 (le 4 v.toNat) = true →
    (s.touch c).proposal? v.toNat = some p →
    exec (.calReject c v) s = .next (((s.touch c).withdraw (fun x => x.seq == v.toNat)).written Obj.CAL_REJECT (le 4 v.toNat))) ∧
  (∀ (q : Nat) (s : State), s.proposal? q = none →
    exec (.calProposalExpire q) s = .next (s.withdraw (fun x => x.seq == q))) ∧
  (∀ (c : Ctx) (d : Bytes) (l : List (Nat × Nat × Int × Bytes)) (s : State), s.passes c Obj.CAL_RESTORE 13 d = true →
    16 ≤ d.length → byteAt d 0 = 1 → getN d 4 4 = d.length → getN d 12 4 = crc32c (d.take 12 ++ d.drop 16) →
    calEntries (getN d 2 2) (d.drop 16) = some l →
    let x := l.foldl (fun (x : State × Nat × Nat) e =>
      if (x.1.calUnit e.1 e.2.1).accepted ∨ 2 ≤ x.1.calState e.1 e.2.1 then (x.1, x.2.1, x.2.2 + 1)
      else (x.1.restoreEntry e.1 e.2.1 e.2.2.1 e.2.2.2, x.2.1 + 1, x.2.2)) ((s.touch c).dropTransfer c.sess, 0, 0)
    exec (.calRestore c d) s = .next ((x.1.setObj Obj.CAL_RESTORE_RESULT ((x.2.1 + 65536 * x.2.2 : Nat) : Int)).written Obj.CAL_RESTORE d))

/-- Time: announces, measurements and losses of the PTP slots, anchors, and the preferred source. Commands:
TIME_ANCHOR, PTP_ANNOUNCE, PTP_MEASUREMENT, PTP_LOSS, TIME_PREF. Rests on R285, R290, R291, R292, R293, R294. -/
def Obligations.PtpSourcesFeed : Prop :=
  (∀ (a : Bytes) (l : List Bytes) (s : State), s.time.anchors = a :: l →
    exec .timeAnchor s = .next (({ s with time := { s.time with anchors := l } } : State).postAnchor a)) ∧
  (∀ (d : Fin 2) (m : Announce) (s : State), s.obj (Obj.PTP_ENABLE d.val) ≠ 0 →
    bitAt (s.objN (Obj.PTP_PORTS d.val)) m.port = true →
    let take := fun (s : State) => (s.setObj (Obj.PTP_GM_ID d.val) (m.gmId : Nat)).setObj (Obj.PTP_RX_PORT d.val) (m.port : Nat)
    ((s.ptp d.val).master = none → exec (.ptpAnnounce d m) s =
      .next ((take (s.setPtp d.val { s.ptp d.val with master := some m, lastNs := s.now })).ptpState d.val ptpUncal 0)) ∧
    (∀ o, (s.ptp d.val).master = some o → o.gmId ≠ m.gmId → announceBetter m o = true → exec (.ptpAnnounce d m) s =
      .next ((take (s.ptpLose d.val 2 (some m))).ptpState d.val ptpUncal 0))) ∧
  (∀ (d : Fin 2) (m : PtpMeas) (s : State), s.obj (Obj.PTP_ENABLE d.val) ≠ 0 →
    bitAt (s.objN (Obj.PTP_PORTS d.val)) m.port = true → (s.ptp d.val).master.isSome = true → (s.ptp d.val).state ≠ ptpLost →
    let theta := m.offset - s.obj (Obj.PTP_ASYM d.val) * 65536 / 1000
    (∀ f, (s.ptp d.val).filt = some f → 8 * s.lockWindow d.val < (theta - f).natAbs →
      exec (.ptpMeasurement d m) s = .next (s.outlier d.val)) ∧
    ((∀ f, (s.ptp d.val).filt = some f → (theta - f).natAbs ≤ 8 * s.lockWindow d.val) →
      let s1 := (s.setObj (Obj.PTP_PATH_DELAY d.val) m.pathDelay).setObj (Obj.PTP_RX_PORT d.val) (m.port : Nat)
      exec (.ptpMeasurement d m) s = .next
        ((if s1.time.source = d.val then s1.setObj Obj.TIME_UTC_OFFSET m.utcOffset else s1).filterIn d.val theta))) ∧
  (∀ (d : Fin 2) (s : State), ((s.ptp d.val).state = ptpUncal ∨ (s.ptp d.val).state = ptpLocked) →
    (s.ptp d.val).lastNs + s.objN (Obj.PTP_LOSS_MS d.val) * msNs ≤ s.now →
    exec (.ptpLoss d) s = .next (s.ptpLose d.val 1 none)) ∧
  (∀ (c : Ctx) (v : BitVec 8) (s : State), s.passes c Obj.TIME_PREF 2 (le 1 v.toNat) = true →
    (s.touch c).srcLocked v.toNat = true →
    exec (.timePref c v) s = .next ((((s.touch c).setObj Obj.TIME_PREF (v.toNat : Int)).switchSource v.toNat).written Obj.TIME_PREF (le 1 v.toNat)))

/-- Time: steps by the host and by the source, pulses in and out. Commands: TIME_STEP, TIME_STEP_DEFERRED,
PPS_IN_EDGE, PPS_IN_LOSS, PPS_OUT_START, PPS_OUT_END. Rests on R296, R298, R299. -/
def Obligations.TimeStepsAndPulses : Prop :=
  (∀ (c : Ctx) (d : Bytes) (s : State), s.passes c Obj.TIME_STEP 13 d = true → d.length = 16 → getN d 6 2 = 0 →
    getN d 8 4 < nsPerSec →
    let u := (s.touch c).dropTransfer c.sess
    let t : Int := ((getN d 0 6 * nsPerSec + getN d 8 4) * 2 ^ 32 + getN d 12 4 : Nat)
    let x := t - ((u.devNs * 2 ^ 32 + u.time.frac : Nat) : Int)
    u.objN Obj.TIME_STEP_MIN * 2 ^ 32 < x.natAbs → u.mayStep = true →
    exec (.timeStep c d) s = .next ((u.stepTime x true).written Obj.TIME_STEP d)) ∧
  (∀ (s : State), s.time.stepPending = true → s.mayStep = true →
    exec .timeStepDeferred s = .next s.sourceStep) ∧
  (∀ (s : State), s.obj Obj.PPS_IN_ENABLE ≠ 0 →
    let t := (((s.devNs * 2 ^ 32 + s.time.frac : Nat) : Int) - s.obj Obj.PPS_IN_DELAY * 2 ^ 32).toNat
    let ns := t / 2 ^ 32 % nsPerSec
    let err : Int := if ns ≤ nsPerSec / 2 then (ns : Nat) else (ns : Int) - (nsPerSec : Nat)
    let s1 := (s.setBlob Obj.PPS_IN_EDGE 0 (le 6 (t / 2 ^ 32 / nsPerSec) ++ [0, 0] ++ le 4 ns ++ le 4 (t % 2 ^ 32))).setObj Obj.PPS_IN_ERR err
    (s1.obj Obj.PPS_IN_SOURCE = 0 → exec .ppsInEdge s = .next s1) ∧
    (s1.obj Obj.PPS_IN_SOURCE ≠ 0 →
      exec .ppsInEdge s = .next ((if (s1.ptp 2).state = ptpUncal ∨ (s1.ptp 2).state = ptpLocked then s1 else s1.ptpState 2 ptpUncal 0).filterIn 2
        (err * 65536)))) ∧
  (∀ (s : State), ((s.ptp 2).state = ptpUncal ∨ (s.ptp 2).state = ptpLocked) →
    (s.ptp 2).lastNs + 3 * nsPerSec / 2 ≤ s.now → exec .ppsInLoss s = .next (s.ptpLose 2 1 none)) ∧
  (∀ (k : Fin 2) (s : State), (s.obj (Obj.PPS_OUT_MODE k.val) = 1 ∨ s.obj (Obj.PPS_OUT_MODE k.val) = 2 ∧ s.time.state = 2) →
    s.ppsEnd k.val = 0 → s.passesSecond (s.obj (Obj.PPS_OUT_OFFSET k.val)) = true →
    exec (.ppsOutStart k) s =
      .next { s with time := { s.time with ppsOut := Tab.set 0 s.time.ppsOut k.val (s.now + s.objN (Obj.PPS_OUT_WIDTH k.val)) } }) ∧
  (∀ (k : Fin 2) (s : State), s.ppsEnd k.val ≤ s.now →
    exec (.ppsOutEnd k) s = .next { s with time := { s.time with ppsOut := Tab.set 0 s.time.ppsOut k.val 0 } })

/-- Object access: opening, authenticating, renewing and closing sessions. Commands: OPEN, CLOSE, AUTH_BEGIN,
AUTH_FINISH, PING, SESSION_IDLE_CLOSE, SUPERVISOR_LAPSE. Rests on R313, R314, R315, R316. -/
def Obligations.SessionsServe : Prop :=
  (∀ (t : Fin 4) (seq : BitVec 32) (nonce : Bytes) (s : State), s.toaUp = true →
    let fresh := s.toa.opens.filter (fun (e : Bytes × Nat × Nat) => decide (s.aclkNs ≤ e.2.2 + s.objN Obj.SESSION_IDLE_S * 10 ^ 9))
    fresh.find? (fun (e : Bytes × Nat × Nat) => e.1 == nonce && (s.session? e.2.1).isSome) = none → s.toa.sessions.length < 16 →
    let x := (s.setToa (fun a => { a with opens := fresh })).drawNat
    let u := x.2
    ∃ id, id = (((List.range 512).map (fun i => (x.1 + i) % 2 ^ 32)).find? u.freeId).getD 1 ∧
      exec (.openSession t seq nonce) s = .next (u.setToa (fun a => { a with
        sessions := a.sessions ++ [{ id := id, seqHi := seq.toNat, nonce := nonce, openNs := u.aclkNs, lastNs := u.aclkNs, transport := t.val }],
        opens := (nonce, id, u.aclkNs) :: a.opens, status := 0, answer := le 4 id }))) ∧
  (∀ (c : Ctx) (s : State), s.toaUp = true → (s.session? c.sess).isSome = true →
    exec (.close c) s = .next (((s.touch c).closeSession c.sess 0).setToa (fun a => { a with status := 0, answer := [] }))) ∧
  (∀ (c : Ctx) (slot : Nat) (nonce : Bytes) (s : State), s.toaUp = true → (s.session? c.sess).isSome = true →
    slot ≤ 3 → (s.touch c).slotUsable slot = true →
    let x := (s.touch c).draw 16
    exec (.authBegin c slot nonce) s = .next ((x.2.mapSession c.sess (fun y => { y with auth := some (slot, slice nonce 0 16, x.1) })).setToa
      (fun a => { a with status := 0, answer := x.1 }))) ∧
  (∀ (c : Ctx) (proof : Bytes) (s : State) (x : Session) (slot : Nat) (nh nd : Bytes), s.toaUp = true →
    (s.session? c.sess).isSome = true → (s.touch c).session? c.sess = some x → x.auth = some (slot, nh, nd) →
    let u := (s.touch c).mapSession c.sess (fun y => { y with auth := none })
    u.slotUsable slot = true →
    ((hmac256 (u.slotKey slot) (authMsg tagProof c.sess nh nd)).take 16 = proof → u.heldElsewhere c.sess = false →
      let y : Session := { x with
        auth := none, super := true, slot := slot, key := hmac256 (u.slotKey slot) (authMsg tagSession c.sess nh nd),
        leaseNs := u.aclkNs, macFails := 0, transport := c.transport }
      exec (.authFinish c proof) s = .next (((u.mapSession c.sess (fun _ => y)).superEvent 1 y).setToa
        (fun a => { a with status := 0, answer := [] }))) ∧
    ((hmac256 (u.slotKey slot) (authMsg tagProof c.sess nh nd)).take 16 ≠ proof →
      let n := x.authFails + 1
      let u1 := (u.mapSession c.sess (fun y => { y with authFails := n })).authFailEvent x slot c.transport n
      exec (.authFinish c proof) s = .next ((if 3 ≤ n then u1.closeSession c.sess 4 else u1).setToa
        (fun a => { a with status := 2, answer := [] })))) ∧
  (∀ (c : Ctx) (s : State), s.toaUp = true → (s.session? c.sess).isSome = true →
    exec (.ping c) s = .next ((s.touch c).setToa (fun a => { a with status := 0, answer := [] }))) ∧
  (∀ (id : Nat) (x : Session) (s : State), s.toaUp = true → s.session? id = some x →
    s.idleDue x = true →
    exec (.sessionIdleClose id) s = .next ((s.dropRights id 4).setToa (fun t => { t with
      sessions := t.sessions.filter (fun x => x.id != id), closed := (id :: t.closed).take 256 }))) ∧
  (∀ (x : Session) (s : State), s.toaUp = true → s.toa.sessions.find? s.leaseDue = some x →
    exec .supervisorLapse s = .next (s.dropRights x.id 2))

/-- Object access: reads, writes, blocks, commits and discards. Commands: READ, WRITE, READ_SHADOW, BLOCK_READ,
BLOCK_WRITE, COMMIT, DISCARD. Rests on R307, R308, R317, R318, R319, R320, R321, R322. -/
def Obligations.ObjectCommandsServe : Prop :=
  (∀ (c : Ctx) (l : List Item) (s : State), s.toaUp = true → (s.session? c.sess).isSome = true → itemsOk 0x10 l = true →
    let u := s.touch c
    let room := u.bodyRoom c.sess (u.rspLimit c.transport)
    exec (.read c l) s = .next (State.noteCmd (runItems 0x10 c (room - 8) u room [] none l))) ∧
  (∀ (c : Ctx) (l : List Item) (s : State), s.toaUp = true → (s.session? c.sess).isSome = true →
    let u := s.touch c
    let room := u.bodyRoom c.sess (u.rspLimit c.transport)
    exec (.write c l) s = .next (State.noteCmd (runItems 0x11 c (room - 8) u room [] none l))) ∧
  (∀ (c : Ctx) (l : List Item) (s : State), s.toaUp = true → (s.session? c.sess).isSome = true →
    itemsOk 0x12 l = true →
    let u := s.touch c
    let room := u.bodyRoom c.sess (u.rspLimit c.transport)
    exec (.readShadow c l) s = .next (State.noteCmd (runItems 0x12 c (room - 8) u room [] none l))) ∧
  (∀ (c : Ctx) (l : List Item) (s : State), s.toaUp = true → (s.session? c.sess).isSome = true →
    let u := s.touch c
    let room := u.bodyRoom c.sess (u.rspLimit c.transport)
    exec (.blockRead c l) s = .next (State.noteCmd (runItems 0x20 c (room - 8) u room [] none l))) ∧
  (∀ (c : Ctx) (l : List Item) (s : State), s.toaUp = true → (s.session? c.sess).isSome = true →
    let u := s.touch c
    let room := u.bodyRoom c.sess (u.rspLimit c.transport)
    exec (.blockWrite c l) s = .next (State.noteCmd (runItems 0x21 c (room - 8) u room [] none l))) ∧
  (∀ (cmd : Nat) (c : Ctx) (whole left : Nat) (acc : List ItemRes) (pos : Option Nat) (i : Item) (l : List Item)
    (s : State),
    let x := runItem cmd c whole (left - 8 * l.length) s i
    (left - 8 * l.length < x.2.bytes.length → runItems cmd c whole s left acc pos (i :: l) =
      { st := s, items := acc ++ (i :: l).map (fun j => itemOf j 0x0A j.ty []), pos := pos }) ∧
    (x.2.bytes.length ≤ left - 8 * l.length → (x.1.pwr.asked = true → s.pwr.asked = true) →
      runItems cmd c whole s left acc pos (i :: l) = runItems cmd c whole x.1 (left - x.2.bytes.length) (acc ++ [x.2]) pos l)) ∧
  (∀ (c : Ctx) (s : State), s.toaUp = true → (s.session? c.sess).isSome = true →
    let u := s.touch c
    (∀ x, u.session? c.sess = some x → x.staging = [] →
      exec (.commit c) s = .next (u.setToa (fun a => { a with status := 0, answer := zeros 8 }))) ∧
    (∀ x y l, u.session? c.sess = some x → x.staging = y :: l → l.all (fun z => keyClass z.key == keyClass y.key) = true →
      u.gainsBad (y :: l) = false → u.toa.pending.length < 8 →
      let n := u.nextCommit
      let set : CommitSet :=
        { number := n, cls := keyClass y.key, sess := c.sess, items := y :: l, bars := itemsMask keyBars (y :: l),
          cams := itemsMask keyCams (y :: l), outs := itemsMask keyOuts (y :: l), stampCommit := u.stamp,
          super := (y :: l).any (fun z => keySuper z.key) }
      exec (.commit c) s = .next (((((u.unstage c.sess).setToa (fun t => { t with pending := t.pending ++ [set], commitLast := n })).forward
        (.commitSet n (keyClass y.key) ((y :: l).map (fun z => (z.key, z.bytes))))).startLoads).setToa
          (fun a => { a with status := 6, answer := le 4 n ++ le 1 (keyClass y.key) ++ zeros 3 })))) ∧
  (∀ (c : Ctx) (s : State), s.toaUp = true → (s.session? c.sess).isSome = true →
    exec (.discard c) s = .next (((s.touch c).mapSession c.sess (fun x => { x with staging := [] })).setToa
      (fun a => { a with status := 0, answer := [] })))

/-- Object access: frames, mailbox descriptors and the BAR2 window; sets taking effect; Ethernet objects. Commands:
TOA_FRAME_RECEIVE, MAILBOX_DESCRIPTOR, TOA_MB_DOORBELL, COMMIT_TAKE_EFFECT, EN_PORT_CONFIG. Rests on R2, R306, R309,
R310, R311, R321, R330. -/
def Obligations.TransportsServe : Prop :=
  (∀ (t : Fin 4) (f : Bytes) (s : State), s.toaUp = true →
    (t.val ≤ 1 → s.enUp t.val = true → exec (.toaFrameReceive t f) s =
      .next ((s.enCount t.val true).serve { transport := t.val, limit := s.objN Obj.TOA_MAX_FRAME } (s.objN Obj.TOA_MAX_FRAME) f)) ∧
    (1 < t.val → exec (.toaFrameReceive t f) s = .next (s.serve { transport := t.val, limit := 65536 } 65536 f)) ∧
    (1 < t.val → toaFrameOk f = false → exec (.toaFrameReceive t f) s = .next (s.count Obj.TOA_CRC_ERR_CNT 1)) ∧
    (1 < t.val → (s.request t.val 65536 65536 f).waits = false → ∀ r, (s.request t.val 65536 65536 f).frame = some r →
      exec (.toaFrameReceive t f) s = .next ((s.request t.val 65536 65536 f).st.emit (.toa t.val r)))) ∧
  (∀ (q : Fin 2) (f d : Bytes) (s : State), s.toaUp = true → s.headOfType (60 + q.val) 0x40 = some d →
    mbSizeOk (getN d 4 4) = true → mbSizeOk (getN d 24 4) = true →
    let dest : Dest :=
      { transport := 2, limit := getN d 24 4, ring := q.val, addr := getN d 16 8, tag := getN d 28 8, direct := false }
    exec (.mailboxDescriptor q (some f)) s =
      .next ((s.consume (60 + q.val)).serve dest 65536 (slice f 0 (getN d 4 4)))) ∧
  (∀ (len : BitVec 32) (s : State), s.hq.linkUp = true → s.ready 1 = true → s.jnl.booted = true →
    s.hq.mbBusy = false → 20 ≤ len.toNat → len.toNat ≤ 65536 →
    exec (.toaMbDoorbell len) s = .next (({ s with hq := { s.hq with mbBusy := true, mbDone := false } } : State).serve
      { transport := 3, limit := 65536, direct := false } 65536 ((List.range len.toNat).map (Tab.get (0 : Byte) s.hq.windowReq)))) ∧
  (∀ (n : Nat) (c : CommitSet) (s : State), s.toa.pending.find? (fun c => c.number == n) = some c →
    (c.cls = 1 → c.passedBars = c.bars → c.boundJob.isSome = true → exec (.commitTakeEffect n) s = .next (s.finishSet n 3)) ∧
    (c.cls = 2 → (∀ b, b < 8 → bitAt c.bars b = true → s.barIdle b = true) → s.earlierOverlap c = false →
      s.gainsBad c.items = false → c.items.any (fun x => x.key == Obj.FFY_SLOT_NS || x.key == Obj.FFY_ROTATE) = false →
      (c.items.filter (fun x => x.key % 256 == 1 && x.key / 256 % 0x100 == 0 && decide (x.key / 256 / 0x1000 = 3))) = [] →
      exec (.commitTakeEffect n) s = .next ((c.items.foldl (fun s x => s.setValue x.key x.bytes) s).finishSet c.number 3)) ∧
    (c.cls = 3 → c.items.all (fun x => isNimbusKey x.key) = true → s.earlierOverlap c = false →
      (∀ i, i < 4 → s.obj (Obj.CAM_STATE i) ≠ 3) → ∀ j, s.unseenJob = some j →
      exec (.commitTakeEffect n) s = .next
        (((s.applyFrame c.items).mapPending (fun d => if d.number = n then { d with boundJob := some j.id } else d)).finishSet n 3))) ∧
  (∀ (c : Ctx) (p : Fin 2) (sub : Fin 256) (ty : Nat) (d : Bytes) (s : State),
    let k := (0x1110 + p.val) * 256 + sub.val
    Obj.kind k = some (ty, .rws, false) → s.passes c k ty d = true →
    let u := if ty = 13 then (s.touch c).dropTransfer c.sess else s.touch c
    u.enRefusal p.val sub.val (Obj.decode ty d).toNat d = 0 →
    exec (.enPortConfig c p sub ty d) s = .next
      ((if u.value k = d then u.setValue k d else (u.setValue k d).journal 0x0A (objListEntry k ty d)).written k d))

/-- Power: requests, falls and rises, late domains, AVS, supplies. Commands: PWR_TARGET, PWR_TRANSITION_START,
DOMAIN_STOP_TIMEOUT, AVS_STEP, PMB_ALERT. Rests on R456, R457, R458, R459, R460, R461, R463, R465. -/
def Obligations.PowerStates : Prop :=
  (∀ (c : Ctx) (v : BitVec 8) (s : State), s.passes c Obj.PWR_TARGET 2 (le 1 v.toNat) = true →
    let u := s.touch c
    v.toNat % 128 ≤ 4 → (128 ≤ v.toNat → v.toNat % 128 = pwOff) → u.pwrRunning = false →
    (v.toNat % 128 ≠ u.pwState → exec (.pwrTarget c v) s = .next
      (((((u.setObj Obj.PWR_TARGET (v.toNat : Nat)).setBit Obj.PWR_STATUS 2 true).setPwr (fun p => { p with
        ctrl := v.toNat % 128 + (if 128 ≤ v.toNat then 2 ^ 31 else 0), asked := decide (u.pwState < v.toNat % 128) }))).written
          Obj.PWR_TARGET (le 1 v.toNat))) ∧
    (v.toNat % 128 = u.pwState → exec (.pwrTarget c v) s = .next
      ((u.setObj Obj.PWR_TARGET (v.toNat : Nat)).written Obj.PWR_TARGET (le 1 v.toNat)))) ∧
  (∀ (s : State), s.pwrRunning = true → s.pwr.rising = none → s.pwr.off = false →
    (s.pwr.asked = true → exec .pwrTransitionStart s =
      .next ((s.answerOwed (s.transition none).fallStatus).transition none)) ∧
    (s.pwr.asked = false → bitAt s.pwr.ctrl 31 = false → s.pwState < field s.pwr.ctrl 0 3 →
      exec .pwrTransitionStart s = .next (s.fall (field s.pwr.ctrl 0 3) none)) ∧
    (s.pwr.asked = false → bitAt s.pwr.ctrl 31 = false → field s.pwr.ctrl 0 3 ≤ s.pwState →
      exec .pwrTransitionStart s = .next (s.rise (field s.pwr.ctrl 0 3) 1)) ∧
    (s.pwr.asked = false → bitAt s.pwr.ctrl 31 = true → exec .pwrTransitionStart s = .next s.forcedOff)) ∧
  (∀ (d : Fin 12) (s : State), s.fallAsks d.val = true → s.pwr.rising = none → s.pwr.off = false →
    s.pwr.asked = false → exec (.domainStopTimeout d) s = .next (s.fall (field s.pwr.ctrl 0 3) (some d.val))) ∧
  (∀ (s : State),
    let v := s.objN Obj.PWR_VCORE
    let w := if ((s.pwr.goal : Int) - (v : Int)).natAbs ≤ 10 then s.pwr.goal else if v < s.pwr.goal then v + 5 else v - 5
    let t := ((s.setObj Obj.PWR_VCORE (w : Nat)).emit (.pmbus w)).setPwr (fun p => { p with stepNs := s.aclkNs })
    v ≠ s.pwr.goal → (10 < ((s.pwr.goal : Int) - (v : Int)).natAbs → s.pwr.stepNs + 100000 ≤ s.aclkNs) →
    (s.pwr.rising = none → exec .avsStep s = .next t) ∧
    (∀ mode cause, s.pwr.rising = some (mode, cause) →
      exec .avsStep s = .next (if w = s.pwr.goal then t.riseDone mode cause else t))) ∧
  (∀ (s : State),
    let x := s.drawNat
    exec .pmbAlert s = .next (State.faultWakes s
      ((x.2.event 24 0x1604 [(12, 1, x.1 % 256), (16, 2, s.objN Obj.PWR_VCORE)]).latch 0x1604 serviceF 0 [] false false none)))

/-- Axes: the generator's sample, targets, stops, enables, limits, following errors, homing, standstill current and
contact. Commands: AX_SAMPLE, AX_TARGET, AX_STOP, AX_ENABLE. Rests on R335, R338, R339, R343, R344, R345, R346, R347,
R352. -/
def Obligations.AxesMove : Prop :=
  (∀ (x : Axis) (s : State), s.ready 11 = true → (s.ax x.val).wake ≤ s.now → (s.ax x.val).dirty = false →
    s.slaved x.val = false →
    let r := (s.ax x.val).kin.sample axDt (s.ax x.val).plan
    r.2 ≠ [] → ∃ t, exec (.axSample x) s = .next t ∧ (t.ax x.val).p = r.1.p ∧ (t.ax x.val).v = r.1.v ∧ (t.ax x.val).a = r.1.a) ∧
  (∀ (c : Ctx) (x : Axis) (v : BitVec 64) (s : State), s.passes c (Obj.AX_TARGET x.val) 11 (le 8 v.toNat) = true →
    let u := s.touch c
    let y := Obj.decode 11 (le 8 v.toNat)
    let w := u.setObj (Obj.AX_TARGET x.val) y
    u.axRefuses x.val = false →
    (u.axBit x.val bHomed = true → u.obj (Obj.AX_SOFT_MIN x.val) ≤ y ∧ y ≤ u.obj (Obj.AX_SOFT_MAX x.val)) →
    (u.limActive x.val true = true → q32Val y ≤ (u.ax x.val).p) → (u.limActive x.val false = true → (u.ax x.val).p ≤ q32Val y) →
    ((u.ax x.val).moving = false → exec (.axTarget c x v) s =
      .next ((w.startMove x.val 1).written (Obj.AX_TARGET x.val) (le 8 v.toNat))) ∧
    ((u.ax x.val).moving = true → (u.ax x.val).abort = false → exec (.axTarget c x v) s =
      .next ((w.setAx x.val (fun m => { m with dirty := true })).written (Obj.AX_TARGET x.val) (le 8 v.toNat))) ∧
    ((u.ax x.val).moving = true → (u.ax x.val).abort = true → exec (.axTarget c x v) s =
      .next ((w.setAx x.val (fun m => { m with again := true })).written (Obj.AX_TARGET x.val) (le 8 v.toNat)))) ∧
  (∀ (c : Ctx) (x : Axis) (s : State), s.passes c (Obj.AX_STOP x.val) 2 (le 1 1) = true →
    ((s.touch c).ax x.val).moving = true →
    exec (.axStop c x 1#8) s = .next (((s.touch c).axHalt x.val).written (Obj.AX_STOP x.val) (le 1 1))) ∧
  (∀ (c : Ctx) (x : Axis) (v : BitVec 8) (s : State), s.passes c (Obj.AX_ENABLE x.val) 1 (le 1 v.toNat) = true →
    let u := s.touch c
    (v = 1#8 → u.stoHeld (x.val / 3) = false → u.axBit x.val bAxen = false → exec (.axEnable c x v) s =
      .next ((((u.setObj (Obj.AX_ENABLE x.val) 1).setAxBit x.val bAxen true).setAx x.val (fun m => { m with
        accept := false, enabledAt := u.now, off := false })).written (Obj.AX_ENABLE x.val) (le 1 v.toNat))) ∧
    (v = 0#8 → u.axBit x.val bAxen = true → (u.ax x.val).moving = false → (u.ax x.val).atRest = true → exec (.axEnable c x v) s =
      .next (((((u.setObj (Obj.AX_ENABLE x.val) 0).axHalt x.val).setObj (Obj.AX_CAM_STATE x.val) 0).axDisable x.val).written
        (Obj.AX_ENABLE x.val) (le 1 v.toNat))) ∧
    (v = 0#8 → u.axBit x.val bAxen = true → ((u.ax x.val).moving = true ∨ (u.ax x.val).atRest = false) → exec (.axEnable c x v) s =
      .next ((((u.setObj (Obj.AX_ENABLE x.val) 0).axHalt x.val).setAx x.val (fun m => { m with off := true })).written
        (Obj.AX_ENABLE x.val) (le 1 v.toNat))))

/-- Axes: enable delays, limits, following errors, homing, standstill current, cams, modes and contact. Commands:
AX_EN_DELAY_EXPIRE, AX_LIMIT_ACTIVE, AX_FOLLOWING_ERROR, AX_HOME, AX_IDLE_CURRENT, AX_CAM_ENGAGE, CAM_TABLE, AX_MODE,
AX_CONTACT. Rests on R343, R344, R345, R346, R347, R348, R349, R350, R351, R352, R362. -/
def Obligations.AxesGuard : Prop :=
  (∀ (x : Axis) (s : State), s.axBit x.val bAxen = true → (s.ax x.val).accept = false →
    (s.ax x.val).enabledAt + s.objN (Obj.AX_EN_DELAY x.val) * 1000000 ≤ s.now →
    exec (.axEnDelayExpire x) s = .next (s.setAx x.val (fun m => { m with accept := true }))) ∧
  (∀ (x : Axis) (positive : Bool) (s : State), s.limActive x.val positive = true → s.ready 11 = true →
    (if positive then (s.ax x.val).limPos else (s.ax x.val).limNeg) = false →
    let s1 := s.setAx x.val (fun m => { m with limPos := m.limPos || positive, limNeg := m.limNeg || !positive })
    exec (.axLimitActive x positive) s = .next (s1.latch 0x1403 safety x.val (s1.sf2Detail x.val (if positive then 2 else 1)) true false none)) ∧
  (∀ (x : Axis) (t : Nat) (s : State), (s.ax x.val).feSince = some t → s.ready 11 = true →
    (s.axError x.val).isSome = true → t + s.objN (Obj.AX_FE_MS x.val) * 1000000 ≤ s.now →
    exec (.axFollowingError x) s = .next (((s.latch 0x1402 safety x.val (s.sf2Detail x.val 0) true false none).setAx x.val
      (fun m => { m with feSince := none })).trackError x.val)) ∧
  (∀ (c : Ctx) (x : Axis) (s : State), s.passes c (Obj.AX_HOME x.val) 2 (le 1 1) = true →
    let u := s.touch c
    u.axRefuses x.val = false → (u.ax x.val).abort = false →
    exec (.axHome c x 1#8) s = .next ((((if (u.ax x.val).moving then u.setObj (Obj.AX_MOVE_STATE x.val) 4 else u.startMove x.val 4).setAxBit
      x.val bHomed false).setAx x.val (fun m => { m with homing := 1, dirty := true })).written (Obj.AX_HOME x.val) (le 1 1))) ∧
  (∀ (x : Axis) (s : State), s.objN (Obj.AX_CUR_PWM x.val) < 32 → (s.ax x.val).atRest = true →
    (s.ax x.val).moving = false → s.slaved x.val = false → s.axBit x.val bCurReduced = false → s.ready 11 = true →
    (s.ax x.val).still + s.objN (Obj.AX_IDLE_MS x.val) * 1000000 ≤ s.now →
    exec (.axIdleCurrent x) s = .next ((s.setAxBit x.val bCurReduced true).curRefresh x.val)) ∧
  (∀ (c : Ctx) (x : Axis) (v : BitVec 8) (s : State), s.passes c (Obj.AX_CAM_ENGAGE x.val) 2 (le 1 v.toNat) = true →
    let u := s.touch c
    let w := ((u.setObj (Obj.AX_CAM_ENGAGE x.val) 1).setObj (Obj.AX_MOVE_STATE x.val) 5).wakeCurrent x.val
    (v = 1#8 → u.slaved x.val = false → u.axRefuses x.val = false → (u.ax x.val).moving = false → u.camLoops x.val 24 x.val = false →
      exec (.axCamEngage c x v) s = .next ((w.setObj (Obj.AX_CAM_STATE x.val)
        (if absQ ((w.ax x.val).p - w.camTarget x.val) ≤ 1 then 2 else 1)).written (Obj.AX_CAM_ENGAGE x.val) (le 1 v.toNat))) ∧
    (v = 0#8 → u.slaved x.val = true →
      exec (.axCamEngage c x v) s = .next ((u.axHalt x.val).written (Obj.AX_CAM_ENGAGE x.val) (le 1 v.toNat)))) ∧
  (∀ (c : Ctx) (k : Fin 8) (d : Bytes) (s : State), s.passes c (Obj.CAM_TABLE k.val) 13 d = true →
    d.length = 4100 → crc32c (d.take 4096) = getN d 4096 4 →
    let u := (s.touch c).dropTransfer c.sess
    (∀ x, x < 24 → u.slaved x = true → u.objN (Obj.AX_CAM_TABLE x) ≠ k.val) →
    exec (.camTable c k d) s = .next ((u.setBlob (Obj.CAM_TABLE k.val) 0 d).written (Obj.CAM_TABLE k.val) d)) ∧
  (∀ (c : Ctx) (x : Axis) (v : BitVec 8) (s : State), s.passes c (Obj.AX_MODE x.val) 2 (le 1 v.toNat) = true →
    let u := s.touch c
    let w := u.setObj (Obj.AX_MODE x.val) (v.toNat : Nat)
    (v = 1#8 → u.obj (Obj.AX_OUT_MODE x.val) ≠ 1) →
    (w.axLoop x.val = none → exec (.axMode c x v) s = .next (w.written (Obj.AX_MODE x.val) (le 1 v.toNat))) ∧
    (∀ l, w.axLoop x.val = some l → exec (.axMode c x v) s =
      .next ((w.setObj (Obj.LP_MODE l) (v.toNat : Nat)).written (Obj.AX_MODE x.val) (le 1 v.toNat)))) ∧
  (∀ (x : Axis) (t : Nat) (s : State), (s.ax x.val).contactSince = some t → s.ready 11 = true →
    s.axBit x.val bContact = false → t + s.objN (Obj.AX_CONTACT_MS x.val) * 1000000 ≤ s.now →
    exec (.axContact x) s = .next ((s.setAxBit x.val bContact true).event 24 0x1004 [(12, 1, x.val), (16, 8, q32Bits (s.fbPos x.val))]))

/-- Loops: evaluation, trips, enabling, modes, following errors and traces. Commands: LOOP_EVAL, LP_ENABLE, LP_MODE,
LOOP_FE, LP_TR_ARM, LP_TR_FORCE. Rests on R356, R357, R358, R359, R360, R361, R362, R363. -/
def Obligations.LoopsRun : Prop :=
  (∀ (l : LoopNo) (s : State), s.ready 11 = true → s.obj (Obj.LP_STATE l.val) = 1 →
    let e := s.evaluate l.val
    let out := fun (u : State) => let u := u.traceStep l.val; u.forward (.loopState l.val (u.loop l.val).mode (u.loop l.val).xh (u.loop l.val).iota (u.loop l.val).u)
    let s1 := (s.setLpBit l.val bInvalid false).setLoop l.val (fun t => { t with bad := 0 })
    (e.bad = [] → e.notFinite = none → exec (.loopEval l) s = .next (out (s1.loopTake l.val e))) ∧
    (∀ i, e.bad = [] → e.notFinite = some i → exec (.loopEval l) s = .next (out (s1.loopTrip l.val 2 i))) ∧
    (∀ b t, e.bad = b :: t → e.notFinite = none →
      let s2 := ((s.setLpBit l.val bInvalid true).count (Obj.LP_INVALID_CNT l.val) 1).setLoop l.val (fun t => { t with bad := t.bad + 1 })
      (s2.objN (Obj.LP_INVALID_MAX l.val) ≤ (s2.loop l.val).bad → exec (.loopEval l) s = .next (out (s2.loopTrip l.val 1 b))) ∧
      ((s2.loop l.val).bad < s2.objN (Obj.LP_INVALID_MAX l.val) → exec (.loopEval l) s = .next (out (s2.loopTake l.val e))))) ∧
  (∀ (c : Ctx) (l : LoopNo) (v : BitVec 8) (s : State), s.passes c (Obj.LP_ENABLE l.val) 1 (le 1 v.toNat) = true →
    let u := s.touch c
    (v = 1#8 → u.obj (Obj.LP_ENABLE l.val) ≠ 1 →
      (u.dests l.val).any (fun k => u.ownerOf k != 0 || decide (1 < (u.dests l.val).count k)) = false →
      (u.loopAdc l.val).any (fun a => !u.objBit Obj.ADC_ENABLE a) = false →
      let start := (List.range (u.lpQ l.val)).map (fun j =>
        if u.destOf l.val j = 0xFF then 0 else u.fullScale l.val j (u.dutyNow (u.destOf l.val j)))
      let s1 := (u.setObj (Obj.LP_ENABLE l.val) 1).setObj (Obj.LP_STATE l.val) 1
      let s2 := s1.setObj (Obj.LP_STATUS l.val) ((s1.objN (Obj.LP_STATUS l.val) / 32 * 32 + 1 : Nat) : Int)
      exec (.lpEnable c l v) s = .next ((s2.setLoop l.val (fun t => { mode := s2.objN (Obj.LP_MODE l.val), start := some start, trace := t.trace })).written
        (Obj.LP_ENABLE l.val) (le 1 v.toNat))) ∧
    (v = 0#8 →
      let s1 := ((u.setObj (Obj.LP_ENABLE l.val) 0).setObj (Obj.LP_STATE l.val) 0)
      let s2 := (s1.setHandover l.val false).setObj (Obj.LP_STATUS l.val) ((s1.objN (Obj.LP_STATUS l.val) / 32 * 32 : Nat) : Int)
      let s3 := s2.setLoop l.val (fun t => { t with gap := [], feNs := 0, bad := 0, start := none, law := false })
      exec (.lpEnable c l v) s = .next ((s3.condEnd 0x1102 l.val).written (Obj.LP_ENABLE l.val) (le 1 v.toNat)))) ∧
  (∀ (c : Ctx) (l : LoopNo) (v : BitVec 8) (s : State), s.passes c (Obj.LP_MODE l.val) 2 (le 1 v.toNat) = true →
    (s.touch c).loopAxis l.val = none →
    exec (.lpMode c l v) s = .next (((s.touch c).setObj (Obj.LP_MODE l.val) (v.toNat : Nat)).written (Obj.LP_MODE l.val) (le 1 v.toNat))) ∧
  (∀ (l : LoopNo) (s : State), s.obj (Obj.LP_STATE l.val) = 1 → s.ready 11 = true →
    s.objN (Obj.LP_FE_MS l.val) * 1000000 ≤ (s.loop l.val).feNs →
    let act := s.objN (Obj.LP_FE_ACTION l.val)
    let fe := (s.loop l.val).fe
    let s1 := ((((s.event 24 0x1101 [(12, 1, l.val), (13, 1, act), (16, 4, fe)]).count (Obj.LP_FE_CNT l.val) 1).setLoop l.val
      (fun t => { t with feNs := 0 })).traceEvent l.val 4)
    let s2 := s1.loopTrip l.val 3 (s1.objN (Obj.LP_FE_IN l.val))
    (act = 0 → exec (.loopFe l) s = .next s1) ∧ (act = 1 → exec (.loopFe l) s = .next s2) ∧
    (act = 2 → exec (.loopFe l) s = .next (s2.latch 0x1405 safety l.val (le 4 fe) false false none))) ∧
  (∀ (c : Ctx) (l : LoopNo) (v : BitVec 8) (s : State), s.passes c (Obj.LP_TR_ARM l.val) 2 (le 1 v.toNat) = true →
    let u := s.touch c
    let w := u.setObj (Obj.LP_TR_ARM l.val) 1
    (v = 1#8 → u.obj (Obj.LP_TR_STATE l.val) ≠ 1 → u.obj (Obj.LP_TR_STATE l.val) ≠ 2 → exec (.lpTrArm c l v) s =
      .next (((w.setObj (Obj.LP_TR_STATE l.val) (if u.obj (Obj.LP_TR_PRE l.val) = 0 then 2 else 1)).setTrace l.val (fun _ => {})).written
        (Obj.LP_TR_ARM l.val) (le 1 v.toNat))) ∧
    (v = 0#8 → exec (.lpTrArm c l v) s =
      .next (((u.setObj (Obj.LP_TR_ARM l.val) 0).setObj (Obj.LP_TR_STATE l.val) 0).written (Obj.LP_TR_ARM l.val) (le 1 v.toNat)))) ∧
  (∀ (c : Ctx) (l : LoopNo) (s : State), s.passes c (Obj.LP_TR_FORCE l.val) 2 (le 1 1) = true →
    exec (.lpTrForce c l 1#8) s = .next (((s.touch c).traceEvent l.val 7).written (Obj.LP_TR_FORCE l.val) (le 1 1)))

/-- Analogue inputs, PWM and valve outputs and GPIO. Commands: ADC_CONVERSION, ADC_ENABLE, PWM_PERIOD, PWM_DUTY,
GPIO_DIR, GPIO_INPUT. Rests on R367, R368, R369, R370, R371. -/
def Obligations.InputsAndOutputs : Prop :=
  (∀ (ch : Fin 16) (raw : BitVec 16) (s : State), s.ready 11 = true → s.objBit Obj.ADC_ENABLE ch.val = true →
    (s.inPresWin ch.val raw.toNat = true → exec (.adcConversion ch raw) s = .next
      (({ s with io := { s.io with adc := Tab.set 0 s.io.adc ch.val raw.toNat, outSince := Tab.set 0 s.io.outSince ch.val 0 } } : State).condEnd 0x1404 ch.val)) ∧
    (s.inPresWin ch.val raw.toNat = false → Tab.get 0 s.io.outSince ch.val = 0 → exec (.adcConversion ch raw) s = .next
      { s with io := { s.io with adc := Tab.set 0 s.io.adc ch.val raw.toNat, outSince := Tab.set 0 s.io.outSince ch.val (s.now + 1) } }) ∧
    (s.inPresWin ch.val raw.toNat = false → Tab.get 0 s.io.outSince ch.val ≠ 0 → exec (.adcConversion ch raw) s = .next
      { s with io := { s.io with adc := Tab.set 0 s.io.adc ch.val raw.toNat, outSince := Tab.set 0 s.io.outSince ch.val (Tab.get 0 s.io.outSince ch.val) } })) ∧
  (∀ (c : Ctx) (v : BitVec 32) (s : State),
    let u := s.touch c
    (s.passes c Obj.ADC_RATE 4 (le 4 v.toNat) = true → 1000 ≤ v.toNat → v.toNat ≤ 1000000 →
      v.toNat * popCount 16 (u.objN Obj.ADC_ENABLE) ≤ 1000000 →
      exec (.adcEnable c true v) s = .next ((u.setObj Obj.ADC_RATE (v.toNat : Nat)).written Obj.ADC_RATE (le 4 v.toNat))) ∧
    (s.passes c Obj.ADC_ENABLE 3 (le 2 v.toNat) = true → v.toNat < 2 ^ 16 → u.objN Obj.ADC_RATE * popCount 16 v.toNat ≤ 1000000 →
      let gone := (List.range 16).filter (fun a => bitAt (u.objN Obj.ADC_ENABLE) a && !bitAt v.toNat a)
      gone.any (fun a => (u.presWin a).2.2.2 || (List.range 32).any (fun l => u.obj (Obj.LP_ENABLE l) == 1 && (u.loopAdc l).contains a)) = false →
      let w := u.setObj Obj.ADC_ENABLE (v.toNat : Nat)
      exec (.adcEnable c false v) s = .next (({ w with io := { w.io with adc := gone.foldl (fun t a => Tab.erase a t) w.io.adc } } : State).written
        Obj.ADC_ENABLE (le 2 v.toNat)))) ∧
  (∀ (i : Fin 32) (s : State), s.ready 11 = true → exec (.pwmPeriod i) s =
    .next (s.setPwm i.val { duty := s.objN (Obj.PWM_DUTY i.val), period := s.objN (Obj.PWM_PERIOD_NS i.val), since := s.now })) ∧
  (∀ (c : Ctx) (i : Fin 32) (v : BitVec 32) (s : State),
    let u := s.touch c
    (s.passes c (Obj.PWM_DUTY i.val) 10 (le 4 v.toNat) = true → u.ownerOf i.val = 0 →
      exec (.pwmDuty c false i v) s = .next ((u.setObj (Obj.PWM_DUTY i.val) (v.toNat : Nat)).written (Obj.PWM_DUTY i.val) (le 4 v.toNat))) ∧
    (i.val < 16 → s.passes c (Obj.VALVE_DUTY i.val) 10 (le 4 v.toNat) = true → u.ownerOf (0x40 + i.val) = 0 →
      exec (.pwmDuty c true i v) s = .next ((u.setObj (Obj.VALVE_DUTY i.val) (v.toNat : Nat)).written (Obj.VALVE_DUTY i.val) (le 4 v.toNat)))) ∧
  (∀ (c : Ctx) (v : BitVec 32) (s : State), s.passes c Obj.GPIO_DIR 4 (le 4 v.toNat) = true →
    (s.touch c).gpioUse &&& v.toNat = 0 → exec (.gpioDir c v) s =
    .next (((s.touch c).setObj Obj.GPIO_DIR (v.toNat : Nat)).gpioReadback.written Obj.GPIO_DIR (le 4 v.toNat))) ∧
  (∀ (pin : Fin 32) (level : Bool) (s : State), s.objBit Obj.GPIO_DIR pin.val = false →
    s.objBit Obj.GPIO_IN pin.val = !level →
    let s1 := s.setBit Obj.GPIO_IN pin.val level
    let s2 := (List.range 24).foldl (fun (s : State) x =>
      if s.objN (Obj.AX_LIM_NEG_PIN x) = pin.val ∨ s.objN (Obj.AX_LIM_POS_PIN x) = pin.val then s.limitReleased x else s) s1
    exec (.gpioInput pin level) s = .next (s2.homePin pin.val level))

/-- DRAM: reads, writes and scrub with their errors, refresh, temperatures, sweeps, drift, rows and power-down.
Commands: DRAM_READ, DRAM_WRITE, DRAM_SCRUB, DRAM_REFRESH, DRAM_MR4_READ, DRAM_SWEEP_START, DRAM_SWEEP_COMPLETE,
DRAM_DRIFT, DRAM_RATE, DRAM_REGION_RESIZE, DRAM_ROW_CLOSE, DRAM_POWER_DOWN, DRAM_RESTORE_WAIT_END, DRAM_INIT_COMPLETE.
Rests on R375, R376, R379, R380, R381, R382, R383, R384, R385, R386, R387. -/
def Obligations.DramServes : Prop :=
  (∀ (port : Fin 8) (addr age : Nat) (e : List (Nat × Nat)) (s : State), s.dramReady = true → addr < s.usable →
    s.unreachable addr = false →
    let a := addr / 64 * 64
    let u := s.dramAccess port.val a age
    let got := burstXor (errWord e) (u.dramGet a 64)
    (decodeBurst e = .clean → exec (.dramRead port addr age e) s = .next (u.emit (.dramData port.val got false))) ∧
    (∀ f, decodeBurst e = .fixed f → exec (.dramRead port addr age e) s =
      .next (((u.dramPut a (burstXor (errWord f) got)).corrected (subOf a) (u.rankOf a) f).emit (.dramData port.val (burstXor (errWord f) got) false))) ∧
    (decodeBurst e = .bad → exec (.dramRead port addr age e) s = .next ((u.dramUe port.val a 0).emit (.dramData port.val got true)))) ∧
  (∀ (port : Fin 8) (addr : Nat) (d : Bytes) (age : Nat) (e : List (Nat × Nat)) (s : State), s.dramReady = true →
    addr + d.length ≤ s.usable → s.unreachable addr = false →
    let u := s.dramAccess port.val addr age
    (d.length = 256 ∨ decodeBurst e = .clean → exec (.dramWrite port addr d age e) s = .next (u.dramPut addr d)) ∧
    (∀ f, d.length ≠ 256 → decodeBurst e = .fixed f → exec (.dramWrite port addr d age e) s =
      .next ((u.corrected (subOf addr) (u.rankOf addr) f).dramPut addr d)) ∧
    (d.length ≠ 256 → decodeBurst e = .bad → exec (.dramWrite port addr d age e) s = .next (u.dramUe port.val addr 1))) ∧
  (∀ (e : List (Nat × Nat)) (s : State), s.dramReady = true →
    let n := s.dramSt.scrub
    let s1 : State := { s with dramSt := { s.dramSt with scrub := n + 1 } }
    let a := 64 * n
    n < s.usable / 64 → n + 1 < s.scrubTotal →
    (decodeBurst e = .clean → exec (.dramScrub e) s = .next s1) ∧
    (decodeBurst e = .bad → s.scrubTotal = (s1.dramUe 7 a 0).scrubTotal → exec (.dramScrub e) s = .next (s1.dramUe 7 a 0)) ∧
    (∀ f, decodeBurst e = .fixed f →
      let t := (s1.dramPut a (burstXor (errWord f) (burstXor (errWord e) (s1.dramGet a 64)))).corrected (subOf a) (s1.rankOf a) f
      s.scrubTotal = t.scrubTotal → exec (.dramScrub e) s = .next t)) ∧
  (∀ (c : Fin 8) (r : Fin 2) (can : Bool) (s : State), rankExists r.val = true → s.ready 2 = true →
    (s.obj Obj.DRAM_STATE = 2 ∨ s.obj Obj.DRAM_STATE = 3) → (s.rank c.val r.val).mode ≠ 2 →
    let n := s.owed c.val r.val
    ((s.rank c.val r.val).doubled = true ∨ can = true →
      exec (.dramRefresh c r can) s = .next ((s.refabs c.val r.val (n + 1)).setOwed c.val r.val 0)) ∧
    ((s.rank c.val r.val).doubled = false → can = false → n < s.objN Obj.DRAM_REF_POSTPONE →
      exec (.dramRefresh c r can) s = .next (s.setOwed c.val r.val (n + 1))) ∧
    ((s.rank c.val r.val).doubled = false → can = false → s.objN Obj.DRAM_REF_POSTPONE ≤ n →
      exec (.dramRefresh c r can) s = .next ((s.refabs c.val r.val (1 + min n 1)).setOwed c.val r.val (n - 1)))) ∧
  (∀ (c : Fin 8) (r : Fin 2) (t : Int) (s : State), rankExists r.val = true → s.ready 2 = true →
    (s.obj Obj.DRAM_STATE = 2 ∨ s.obj Obj.DRAM_STATE = 3) → (s.rank c.val r.val).mode ≠ 2 →
    let s1 := s.setRank c.val r.val (fun x => { x with temp := some t })
    let s2 := s1.setObj (Obj.DRAM_TEMP c.val) (s1.dramTemp c.val)
    ((s2.rank c.val r.val).doubled = false → t < s2.obj Obj.DRAM_REF2X_C → exec (.dramMr4Read c r t) s = .next s2) ∧
    ((s2.rank c.val r.val).doubled = false → s2.obj Obj.DRAM_REF2X_C ≤ t →
      let n := 2 * s2.owed c.val r.val
      let s3 := (((s2.setOwed c.val r.val n).setRank c.val r.val (fun x => { x with doubled := true })).refabs c.val r.val n).setOwed c.val r.val 0
      let s4 := s3.setBit (Obj.DRAM_STATUS c.val) 3 ((s3.rank c.val 0).doubled || (s3.rank c.val 1).doubled)
      exec (.dramMr4Read c r t) s = .next (s4.event 24 0x1203 [(12, 1, c.val), (13, 1, r.val), (14, 1, 1), (16, 2, bitsOf 16 t), (18, 1, n)]))) ∧
  (∀ (c : Fin 8) (ctrl : BitVec 64) (s : State), s.dramSt.sweep = none → s.ready 2 = true →
    (s.obj Obj.DRAM_STATE = 2 ∨ s.obj Obj.DRAM_STATE = 3) → field ctrl.toNat 0 3 = c.val → sweepOk ctrl.toNat = true →
    let t := s.setObj Obj.DRAM_SWEEP_CTRL (ctrl.toNat : Nat)
    exec (.dramSweepStart c ctrl) s = .next { t with dramSt := { t.dramSt with sweep := some c.val } }) ∧
  (∀ (l : List (Nat × Nat)) (s : State), s.dramSt.sweep.isSome = true →
    let t := s.setBlob Obj.DRAM_SWEEP_RESULT 0 (sweepBytes (l.take (sweepSteps (s.objN Obj.DRAM_SWEEP_CTRL))) s.dramSt.rateHeld.isSome)
    let u : State := { t with dramSt := { t.dramSt with sweep := none } }
    (s.dramSt.rateHeld = none → exec (.dramSweepComplete l) s = .next u) ∧
    (∀ v, s.dramSt.rateHeld = some v → exec (.dramSweepComplete l) s = .next (u.applyRate v))) ∧
  (∀ (c : Fin 8) (r : Fin 2) (taps : Int) (s : State), rankExists r.val = true → s.ready 2 = true →
    s.obj Obj.DRAM_STATE = 3 → s.objN Obj.DRAM_DRIFT_TAPS < taps.natAbs →
    exec (.dramDrift c r taps) s = .next ((if s.calState 2 c.val = 0 then s.setCalState 2 c.val 1 else s).event 24 0x1202
      [(12, 1, c.val), (13, 1, r.val), (16, 4, bitsOf 32 taps)])) ∧
  (∀ (c : Ctx) (v : BitVec 16) (s : State), s.passes c Obj.DRAM_RATE 3 (le 2 v.toNat) = true →
    dramRates.contains v.toNat = true → (s.touch c).hq.jobs = [] →
    let u := s.touch c
    (u.dramSt.sweep = none → exec (.dramRate c v) s = .next ((u.applyRate v.toNat).written Obj.DRAM_RATE (le 2 v.toNat))) ∧
    (u.dramSt.sweep.isSome = true → exec (.dramRate c v) s =
      .next (({ u with dramSt := { u.dramSt with rateHeld := some v.toNat } } : State).written Obj.DRAM_RATE (le 2 v.toNat)))) ∧
  (∀ (c : Ctx) (idx sub : Nat) (v : BitVec 16) (s : State),
    let u := s.touch c
    let k := idx * 256 + sub
    let ok := fun (n r : Nat) => s.passes c k n (le (Obj.tyBytes n) v.toNat) = true ∧ v.toNat < 2 ^ (8 * Obj.tyBytes n) ∧
      (u.regionSet k r v.toNat).2 = 0
    (k = Obj.JNL_STORE_MIB → ok 3 regJournal → exec (.dramRegionResize c idx sub v) s =
      .next ((u.regionSet k regJournal v.toNat).1.written k (le 2 v.toNat))) ∧
    (k = Obj.NIM_EVID_SIZE → ok 2 regEvidence → exec (.dramRegionResize c idx sub v) s =
      .next ((u.regionSet k regEvidence v.toNat).1.written k (le 1 v.toNat))) ∧
    (k = Obj.DRAM_POOL_GIB → ok 3 regPool → exec (.dramRegionResize c idx sub v) s =
      .next ((u.regionSet k regPool v.toNat).1.written k (le 2 v.toNat)))) ∧
  (∀ (k r v : Nat) (s : State), s.regionsLive r = false →
    (s.laidOut = true → s.usable < sumTo (s.setObj k (v : Nat)).regionSizes 6 → s.regionSet k r v = (s, 0x04)) ∧
    (s.laidOut = false → s.regionSet k r v = (s.setObj k (v : Nat), 0)) ∧
    (s.laidOut = true → sumTo (s.setObj k (v : Nat)).regionSizes 6 ≤ s.usable → s.objN k ≠ v →
      (s.regionSet k r v).2 = 0 ∧ ∀ a, (s.regionSet k r v).1.dramByte a =
        if a < min (s.region (r + 1)).1 ((s.setObj k (v : Nat)).region (r + 1)).1 then s.dramByte a else dramEmpty)) ∧
  (∀ (bank : Nat) (s : State), (Tab.get (0, 0) s.dramSt.rows bank).1 ≠ 0 →
    (Tab.get (0, 0) s.dramSt.rows bank).2 + s.objN Obj.DRAM_ROW_IDLE_NS ≤ s.now →
    exec (.dramRowClose bank) s = .next { s with dramSt := { s.dramSt with rows := Tab.erase bank s.dramSt.rows } }) ∧
  (∀ (c : Fin 8) (r : Fin 2) (s : State), rankExists r.val = true → s.dramReady = true →
    (s.rank c.val r.val).mode = 0 → (s.rank c.val r.val).last + s.objN Obj.DRAM_PD_NS ≤ s.now →
    exec (.dramPowerDown c r) s = .next (s.setRank c.val r.val (fun x => { x with mode := 1 }))) ∧
  (∀ (s : State), s.obj Obj.DRAM_STATE = 2 →
    s.dramSt.trainSince + s.objN Obj.BOOT_RESTORE_MS * 1000000 ≤ s.now →
    exec .dramRestoreWaitEnd s = .next ((List.range 8).foldl (fun (s : State) c =>
      if (s.calUnit 2 c).hasRef ∨ 2 ≤ s.calState 2 c then s else (s.setCalState 2 c 1).calDue 2 c) s)) ∧
  (∀ (ok : Bool) (gib : Nat) (s : State), s.obj Obj.DRAM_STATE = 1 → s.ready 2 = true →
    let t := ((s.setObj Obj.DRAM_GIB (gib : Nat)).setObj Obj.DRAM_USABLE_MIB ((gib * 1024 * 4 / 5 : Nat) : Int)).setObj Obj.DRAM_STATE 2
    (ok = true → exec (.dramInitComplete ok gib) s = .next { t with dramSt := { t.dramSt with trainSince := t.now } }) ∧
    (ok = false → exec (.dramInitComplete ok gib) s =
      .next ((s.setObj Obj.DRAM_STATE 5).latch Config.dramRefusedCode serviceF 0 [] true false none)))

/-- Stratus: compression of blocks and streams, decompression, completion and aborts. Commands: COMPRESS_BLOCKS,
COMPRESS_STREAM, DECOMPRESS, STRATUS_JOB_COMPLETE, STR_ABORT. Rests on R389, R390, R391, R392, R393, R394, R395, R396,
R397, R398, R399, R400, R401. -/
def Obligations.StratusRuns : Prop :=
  (∀ (q : Fin 4) (src : Option Bytes) (b : Bytes) (s : State), s.headOfType (48 + q.val) 0x50 = some b →
    let d := strDesc b
    let u := s.consume (48 + q.val)
    s.ready 10 = true → s.engine q.val = none → ((d.srcDev || d.dstDev) = true → s.dramReady = true) →
    u.str.aborts.contains d.tag = false → u.strOk d = true →
    exec (.compressBlocks q src) s = .next ((u.runBlocks d src).2.setEngine q.val (some (u.runBlocks d src).1))) ∧
  (∀ (q : Fin 4) (src : Option Bytes) (b : Bytes) (s : State), s.headOfType (48 + q.val) 0x51 = some b →
    let d := strDesc b
    let u := s.consume (48 + q.val)
    s.ready 10 = true → s.engine q.val = none → ((d.srcDev || d.dstDev) = true → s.dramReady = true) →
    u.str.aborts.contains d.tag = false → u.strOk d = true →
    exec (.compressStream q src) s = .next ((u.runStream q.val d src).2.setEngine q.val (some (u.runStream q.val d src).1))) ∧
  (∀ (q : Fin 4) (src : Option Bytes) (b : Bytes) (s : State), s.headOfType (48 + q.val) 0x52 = some b →
    let d := strDesc b
    let u := s.consume (48 + q.val)
    s.ready 10 = true → s.engine q.val = none → ((d.srcDev || d.dstDev) = true → s.dramReady = true) →
    u.str.aborts.contains d.tag = false → u.strOk d = true →
    exec (.decompress q src) s = .next ((u.runUnz d src).2.setEngine q.val (some (u.runUnz d src).1))) ∧
  (∀ (d : StrDesc) (src : Bytes) (s : State), s.strSource d (some src) = some src →
    let c := compressed d.level d.log2 d.check src
    let r := s.runBlocks d (some src)
    if d.srcLen ≤ c.1.length then r.1.status = 6 ∧ r.1.out = d.job.out ∧ r.2 = s
    else if c.1.length ≤ d.dstMax then
      r.1.out = c.1 ∧ r.1.outLen = c.1.length ∧ r.1.inLen = d.srcLen ∧ r.2 = s
    else r = s.strFail d 0x20 d.dstMax) ∧
  (∀ (q : Fin 4) (j : StrJob) (s : State), s.engine q.val = some j → s.ready 10 = true →
    let s1 := if j.out.isEmpty then s else if j.dstDev then s.dramPut j.dst j.out else s.emit (.dma j.dst j.out)
    let rec0 := layout 28 [(0, 1, 0x30), (1, 1, 2 * b2n j.checked + 4 * b2n (0 < j.stored)), (2, 1, j.status),
      (3, 1, j.reason), (4, 4, j.tag), (8, 4, s1.stamp), (12, 4, j.inLen), (16, 4, j.outLen),
      (20, 2, min j.blocks 0xFFFF), (22, 2, min j.stored 0xFFFF), (24, 4, j.check)]
    let s2 := (s1.setEngine q.val none).strCount j
    let s3 : State := { s2 with str := { s2.str with posted := if s2.str.posted.contains j.tag then s2.str.posted else j.tag :: s2.str.posted } }
    exec (.stratusJobComplete q) s = .next (s3.push (52 + q.val) rec0)) ∧
  (∀ (c : Ctx) (tag : BitVec 32) (s : State), s.passes c Obj.STR_ABORT 4 (le 4 tag.toNat) = true →
    let u := s.touch c
    (∀ r j, (List.range 4).find? (fun r => (u.engine r).any (fun j => j.tag == tag.toNat)) = some r → u.engine r = some j →
      j.status ≠ 6 → j.status ≠ 3 → exec (.strAbort c tag) s = .next ((u.strStop r j).written Obj.STR_ABORT (le 4 tag.toNat))) ∧
    ((List.range 4).find? (fun r => (u.engine r).any (fun j => j.tag == tag.toNat)) = none →
      (List.range 4).any (fun r => (u.ring (48 + r)).head.any (fun d => getN d 4 4 == tag.toNat)) = true →
      exec (.strAbort c tag) s = .next (({ u with str := { u.str with aborts := tag.toNat :: u.str.aborts.filter (· ≠ tag.toNat) } } : State).written
        Obj.STR_ABORT (le 4 tag.toNat))))

/-- Halo: latching, clearing, injection, the safety chain, readback, web loss, windows, supplies, silent pairs and
ALERT_N. Commands: FAULT_LATCH, FLT_CLEAR, FLT_FEC_CLEAR, ALERT_PULSE_END, DIAG_INJECT, CHAIN_LOW, CHAIN_HIGH,
SAFE_READBACK_MISMATCH, WEB_LOSS, PAIR_SILENT, PRES_WIN_EXCEEDED, SUPPLY_OUT_OF_WINDOW. Rests on R404, R405, R406,
R407, R408, R409, R410, R411, R412, R413, R414, R415, R416, R417, R485. -/
def Obligations.FaultsLatch : Prop :=
  (∀ (code inst detail cls : Nat) (s : State), faultClass code = some cls →
    exec (.faultLatch code inst detail) s = .next (State.faultWakes s (s.latch code cls inst (le 12 detail) false false none))) ∧
  (∀ (s t : State),
    let new := t.halo.faults.any (fun f => decide (1 ≤ f.cls) && (s.fault? f.code f.inst).isNone)
    (t.pwState ≠ pwDormant ∨ new = false → State.faultWakes s t = t) ∧
    (t.pwState = pwDormant → new = true → State.faultWakes s t =
      ((t.endSpit.setObj Obj.CIC_WAKE_CAUSE 4).riseDone pwStandby 3).event 24 0x1603 [(12, 1, 4), (13, 1, 0), (16, 2, 0), (20, 4, t.cic.wakes)])) ∧
  (∀ (c : Ctx) (v : BitVec 32) (f : Flt) (s : State), s.passes c Obj.FLT_CLEAR 4 (le 4 v.toNat) = true →
    let u := s.touch c
    let code := field v.toNat 0 16
    let inst := field v.toNat 16 16
    inst ≠ 0xFFFF → u.halo.faults.filter (fun f => f.code == code && (inst == 0xFFFF || f.inst == inst)) = [f] →
    (f.cls = safety → u.isSuper c.sess = true) → (f.cond = true → f.injected = true) →
    exec (.fltClear c v) s = .next (((u.clearOne code inst c.sess).chainCheck).written Obj.FLT_CLEAR (le 4 v.toNat))) ∧
  (∀ (c : Ctx) (v : BitVec 8) (s : State), s.passes c Obj.FLT_FEC_CLEAR 2 (le 1 v.toNat) = true →
    let u := s.touch c
    exec (.fltFecClear c v) s = .next (({ u with halo := { u.halo with
      fec := u.halo.fec.filter (fun (e : Nat × Bytes) => !bitAt v.toNat (2 - e.1)) } } : State).written Obj.FLT_FEC_CLEAR (le 1 v.toNat))) ∧
  (∀ (t : Nat) (s : State),
    (s.halo.alert = .low t → t + s.objN Obj.HALO_ALERT_US * 1000 ≤ s.now → s.now < t + s.objN Obj.HALO_ALERT_US * 1000 + 1000 →
      exec .alertPulseEnd s = .next { s with halo := { s.halo with alert := .high (t + s.objN Obj.HALO_ALERT_US * 1000) } }) ∧
    (s.halo.alert = .high t → t + 1000 ≤ s.now → s.halo.alertPending = false →
      exec .alertPulseEnd s = .next { s with halo := { s.halo with alert := .rest } }) ∧
    (s.halo.alert = .high t → t + 1000 ≤ s.now → s.halo.alertPending = true →
      exec .alertPulseEnd s = .next (({ s with halo := { s.halo with alert := .low s.now, alertPending := false } } : State).count Obj.FLT_ALERT_CNT 1))) ∧
  (∀ (c : Ctx) (v : BitVec 32) (cls : Nat) (s : State), s.passes c Obj.DIAG_INJECT 4 (le 4 v.toNat) = true →
    let u := s.touch c
    let code := field v.toNat 0 16
    let inst := field v.toNat 16 8
    let point := field v.toNat 24 8
    point ≤ 1 → u.obj Obj.SEC_LIFECYCLE = 0 → (point = 1 → 0x1401 ≤ code ∧ code ≤ 0x140C) → faultClass code = some cls →
    u.fault? code inst = none →
    exec (.diagInject c v) s = .next ((u.latch code cls inst [] true true none).written Obj.DIAG_INJECT (le 4 v.toNat))) ∧
  (∀ (s : State),
    let u : State := { s with halo := { s.halo with chainExt := false } }
    (u.safeLow = true → exec .chainLow s = .next (State.faultWakes s u)) ∧
    (u.safeLow = false → u.fault? 0x140D 0 = none →
      exec .chainLow s = .next (State.faultWakes s (u.latch 0x140D safety 0 [] true false none)))) ∧
  (∀ (s : State), exec .chainHigh s = .next (({ s with halo := { s.halo with chainExt := true } } : State).condEnd 0x140D 0)) ∧
  (∀ (o : Nat) (s : State), o ≤ 32 →
    exec (.safeReadbackMismatch o) s = .next (State.faultWakes s (s.latch 0x140C safety o
      [BitVec.ofNat 8 (b2n (s.safeDriven o)), BitVec.ofNat 8 (b2n (!s.safeDriven o))] false false none))) ∧
  (∀ (w : WebNo) (s : State), s.web.driver = w.val → s.barActive = true →
    max (s.chan (.web w.val)).lastNs s.halo.webActiveSince + s.objN Obj.HALO_WEB_LOSS_MS * 1000000 ≤ s.now →
    (s.fault? 0x1406 w.val).any (fun f => f.cond) = false →
    exec (.webLoss w) s = .next (s.latch 0x1406 safety w.val (leInt 8 s.web.pos) true false none)) ∧
  (∀ (p : Fin 2) (s : State), exec (.pairSilent p) s =
    .next (State.faultWakes s (s.latch 0x140B safety p.val [] false false none))) ∧
  (∀ (ch : Fin 16) (v : BitVec 16) (s : State), (s.presWin ch.val).2.2.2 = true →
    s.objBit Obj.ADC_ENABLE ch.val = true → Tab.get 0 s.io.outSince ch.val ≠ 0 → s.inPresWin ch.val v.toNat = false →
    Tab.get 0 s.io.outSince ch.val + (s.presWin ch.val).2.2.1 * 100000 ≤ s.now + 1 →
    (s.fault? 0x1404 ch.val).any (fun f => f.cond) = false →
    exec (.presWinExceeded ch v) s = .next (s.latch 0x1404 safety ch.val (le 2 v.toNat ++ le 2
      (if v.toNat < (s.presWin ch.val).1 then (s.presWin ch.val).1 else (s.presWin ch.val).2.1)) true false none)) ∧
  (∀ (n : Fin 10) (mv : Int) (s : State), (mv < (s.supplyWindow n.val).1 ∨ (s.supplyWindow n.val).2 < mv) →
    exec (.supplyOutOfWindow n mv) s = .next (State.faultWakes s (s.latch 0x1409 safety n.val (leInt 4 mv) false false none))) ∧
  (∀ (code cls inst : Nat) (detail : Bytes) (cond injected : Bool) (f : Flt) (s : State), s.fault? code inst = some f →
    s.latch code cls inst detail cond injected none = s.setFaults (s.halo.faults.map (fun f =>
      if f.code = code ∧ f.inst = inst then { f with count := min (f.count + 1) 0xFFFF, last := s.stamp, cond := f.cond || cond } else f)))

/-- Twin operation: elections, takeover, hand-over, the link, joining and the journal of partners lost. Commands:
TWIN_ELECTION, TWIN_ELECT_TIMEOUT, TWIN_PRES_FALL, TWIN_PARTNER_LOST, TWIN_ENABLE, TWIN_HAND_OVER, TWIN_FORCE_ACTIVE,
TWIN_FRAME_RECEIVE, TWIN_RETRANSMIT, TWIN_HEARTBEAT_SEND, TWIN_SILENCE, TWIN_PLANNED_STOP, TWIN_SNAPSHOT_COMPLETE,
TWIN_STANDBY_READY, TWIN_LANE_FAIL. Rests on R419, R420, R421, R422, R423, R424, R425, R426, R427, R428, R429, R430,
R431, R432, R433, R434, R435, R436. -/
def Obligations.TwinRuns : Prop :=
  (∀ (trained : Bool) (s : State),
    let u := if trained then s.twinTrained else s
    u.twinState = twElecting →
    (u.headsObey = true → exec (.twinElection trained) s = .next (u.setTwinState twJoining 0)) ∧
    (u.headsObey = false → u.twin.up = true → exec (.twinElection trained) s =
      .next (if Config.twinRole = 0 then u.electActive else u.setTwinState twJoining 0))) ∧
  (∀ (s : State), s.twinState = twElecting → s.twin.up = false →
    s.twin.electSince + s.objN Obj.TWIN_ELECT_MS * msNs ≤ s.now →
    (s.headsObey = true → exec .twinElectTimeout s = .next (s.setTwinState twJoining 0)) ∧
    (s.headsObey = false → exec .twinElectTimeout s = .next (if Config.twinRole = 0 then s.electActive else s))) ∧
  (∀ (s : State),
    let u := (s.setTwin (fun t => { t with presLow := true })).setBit Obj.TWIN_STATUS 3 true
    (u.twinState = twSolo → u.obj Obj.TWIN_ENABLE = 1 → exec .twinPresFall s = .next (u.setTwinState twActive 0)) ∧
    (u.twinState ≠ twSolo ∨ u.obj Obj.TWIN_ENABLE ≠ 1 → exec .twinPresFall s = .next u)) ∧
  (∀ (s : State), s.twinState = twActive → s.twin.partner = twStandby → s.twin.handing = false →
    s.twinSilent = true →
    exec .twinPartnerLost s = .next ((((s.setTwin (fun t => { t with partner := twFaulted })).eventJ 24 0x1502 0x0C
      [(12, 1, (s.setTwin (fun t => { t with partner := twFaulted })).twinState), (13, 1, (s.setTwin (fun t => { t with partner := twFaulted })).twinState),
       (14, 1, 1)]).partnerFault).twinDown)) ∧
  (∀ (c : Ctx) (v : BitVec 8) (s : State), s.passes c Obj.TWIN_ENABLE 1 (le 1 v.toNat) = true →
    let u := (s.touch c).setObj Obj.TWIN_ENABLE (v.toNat : Nat)
    (v = 1#8 → (∀ t, t < 12 → (s.touch c).laneTest (160 + t) = false) →
      exec (.twinEnable c v) s = .next ((if u.twinState = twSolo ∧ u.twin.presLow = true then u.setTwinState twActive 0 else u).written
        Obj.TWIN_ENABLE (le 1 v.toNat))) ∧
    (v = 0#8 →
      let w := (u.twinDown).setTwin (fun t => { t with handing := false, stop := none })
      exec (.twinEnable c v) s = .next ((if w.hasAuthority then w.setTwinState twSolo 0 else w.setTwinState twFaulted 0).written
        Obj.TWIN_ENABLE (le 1 v.toNat)))) ∧
  (∀ (c : Ctx) (s : State), s.passes c Obj.TWIN_CMD 2 (le 1 1) = true →
    let u := s.touch c
    u.twinState = twActive → u.twin.partner = twStandby → u.twin.up = true → u.twin.handing = false →
    exec (.twinHandOver c) s = .next (((u.setTwin (fun t => { t with handing := true })).twinSend .handOver).written Obj.TWIN_CMD (le 1 1))) ∧
  (∀ (c : Ctx) (s : State), s.passes c Obj.TWIN_CMD 2 (le 1 2) = true →
    let u := s.touch c
    (u.twinState = twElecting ∨ u.twinState = twFaulted) → u.twin.up = false →
    exec (.twinForceActive c) s = .next ((u.takeover ((u.headEpoch + 1) % 2 ^ 32) 5).written Obj.TWIN_CMD (le 1 2))) ∧
  (∀ (seq : Nat) (i : TwinItem) (s : State), s.obj Obj.TWIN_ENABLE ≠ 0 → s.ready 3 = true →
    let u := (if s.twin.up then s else s.twinTrained)
    let w := u.setTwin (fun t => { t with lastRx := u.now })
    (∀ e, i = .heartbeat e → exec (.twinFrameReceive seq true i) s = .next (w.setTwin (fun t => { t with epochSeen := e }))) ∧
    (∀ n, i = .ack n → exec (.twinFrameReceive seq true i) s = .next (w.rxAck n)) ∧
    ((∀ e, i ≠ .heartbeat e) → (∀ n, i ≠ .ack n) → seq = w.twin.rxSeq →
      let x := w.setTwin (fun t => { t with rxSeq := (seq + 1) % 2 ^ 32 })
      exec (.twinFrameReceive seq true i) s = .next ((x.emit (.twin x.twin.txSeq (.ack seq))).rxApply i))) ∧
  (∀ (s : State), s.twin.up = true →
    let late := fun (e : Nat × TwinItem × Nat) => decide (e.2.2 + 2000 ≤ s.now)
    let again := s.twin.unacked.filter late
    let u := s.setTwin (fun t => { t with unacked := t.unacked.map (fun (e : Nat × TwinItem × Nat) => if late e then (e.1, e.2.1, s.now) else e) })
    exec .twinRetransmit s = .next ((again.foldl (fun (s : State) e => s.emit (.twin e.1 e.2.1)) u).count Obj.TWIN_RETX_CNT again.length)) ∧
  (∀ (s : State), s.twin.up = true → s.twin.lastTx + 1000 ≤ s.now →
    exec .twinHeartbeatSend s = .next ((s.setTwin (fun t => { t with lastTx := s.now })).emit (.twin s.twin.txSeq (.heartbeat (s.objN Obj.TWIN_EPOCH))))) ∧
  (∀ (s : State), s.twinState = twStandby → s.twin.up = true → s.twinSilent = true →
    exec .twinSilence s = .next ((s.twinDown.takeHeads 1).partnerFault)) ∧
  (∀ (t : Nat) (s : State), s.twin.handing = true → s.hasAuthority = true → s.twin.stop = some t → t ≤ s.now →
    exec .twinPlannedStop s = .next s.plannedStop) ∧
  (∀ (s : State), s.twinState = twJoining → s.twin.snapshot = true →
    exec .twinSnapshotComplete s = .next (s.setTwinState twSyncing 0)) ∧
  (∀ (s : State), s.twinState = twSyncing → s.syncJobs = 0 → (s.obj Obj.TWIN_TIME_ERR).natAbs ≤ 1000 →
    s.fault? 0x140E 0 = none → exec .twinStandbyReady s = .next (s.setTwinState twStandby 0)) ∧
  (∀ (l : Fin 12) (s : State), s.twin.up = true →
    let bad := if s.twin.badLanes.contains l.val then s.twin.badLanes else s.twin.badLanes ++ [l.val]
    let slow := bad.any (fun k => decide (k < 6)) && bad.any (fun k => decide (6 ≤ k))
    let t : State := { s with twin := { s.twin with badLanes := bad, half := true, slow := slow } }
    exec (.twinLaneFail l) s = .next ((((t.setObj Obj.TWIN_LANES 6).setBit Obj.TWIN_STATUS 2 true).event 24 0x1503
      [(12, 1, 6), (13, 1, b2n slow)]).calInterrupt 1 (160 + l.val)))

/-- Journal fragments, the lifecycle, the firmware counter, keys and debug. Commands: JOURNAL_FRAGMENT_POST,
SEC_SVN_COMMIT, SEC_LIFECYCLE, SEC_KEY_PROVISION, SEC_MAKER_KEY, SEC_DEBUG_KEY, SEC_KEY_REVOKE, SEC_DEBUG_CHALLENGE,
SEC_DEBUG_RESPONSE, SEC_DEBUG_STATE. Rests on R441, R444, R450, R451, R452. -/
def Obligations.SecurityObjectsWrite : Prop :=
  (∀ (i : Fin 4) (r0 : JRec) (s : State), s.objBit Obj.JNL_RING_MASK i.val = true →
    s.ringRuns (56 + i.val) = true → (s.ring (56 + i.val)).used < (s.ring (56 + i.val)).size → s.jnlNext (56 + i.val) = some r0 →
    let q := 56 + i.val
    let r := s.ring q
    let k := if r.fragRec = r0.num then r.fragIdx else 0
    let u := s.writeRecord q (fragBytes r0.bytes k)
    (r0.bytes.length ≤ 24 * (k + 1) → exec (.journalFragmentPost i) s = .next
      (u.setRing q { u.ring q with fragRec := r0.num + 1, fragIdx := 0, fragEnds := (u.ring q).fragEnds ++ [(r0.num, (u.ring q).prod)] })) ∧
    (24 * (k + 1) < r0.bytes.length → exec (.journalFragmentPost i) s = .next
      (u.setRing q { u.ring q with fragRec := r0.num, fragIdx := k + 1 }))) ∧
  (∀ (c : Ctx) (v : BitVec 8) (s : State), s.passes c Obj.SEC_SVN_COMMIT 2 (le 1 v.toNat) = true →
    let u := s.touch c
    let svn := u.objN Obj.SEC_IMAGE_SVN
    (u.fwFuse < svn →
      let w := u.secJournal 2 u.fwFuse svn 0
      exec (.secSvnCommit c v) s = .next (({ w with jnl := { w.jnl with burnedSvn := some svn } } : State).written Obj.SEC_SVN_COMMIT (le 1 v.toNat))) ∧
    (svn ≤ u.fwFuse → exec (.secSvnCommit c v) s = .next (u.written Obj.SEC_SVN_COMMIT (le 1 v.toNat)))) ∧
  (∀ (c : Ctx) (v : BitVec 8) (s : State), s.passes c Obj.SEC_LIFECYCLE 2 (le 1 v.toNat) = true →
    let u := s.touch c
    (u.isSuper c.sess = true ∨ (u.lifecycle = lcProvision ∧ 2 ≤ c.transport)) → v.toNat ≤ lcScrapped → u.lifecycle < v.toNat →
    u.jnl.lifecycleNext = none →
    (v.toNat = lcField → u.makerKeyIn = true ∧ u.debugKeyIn = true ∧ (List.range 4).any u.slotIn = true) →
    let w := u.secJournal 1 u.lifecycle v.toNat 0
    exec (.secLifecycle c v) s = .next (({ w with jnl := { w.jnl with lifecycleNext := some v.toNat } } : State).written Obj.SEC_LIFECYCLE (le 1 v.toNat))) ∧
  (∀ (c : Ctx) (d : Bytes) (s : State), s.passes c Obj.SEC_KEY_PROVISION 13 d = true →
    let u := (s.touch c).dropTransfer c.sess
    u.provisionOk (u.isSuper c.sess) (decide (2 ≤ c.transport)) = 0 → byteAt d 0 ≤ 3 → u.slotIn (byteAt d 0) = false →
    let w := (u.secJournal 3 0 0 (byteAt d 0)).setBit Obj.SEC_KEY_STATE (byteAt d 0) true
    exec (.secKeyProvision c d) s = .next
      (({ w with jnl := { w.jnl with keys := Tab.set [] w.jnl.keys (byteAt d 0) (slice d 1 32) } } : State).written Obj.SEC_KEY_PROVISION d)) ∧
  (∀ (c : Ctx) (d : Bytes) (s : State), s.passes c Obj.SEC_MAKER_KEY 13 d = true →
    let u := (s.touch c).dropTransfer c.sess
    u.provisionOk (u.isSuper c.sess) (decide (2 ≤ c.transport)) = 0 → u.makerKeyIn = false →
    exec (.secMakerKey c d) s = .next (({ u with jnl := { u.jnl with makerKey := some d } } : State).written Obj.SEC_MAKER_KEY d)) ∧
  (∀ (c : Ctx) (d : Bytes) (s : State), s.passes c Obj.SEC_DEBUG_KEY 13 d = true →
    let u := (s.touch c).dropTransfer c.sess
    u.provisionOk (u.isSuper c.sess) (decide (2 ≤ c.transport)) = 0 → u.debugKeyIn = false →
    exec (.secDebugKey c d) s = .next (({ u with jnl := { u.jnl with debugKey := some d } } : State).written Obj.SEC_DEBUG_KEY d)) ∧
  (∀ (c : Ctx) (v : BitVec 8) (s : State), s.passes c Obj.SEC_KEY_REVOKE 2 (le 1 v.toNat) = true →
    let u := s.touch c
    v.toNat ≤ 3 → u.lifecycle = lcField → u.slotOf c.sess ≠ v.toNat →
    exec (.secKeyRevoke c v) s = .next ((((u.secJournal 4 0 0 v.toNat).setBit Obj.SEC_KEY_STATE (4 + v.toNat) true).setObj Obj.SEC_KEY_REVOKE
      (v.toNat : Nat)).written Obj.SEC_KEY_REVOKE (le 1 v.toNat))) ∧
  (∀ (c : Ctx) (s : State), s.toaUp = true → (s.session? c.sess).isSome = true →
    let u := s.touch c
    u.offDomain Obj.SEC_DEBUG_CHALLENGE = none → u.lifecycle = lcField → u.isSuper c.sess = true →
    let x := u.draw 32
    let ch := le 8 (u.objN Obj.DEVICE_ID) ++ u.blob Obj.JNL_BOOT_NONCE 0 16 ++ x.1 ++ zeros 8
    exec (.secDebugChallenge c) s = .next (({ x.2 with jnl := { x.2.jnl with challenge := some ch } } : State).setToa
      (fun a => { a with status := 0, answer := ch }))) ∧
  (∀ (c : Ctx) (d ch : Bytes) (s : State), s.passes c Obj.SEC_DEBUG_RESPONSE 13 d = true →
    let u := (s.touch c).dropTransfer c.sess
    u.lifecycle = lcField → u.isSuper c.sess = true → getN d 0 4 < 8 → u.jnl.challenge = some ch →
    (sha384 (slice d 4 97) = u.debugKeyDigest → ecdsaVerify (slice d 4 97) (sha384 (ch ++ slice d 0 101)) (slice d 101 96) = true →
      let w := u.secJournal 5 (b2n u.jnl.debugOpen) 1 (getN d 0 4)
      exec (.secDebugResponse c d) s = .next
        ((({ w with jnl := { w.jnl with debugOpen := true, debugScope := getN d 0 4 } } : State).setObj Obj.SEC_DEBUG_STATE 1).written
          Obj.SEC_DEBUG_RESPONSE d))) ∧
  (∀ (c : Ctx) (v : BitVec 8) (s : State), s.passes c Obj.SEC_DEBUG_STATE 2 (le 1 v.toNat) = true →
    let u := s.touch c
    (u.jnl.debugOpen = true →
      let w := u.secJournal 6 1 0 u.jnl.debugScope
      exec (.secDebugState c v) s = .next
        ((({ w with jnl := { w.jnl with debugOpen := false, debugScope := 0 } } : State).setObj Obj.SEC_DEBUG_STATE 0).written
          Obj.SEC_DEBUG_STATE (le 1 v.toNat))) ∧
    (u.jnl.debugOpen = false → exec (.secDebugState c v) s = .next (u.written Obj.SEC_DEBUG_STATE (le 1 v.toNat))))

/-- Cicada: wakes, spits, their failures and full wakes. Commands: CICADA_WAKE, SPIT_LINE, SPIT_TIMEOUT, CIC_WAKE_PIN.
Rests on R466, R467, R468, R469. -/
def Obligations.CicadaWakes : Prop :=
  (∀ (adc : List Nat) (pins : BitVec 32) (s : State), s.pwState = pwDormant → s.cic.next ≤ s.time.dormant → s.cic.late = false →
    let u := (s.count Obj.CIC_WAKES 1).setCic (fun c => { c with wakes := c.wakes + 1, pins := pins.toNat })
    let period := u.objN Obj.CIC_PERIOD_S * 10000000
    let w := (u.cicReadings adc).setCic (fun c => { c with next := c.next + period })
    u.cic.spit = none →
    (∀ ch v, w.cicOutside adc = some (ch, v) → exec (.cicadaWake adc pins) s = .next (w.fullWake 1 ch (v : Int))) ∧
    (w.cicOutside adc = none → 0 < w.objN Obj.CIC_SPIT_EVERY → w.cic.wakes % w.objN Obj.CIC_SPIT_EVERY = 0 →
      exec (.cicadaWake adc pins) s = .next w.startSpit) ∧
    (w.cicOutside adc = none → w.objN Obj.CIC_SPIT_EVERY = 0 → exec (.cicadaWake adc pins) s = .next w)) ∧
  (∀ (p : Spit) (s : State), s.cic.spit = some p → p.ready = true → p.next ≤ s.time.dormant → s.lostBars p = [] →
    p.wake = none → p.bars ≠ [] →
    let x := s.drawNat
    let heads := (p.bars.map barHeads).flatten
    let u := heads.foldl (fun (s : State) h => s.spitHead p.line (x.1 % 2 ^ 63) (s.objN Obj.CIC_SPIT_DOT) h) x.2
    (p.line + 1 < u.objN Obj.CIC_SPIT_LINES → exec .spitLine s = .next (u.setCic (fun c => { c with spit := some { p with
      line := p.line + 1, next := u.time.dormant + 10 * u.objN Obj.CIC_SPIT_PERIOD_US } }))) ∧
    (u.objN Obj.CIC_SPIT_LINES ≤ p.line + 1 → exec .spitLine s =
      .next (p.bars.foldl (fun (s : State) b => s.countElem Obj.CIC_SPIT_CNT b 4 32 1) u).endSpit)) ∧
  (∀ (p : Spit) (s : State), s.cic.spit = some p → p.ready = false → p.since + 1000000 ≤ s.time.dormant →
    s.lostBars p ≠ [] → exec .spitTimeout s = .next (s.spitFails p (s.lostBars p))) ∧
  (∀ (s : State), bitAt (s.objN Obj.CIC_WAKE_PIN) 7 = false → s.pwState = pwDormant →
    exec .cicWakePin s = .next (((s.endSpit.setObj Obj.CIC_WAKE_CAUSE 3).riseDone pwStandby 3).event 24 0x1603
      [(12, 1, 3), (13, 1, 0), (16, 2, 0), (20, 4, s.cic.wakes)]))

/-- Clocks, resets and boot, and the Ethernet ports. Commands: RESET, PAIR_RESET, ROOT_PLL_LOCK, PLL_LOCK_RETRY,
PLL_LOCK_LOSS, RST_REQUEST, RST_REQUEST_FORCE, BOOT_COMPLETE, EN_LINK_CHANGE, ETHERNET_FRAME_RECEIVE. Rests on R329,
R472, R473, R474, R475, R476, R477, R478, R479, R480. -/
def Obligations.ResetAndBoot : Prop :=
  (∀ (src : Fin 16) (s : State), src.val ≠ 0 → src.val ≤ 7 → (s.pwr.off = true → src.val ≤ 2) →
    (src.val = 5 → ∃ t, s.pwr.resetAt = some t ∧ t ≤ s.aclkNs) →
    exec (.reset src) s = .next (((s.cleared src.val).count Obj.RST_COUNT 1).latch 0x140E safety src.val [] true false none)) ∧
  (∀ (pair : Fin 2) (s : State),
    let source := if (s.fault? 0x1407 pair.val).isSome then 6 else 7
    (s.fault? 0x1407 pair.val).isSome = true ∨ (s.fault? 0x140B pair.val).isSome = true →
    exec (.pairReset pair) s = .next (((((s.toa.sessions.foldl (fun (s : State) x => s.closeSession x.id 2) s).setObj Obj.RST_SOURCE (source : Nat)).count
      Obj.RST_COUNT 1)).latch 0x140E safety source [] false false none)) ∧
  (∀ (s : State), s.pwr.pllLost = false → s.pwr.off = false → s.pwState ≠ pwDormant →
    exec .rootPllLock s = .next ((((s.setBit Obj.CLK_STATUS 0 true).setBit Obj.CLK_STATUS 1 true).condEnd 0x1408 0).condEnd 0x1408 1)) ∧
  (∀ (refclk : Bool) (s : State), s.objBit Obj.CLK_STATUS 1 = false → s.jnl.booted = false →
    let u := s.setBit Obj.CLK_STATUS 0 refclk
    u.fault? 0x1408 (b2n refclk) = none →
    exec (.pllLockRetry refclk) s = .next (u.latch 0x1408 safety (b2n refclk) [] true false none)) ∧
  (∀ (s : State), s.objBit Obj.CLK_STATUS 1 = true →
    exec .pllLockLoss s = .next (State.faultWakes s ((((s.count Obj.CLK_LOCK_LOSS_CNT 1).latch 0x1408 safety 1 [] true false none).setBit Obj.CLK_STATUS 1
      false).setPwr (fun p => { p with pllLost := true })))) ∧
  (∀ (c : Ctx) (s : State), s.passes c Obj.RST_REQUEST 2 (le 1 1) = true →
    let u := s.touch c
    u.hq.jobs = [] → u.jnlFill = 0 →
    exec (.rstRequest c) s = .next (((u.secJournal 7 0 1 0).setPwr (fun p => { p with resetAt := some (u.aclkNs + 1000000) })).written
      Obj.RST_REQUEST (le 1 1))) ∧
  (∀ (c : Ctx) (s : State), s.passes c Obj.RST_REQUEST 2 (le 1 2) = true →
    let u := s.touch c
    exec (.rstRequestForce c) s = .next (((u.secJournal 7 0 2 0).setPwr (fun p => { p with resetAt := some (u.aclkNs + 1000000) })).written
      Obj.RST_REQUEST (le 1 2))) ∧
  (∀ (s : State), s.jnl.booted = false → s.ready 1 = true → s.pwr.off = false →
    let u := ({ s with jnl := { s.jnl with booted := true } } : State).journal 1 s.bootBody
    let u1 := (u.halo.faults.filter (fun f => decide (1 ≤ f.cls))).foldl (fun (s : State) f => s.journal 9 (s.faultEvent f)) u
    let x := (u1.condEnd 0x140E (u1.objN Obj.RST_SOURCE)).drawNat
    let u2 := x.2.setObj Obj.BOOT_TIME ((x.1 % 2 ^ 32 : Nat) : Int)
    let u3 := if Config.dramBlock then (u2.setObj Obj.DRAM_STATE 1).setObj Obj.DRAM_RATE Config.dramRate else u2
    (u3.twin.presLow = false → exec .bootComplete s = .next u3) ∧
    (u3.twin.presLow = true → u3.obj Obj.TWIN_ENABLE = 1 →
      exec .bootComplete s = .next ((u3.setTwin (fun t => { t with electSince := u3.now })).setTwinState twElecting 0))) ∧
  (∀ (p : Fin 2) (up : Bool) (s : State), s.ready 3 = true →
    exec (.enLinkChange p up) s = .next (s.setObj (Obj.EN_LINK p.val) (b2n (up && s.obj (Obj.EN_ENABLE p.val) == 1) : Nat))) ∧
  (∀ (p : Fin 2) (f : Bytes) (s : State), s.enUp p.val = true →
    (exec (.ethernetFrameReceive p f false) s = .next (s.count (Obj.EN_RX_ERR p.val) 1)) ∧
    ((s.count (Obj.EN_RX_FRAMES p.val) 1).enAnswer p.val f = none →
      exec (.ethernetFrameReceive p f true) s = .next (s.count (Obj.EN_RX_FRAMES p.val) 1)) ∧
    (∀ r, (s.count (Obj.EN_RX_FRAMES p.val) 1).enAnswer p.val f = some r →
      exec (.ethernetFrameReceive p f true) s = .next ((s.count (Obj.EN_RX_FRAMES p.val) 1).emit (.eth p.val r))))

/-- When no room is left for a record outside the reserve, nothing is stored, SEQ is consumed, the gap grows and
JNL_LOST_CNT counts (saturating); the first record stored after a loss is preceded by a GAP record that carries the
first lost SEQ and their number. (R446.) -/
def Obligations.GapRecords : Prop :=
  (∀ (kind : Nat) (body : Bytes) (s : State), s.jnl.booted = true →
    let room := if kind = 4 ∨ kind = 5 ∨ kind = 6 then s.jnlCap else s.jnlCap - s.jnlReserve
    let need := 196 + body.length + (if s.jnl.gap.isSome then 208 else 0)
    let t := s.journal kind body
    room < s.jnlFill + need →
      t.jnl.store = s.jnl.store ∧ t.jnl.seq = (s.jnl.seq + 1) % 2 ^ 64 ∧
      t.jnl.gap = (match s.jnl.gap with | none => some (s.jnl.seq, 1) | some g => some (g.1, min (g.2 + 1) (2 ^ 32 - 1))) ∧
      t.obj Obj.JNL_LOST_CNT = (min (s.objN Obj.JNL_LOST_CNT + 1) (2 ^ 32 - 1) : Nat)) ∧
  (∀ (kind : Nat) (body : Bytes) (s : State) (first n : Nat), s.jnl.booted = true → s.jnl.gap = some (first, n) →
    let room := if kind = 4 ∨ kind = 5 ∨ kind = 6 then s.jnlCap else s.jnlCap - s.jnlReserve
    s.jnlFill + 404 + body.length ≤ room →
      ∃ g r, (s.journal kind body).jnl.store = s.jnl.store ++ [g, r] ∧ g.kind = 0x0E ∧ g.seq = s.jnl.seq ∧ r.kind = kind ∧
        r.seq = (s.jnl.seq + 1) % 2 ^ 64 ∧ (s.journal kind body).jnl.gap = none ∧
        g.bytes = s.jnlRecord 0x0E (le 8 first ++ le 4 n))

/-- A value of CAM_TABLE is 4,100 bytes and nothing else; a table whose CRC fails is OUT_OF_RANGE; one that an engaged
axis uses is BUSY; neither changes anything; any other is written whole, with OK. (R350.) -/
def Obligations.CamTableWrites : Prop :=
  (∀ (k : Nat), k < 8 → ∀ n, (Obj.find (Obj.CAM_TABLE k)).any (fun x => lengthOk (Obj.CAM_TABLE k) x.1 n) = true ↔ n = 4100) ∧
  (∀ (c : Ctx) (k : Nat) (v : Int) (d : Bytes) (l : Spans) (s : State), k < 8 →
    let good := d.length = 4100 ∧ crc32c (d.take 4096) = getN d 4096 4
    (¬ good → s.writeRule c (Obj.CAM_TABLE k) v d l = (s, 4)) ∧
    (good → (∃ x, x < 24 ∧ s.slaved x = true ∧ s.objN (Obj.AX_CAM_TABLE x) = k) →
      s.writeRule c (Obj.CAM_TABLE k) v d l = (s, 0xA)) ∧
    (good → (∀ x, x < 24 → s.slaved x = true → s.objN (Obj.AX_CAM_TABLE x) ≠ k) →
      s.writeRule c (Obj.CAM_TABLE k) v d l = (s.setBlob (Obj.CAM_TABLE k) 0 d, 0)))

/-- Writes of ENC_PATH, ENC_FILTER, ENC_REV_COUNTS, ENC_INDEX_POS and ENC_INDEX_MODE while ENC_ENABLE is 1, and of the
axis objects set while off while AXE_MODE is not 0, answer BUSY and change nothing. (R101.) -/
def Obligations.EncoderSettingsHeld : Prop :=
  (∀ (c : Ctx) (w k : Nat) (v : Int) (d : Bytes) (l : Spans) (s : State), w < 2 → s.obj (Obj.ENC_ENABLE w) = 1 →
    k = Obj.ENC_PATH w ∨ k = Obj.ENC_FILTER w ∨ k = Obj.ENC_REV_COUNTS w ∨ k = Obj.ENC_INDEX_POS w ∨ k = Obj.ENC_INDEX_MODE w →
    s.writeRule c k v d l = (s, 0x0A)) ∧
  (∀ (c : Ctx) (x k : Nat) (v : Int) (d : Bytes) (l : Spans) (s : State), x < 24 → s.obj (Obj.AXE_MODE x) ≠ 0 →
    k = Obj.AXE_FILTER x ∨ k = Obj.AXE_SSI_CLK x ∨ k = Obj.AXE_SSI_FRAME x ∨ k = Obj.AXE_SSI_RATE x ∨ k = Obj.AXE_SSI_RECOVERY x →
    s.writeRule c k v d l = (s, 0x0A))

/-- A read of a WO object and a write of an RO object are ACCESS_DENIED (2); a write of an RWS or RWBS object by a
card with fire authority is SESSION_REQUIRED (7) without supervisor rights and passes with them, SEC_LIFECYCLE apart,
which has its own sessions; a key that names no object is NO_OBJECT (1). Rests on R303, R304, R451. -/
def Obligations.AccessRights : Prop :=
  (∀ (sess k : Nat) (st : Bool) (s : State), k % 256 ≠ 0 → (Obj.find k).any (fun x => x.1.acc == .wo) = true →
    (s.readObj sess k st).status = 2 ∧ (s.readObj sess k st).st = s) ∧
  (∀ (sess k : Nat) (s : State), (Obj.find k).any (fun x => x.1.acc == .ro) = true → s.writeAccess sess k = 2) ∧
  (∀ (sess k : Nat) (s : State), (Obj.find k).any (fun x => x.1.acc == .rws || x.1.acc == .rwbs) = true →
    k ≠ Obj.SEC_LIFECYCLE → s.hasAuthority = true → s.writeAccess sess k = (if s.isSuper sess then 0 else 7)) ∧
  (∀ (sess k : Nat) (st : Bool) (s : State), Obj.find k = none → (k % 256 ≠ 0 ∨ Obj.countOf (k / 256) = none) →
    (s.readObj sess k st).status = 1 ∧ s.writeAccess sess k = 1)

/-- For every address: reading after a write of one byte or of a run of bytes gives the bytes written inside the run
and what was there outside it; the run reads back whole. Rests on R376, R374. -/
def Obligations.DramHoldsBytes : Prop :=
  (∀ (s : State) (a x : Nat) (v : Byte), (s.dramSet a v).dramByte x = if x = a then v else s.dramByte x) ∧
  (∀ (d : Bytes) (s : State) (a x : Nat),
    (s.dramPut a d).dramByte x = if a ≤ x ∧ x < a + d.length then d.getD (x - a) 0 else s.dramByte x) ∧
  (∀ (d : Bytes) (s : State) (a : Nat), (s.dramPut a d).dramGet a d.length = d)

/-- With DRAM READY, a read at or beyond the usable bytes and a write that passes their end end in the fault
noSuchAddress. Rests on R373. -/
def Obligations.DramStops : Prop :=
  (∀ (port : Fin 8) (addr age : Nat) (e : List (Nat × Nat)) (s : State), s.dramReady = true → s.usable ≤ addr →
    exec (.dramRead port addr age e) s = .fault (.noSuchAddress addr)) ∧
  (∀ (port : Fin 8) (addr : Nat) (d : Bytes) (age : Nat) (e : List (Nat × Nat)) (s : State), s.dramReady = true →
    s.usable < addr + d.length → exec (.dramWrite port addr d age e) s = .fault (.noSuchAddress addr))

/-- Writing an object or a byte of a table changes that one alone; raising an event changes no object, table byte,
DRAM byte, journal, fault, time, output or job; a counter short of its maximum changes by what it counts and nothing
else does. Rests on R24, R27, R45. -/
def Obligations.SharedOperationsFrame : Prop :=
  (∀ (s : State) (k j : Nat) (v : Int), (s.setObj k v).obj j = if j = k then v else s.obj j) ∧
  (∀ (s : State) (k o j p : Nat) (v : Byte), o < 2 ^ 24 → p < 2 ^ 24 →
    (s.setByte k o v).byte j p = if j = k ∧ p = o then v else s.byte j p) ∧
  (∀ (s : State) (q code : Nat) (args : List (Nat × Nat × Nat)),
    (s.event q code args).objs = s.objs ∧ (s.event q code args).dram = s.dram ∧ (s.event q code args).blobs = s.blobs ∧
    (s.event q code args).jnl = s.jnl ∧ (s.event q code args).halo = s.halo ∧ (s.event q code args).time = s.time ∧
    (s.event q code args).out = s.out ∧ (s.event q code args).hq.jobs = s.hq.jobs) ∧
  (∀ (s : State) (k n j : Nat), counterMax (match Obj.find k with | some (r, _) => r.ty | none => 4) > s.objN k + n →
    (s.count k n).obj j = if j = k ∧ n ≠ 0 then ((s.objN k + n : Nat) : Int) else s.obj j)

/-- Latching a code and instance that is latched: its COUNT grows (saturating), LAST_STAMP is now, and the host
queues, outputs, ALERT_N and journal are unchanged. Rests on R405. -/
def Obligations.FaultsRecur : Prop :=
  (∀ (s : State) (code cls inst : Nat) (d : Bytes) (cond inj : Bool) (f : Flt), s.fault? code inst = some f →
    let t := s.latch code cls inst d cond inj none
    t.fault? code inst = some { f with count := min (f.count + 1) 0xFFFF, last := s.stamp, cond := f.cond || cond } ∧
      t.hq = s.hq ∧ t.out = s.out ∧ t.halo.alert = s.halo.alert ∧ t.halo.alertPending = s.halo.alertPending ∧ t.jnl = s.jnl)

/-- With no open session of the nonce, room for one more and fewer than 511 identifiers taken, OPEN answers OK with
the identifier of the one session it appends, which is without supervisor rights. The identifier is a free value
within R313. Rests on R313. -/
def Obligations.SessionIdsAreNew : Prop :=
  (∀ (transport seq : Nat) (nonce : Bytes) (s : State),
    s.toa.opens.find? (fun (e : Bytes × Nat × Nat) => e.1 == nonce && (s.session? e.2.1).isSome) = none →
    s.toa.sessions.length < 16 → s.toa.closed.length + s.toa.sessions.length < 511 →
    ∃ y : Session, (s.openCmd transport seq nonce).st.toa.sessions = s.toa.sessions ++ [y] ∧
      (s.openCmd transport seq nonce).body = le 4 y.id ∧ (s.openCmd transport seq nonce).status = 0 ∧
      y.id ≠ 0 ∧ s.session? y.id = none ∧ y.id ∉ s.toa.closed ∧ y.super = false ∧ y.seqHi = seq ∧ y.transport = transport)

/-- For every state whose object store, table bytes and DRAM are in canonical form, if step answers a next state then
its stores are too. Rests on R374, R376. -/
def Obligations.StoresStayCanonical : Prop :=
  (∀ (s t : State), s.Canonical → step s = .next t → t.Canonical)

/-- For every command and state, if exec answers a next state, its queue is the one before, everything sent before is
still sent, and the counter of free values has not fallen. -/
def Obligations.QueueAndOutputsKept : Prop :=
  (∀ (c : Instr) (s t : State), exec c s = .next t → t.pending = s.pending ∧ s.out <:+ t.out ∧ s.free ≤ t.free)
end

