-- ==== Sys2Proof/Laws/Tables.lean ====
section
/-! SUPPORT. Laws of the sparse tables: reading after a write, and the canonical form that every write keeps. -/

namespace Sys2Proof

variable {α : Type}

theorem Tab.get_erase (d : α) (t : Tab α) (k j : Nat) :
    Tab.get d (Tab.erase k t) j = if j = k then d else Tab.get d t j := by
  induction t with
  | nil => simp [Tab.erase, Tab.get]
  | cons e t ih =>
    by_cases h : e.1 = k
    · simp only [Tab.erase, h, if_true, ih, Tab.get]
      by_cases hj : j = k
      · simp [hj]
      · simp [hj, Ne.symm hj]
    · simp only [Tab.erase, h, if_false, Tab.get, ih]
      by_cases hj : e.1 = j
      · have : j ≠ k := fun hk => h (hj.trans hk)
        simp [hj, this]
      · simp [hj]

theorem Tab.get_insert_of_fresh (d : α) (t : Tab α) (k j : Nat) (v : α) (h : ∀ e ∈ t, e.1 ≠ k) :
    Tab.get d (Tab.insert k v t) j = if j = k then v else Tab.get d t j := by
  induction t with
  | nil => simp [Tab.insert, Tab.get, eq_comm]
  | cons e t ih =>
    have ht : ∀ e ∈ t, e.1 ≠ k := fun e he => h e (List.mem_cons_of_mem _ he)
    have he : e.1 ≠ k := h e List.mem_cons_self
    by_cases hk : k < e.1
    · simp [Tab.insert, hk, Tab.get, eq_comm]
    · simp only [Tab.insert, hk, if_false, Tab.get, ih ht]
      by_cases hj : e.1 = j
      · have : j ≠ k := fun hk => he (hj.trans hk)
        simp [hj, this]
      · simp [hj]

theorem Tab.erase_ne (t : Tab α) (k : Nat) : ∀ e ∈ Tab.erase k t, e.1 ≠ k := by
  induction t with
  | nil => simp [Tab.erase]
  | cons e t ih =>
    by_cases h : e.1 = k
    · simpa [Tab.erase, h] using ih
    · simp only [Tab.erase, h, if_false]
      intro f hf
      rcases List.mem_cons.mp hf with rfl | hf
      · exact h
      · exact ih f hf

/-- Reading a table after a write. -/
theorem Tab.get_set [DecidableEq α] (d : α) (t : Tab α) (k j : Nat) (v : α) :
    Tab.get d (Tab.set d t k v) j = if j = k then v else Tab.get d t j := by
  unfold Tab.set
  by_cases h : v = d
  · simp [h, Tab.get_erase]
  · rw [if_neg h, Tab.get_insert_of_fresh _ _ _ _ _ (Tab.erase_ne t k), Tab.get_erase]
    by_cases hj : j = k <;> simp [hj]

@[simp] theorem Tab.get_set_same [DecidableEq α] (d : α) (t : Tab α) (k : Nat) (v : α) :
    Tab.get d (Tab.set d t k v) k = v := by simp [Tab.get_set]

theorem Tab.get_set_of_ne [DecidableEq α] (d : α) (t : Tab α) (k j : Nat) (v : α) (h : j ≠ k) :
    Tab.get d (Tab.set d t k v) j = Tab.get d t j := by simp [Tab.get_set, h]

/-- Writing with one default and reading with the default of another key. -/
theorem Tab.get_set_of_ne' [DecidableEq α] (d d' : α) (t : Tab α) (k j : Nat) (v : α) (h : j ≠ k) :
    Tab.get d' (Tab.set d t k v) j = Tab.get d' t j := by
  unfold Tab.set
  by_cases hv : v = d
  · simp [hv, Tab.get_erase, h]
  · rw [if_neg hv, Tab.get_insert_of_fresh _ _ _ _ _ (Tab.erase_ne t k), Tab.get_erase]
    simp [h]

/-! ### The canonical form -/

theorem Tab.erase_eq_filter (t : Tab α) (k : Nat) : Tab.erase k t = t.filter (fun e => decide (e.1 ≠ k)) := by
  induction t with
  | nil => rfl
  | cons e t ih => by_cases h : e.1 = k <;> simp [Tab.erase, h, ih]

/-- The canonical form as a statement about every entry and every pair of entries. -/
theorem Tab.wf_iff [DecidableEq α] (d : Nat → α) (t : Tab α) :
    Tab.wf d t = true ↔ t.Pairwise (fun a b => a.1 < b.1) ∧ ∀ e ∈ t, e.2 ≠ d e.1 := by
  induction t with
  | nil => simp [Tab.wf]
  | cons e t ih =>
    cases t with
    | nil => simp [Tab.wf]
    | cons f t =>
      simp only [Tab.wf, Bool.and_eq_true, decide_eq_true_eq, ih, List.pairwise_cons, List.mem_cons, forall_eq_or_imp]
      constructor
      · rintro ⟨⟨h1, h2⟩, ⟨h3, h4⟩, h5, h6⟩
        exact ⟨⟨⟨h2, fun g hg => h2.trans (h3 g hg)⟩, h3, h4⟩, h1, h5, h6⟩
      · rintro ⟨⟨⟨h2, _⟩, h3, h4⟩, h1, h5, h6⟩
        exact ⟨⟨h1, h2⟩, ⟨h3, h4⟩, h5, h6⟩

theorem Tab.wf_filter [DecidableEq α] (d : Nat → α) (t : Tab α) (p : Nat × α → Bool) (h : Tab.wf d t = true) :
    Tab.wf d (t.filter p) = true := by
  rw [Tab.wf_iff] at h ⊢
  exact ⟨h.1.filter _, fun e he => h.2 e (List.mem_filter.mp he).1⟩

theorem Tab.mem_insert (t : Tab α) (k : Nat) (v : α) (e : Nat × α) : e ∈ Tab.insert k v t ↔ e = (k, v) ∨ e ∈ t := by
  induction t with
  | nil => simp [Tab.insert]
  | cons f t ih =>
    by_cases h : k < f.1
    · simp [Tab.insert, h]
    · simp only [Tab.insert, h, if_false, List.mem_cons, ih]
      constructor
      · rintro (h | h | h) <;> simp [h]
      · rintro (h | h | h) <;> simp [h]

theorem Tab.insert_sorted (t : Tab α) (k : Nat) (v : α) (h : t.Pairwise (fun a b => a.1 < b.1)) (hk : ∀ e ∈ t, e.1 ≠ k) :
    (Tab.insert k v t).Pairwise (fun a b => a.1 < b.1) := by
  induction t with
  | nil => simp [Tab.insert]
  | cons f t ih =>
    rw [List.pairwise_cons] at h
    by_cases hl : k < f.1
    · rw [Tab.insert, if_pos hl]
      refine List.pairwise_cons.mpr ⟨fun e he => ?_, List.pairwise_cons.mpr h⟩
      rcases List.mem_cons.mp he with rfl | he
      · exact hl
      · exact hl.trans (h.1 e he)
    · simp only [Tab.insert, hl, if_false, List.pairwise_cons]
      refine ⟨fun e he => ?_, ih h.2 (fun e he => hk e (List.mem_cons_of_mem _ he))⟩
      rcases (Tab.mem_insert _ _ _ _).mp he with rfl | he
      · exact lt_of_le_of_ne (not_lt.mp hl) (hk f List.mem_cons_self)
      · exact h.1 e he

/-- A write keeps the canonical form. -/
theorem Tab.wf_set [DecidableEq α] (d : Nat → α) (t : Tab α) (k : Nat) (v : α) (h : Tab.wf d t = true) :
    Tab.wf d (Tab.set (d k) t k v) = true := by
  unfold Tab.set
  have he : Tab.wf d (Tab.erase k t) = true := by rw [Tab.erase_eq_filter]; exact Tab.wf_filter d t _ h
  by_cases hv : v = d k
  · simpa [hv] using he
  · rw [if_neg hv, Tab.wf_iff]
    rw [Tab.wf_iff] at he
    refine ⟨Tab.insert_sorted _ _ _ he.1 (Tab.erase_ne t k), fun e hm => ?_⟩
    rcases (Tab.mem_insert _ _ _ _).mp hm with rfl | hm
    · exact hv
    · exact he.2 e hm

end Sys2Proof
end

