-- ==== Sys2Proof/Laws/Kept.lean ====
section
/-! SUPPORT. What every operation of the block keeps, as one relation between the state before and the state after: its laws,
and the operations that write the stores, the outputs and the free counter themselves. -/

namespace Sys2Proof.Machine

/-- What every operation of the block keeps, from a state a to a state t: the queue of commands, the canonical forms of the
object store and of DRAM, the order of the tables' bytes, everything sent before, and the free values drawn before. -/
structure Kept (a t : State) : Prop where
  pending : t.pending = a.pending
  objs : Tab.wf Obj.dflt a.objs = true → Tab.wf Obj.dflt t.objs = true
  blobs : Tab.rising a.blobs → Tab.rising t.blobs
  dram : Memory.wf a.dram = true → Memory.wf t.dram = true
  out : a.out <:+ t.out
  free : a.free ≤ t.free

theorem Kept.refl (a : State) : Kept a a := ⟨rfl, id, id, id, List.suffix_refl _, Nat.le_refl _⟩

theorem Kept.trans {a b c : State} (h : Kept a b) (k : Kept b c) : Kept a c :=
  ⟨k.pending.trans h.pending, fun x => k.objs (h.objs x), fun x => k.blobs (h.blobs x), fun x => k.dram (h.dram x), h.out.trans k.out,
    h.free.trans k.free⟩

theorem Kept.upd {a t : State} (hq : Hq) (time : Time) (halo : Halo) (jnl : Jnl) (toa : Toa) (scarab : Scarab) (web : Web) (ffy : Firefly)
    (lcw : Lacewing) (heads : Tab HeadDev) (headSides : Tab HeadSide) (lanes : Tab LaneSt) (cams : Tab Cam) (nim : Nim) (cal : Cal) (twin : Twin)
    (axes : Tab AxisSt) (loops : Tab LoopSt) (io : Io) (dramSt : DramSt) (str : Stratus) (pwr : Power) (cic : Cicada) :
    Kept a ⟨t.pending, t.objs, t.blobs, t.out, t.free, hq, time, halo, jnl, toa, scarab, web, ffy, lcw, heads, headSides, lanes, cams, nim, cal, t.dram,
      twin, axes, loops, io, dramSt, str, pwr, cic⟩ ↔ Kept a t := ⟨fun h => ⟨h.1, h.2, h.3, h.4, h.5, h.6⟩, fun h => ⟨h.1, h.2, h.3, h.4, h.5, h.6⟩⟩

theorem Kept.ite {a x y : State} {c : Prop} [Decidable c] (h1 : Kept a y) (h2 : Kept a y → Kept a x) : Kept a (if c then x else y) := by
  split
  · exact h2 h1
  · exact h1

theorem Kept.iteOf {σ : Type} {a : State} {x y : σ} {c : Prop} [Decidable c] (π : σ → State) (h1 : Kept a (π y)) (h2 : Kept a (π x)) :
    Kept a (π (if c then x else y)) := by
  split
  · exact h2
  · exact h1

/-- Entries that the object store, its tables or DRAM lose leave their forms as they are. -/
theorem Kept.filter {a t u : State} (h : Kept a t) (p : Nat × Int → Bool) (q r : Host.Cell → Bool) (h1 : u.pending = t.pending)
    (h2 : u.objs = t.objs.filter p) (h3 : u.blobs = t.blobs.filter q) (h4 : u.dram = t.dram.filter r) (h5 : u.out = t.out)
    (h6 : t.free ≤ u.free) : Kept a u :=
  ⟨h1.trans h.1, fun x => h2 ▸ Tab.wf_filter _ _ _ (h.2 x), fun x => h3 ▸ List.Pairwise.filter _ (h.3 x),
    fun x => h4 ▸ Tab.wf_filter _ _ _ (h.4 x), h5 ▸ h.5, h.6.trans h6⟩

/-- A fold whose every step keeps the state that an accumulator carries. -/
theorem Kept.foldOf {σ β : Type} {a : State} {s : σ} {f : σ → β → σ} (π : σ → State) (hf : ∀ s x, Kept a (π s) → Kept a (π (f s x)))
    (h : Kept a (π s)) (l : List β) : Kept a (π (l.foldl f s)) := by
  induction l generalizing s with
  | nil => exact h
  | cons x t ih => exact ih (hf _ _ h)

theorem Kept.fold {β : Type} {a s : State} {f : State → β → State} (hf : ∀ s x, Kept a s → Kept a (f s x)) (h : Kept a s) (l : List β) :
    Kept a (l.foldl f s) := Kept.foldOf id hf h l

theorem Tab.rising_set {α : Type} [DecidableEq α] (d : α) (t : Tab α) (k : Nat) (v : α) (h : Tab.rising t) : Tab.rising (Tab.set d t k v) := by
  unfold Tab.set
  have he : Tab.rising (Tab.erase k t) := by rw [Tab.erase_eq_filter]; exact List.Pairwise.filter _ h
  split
  · exact he
  · exact Tab.insert_sorted _ _ _ he (Tab.erase_ne t k)

theorem State.setObj_kept {a s : State} (h : Kept a s) (k : Nat) (v : Int) : Kept a (s.setObj k v) :=
  ⟨h.1, fun x => Tab.wf_set _ _ _ _ (h.2 x), h.3, h.4, h.5, h.6⟩

theorem State.setByte_kept {a s : State} (h : Kept a s) (k o : Nat) (v : Byte) : Kept a (s.setByte k o v) :=
  ⟨h.1, h.2, fun x => Tab.rising_set _ _ _ _ (h.3 x), h.4, h.5, h.6⟩

theorem State.emit_kept {a s : State} (h : Kept a s) (o : Out) : Kept a (s.emit o) :=
  ⟨h.1, h.2, h.3, h.4, h.5.trans (List.suffix_cons _ _), h.6⟩

theorem State.dramSet_kept {a s : State} (h : Kept a s) (x : Nat) (v : Byte) : Kept a (s.dramSet x v) :=
  ⟨h.1, h.2, h.3, fun y => Tab.wf_set (fun _ => dramEmpty) _ _ _ (h.4 y), h.5, h.6⟩

theorem Kept.drawn {a s : State} (h : Kept a s) (n : Nat) (hn : s.free ≤ n) : Kept a { s with free := n } :=
  ⟨h.1, h.2, h.3, h.4, h.5, h.6.trans hn⟩

theorem Kept.sent {a s : State} (h : Kept a s) (l : List Out) : Kept a { s with out := l ++ s.out } :=
  ⟨h.1, h.2, h.3, h.4, h.5.trans (List.suffix_append _ _), h.6⟩

theorem State.draw_kept {a s : State} (h : Kept a s) (n : Nat) : Kept a (s.draw n).2 := h.drawn _ (Nat.le_succ _)
theorem State.drawNat_kept {a s : State} (h : Kept a s) : Kept a s.drawNat.2 := h.drawn _ (Nat.le_succ _)
theorem State.drawInt_kept {a s : State} (h : Kept a s) : Kept a s.drawInt.2 := h.drawn _ (Nat.le_succ _)

end Sys2Proof.Machine
end

