-- ==== Sys2Proof/Laws/KeptPrint.lean ====
section
/-! SUPPORT. What every operation of the block keeps (`Kept`), one lemma per operation in the order of the model's files,
first half. -/

set_option linter.unusedTactic false
set_option linter.unreachableTactic false
set_option linter.unusedSimpArgs false

namespace Sys2Proof.Machine

theorem State.setBit_kept {a s} (h : Kept a s) (k) (i) (b) : Kept a (State.setBit s k i b) := by
  unfold State.setBit; try dsimp only
  repeat' (with_reducible first | assumption | apply State.setObj_kept)

theorem State.setBlob_kept {a s} (h : Kept a s) (k) (off) (v3) : Kept a (State.setBlob s k off v3) := by
  induction v3 generalizing s off with
  | nil => exact h
  | cons x t ih => exact ih (State.setByte_kept h k off x) (off + 1)

theorem State.setRing_kept {a s} (h : Kept a s) (q) (r) : Kept a (State.setRing s q r) := by
  unfold State.setRing; try dsimp only
  repeat' (first | (with_reducible first | assumption) | simp only [Kept.upd])

theorem State.msix_kept {a s} (h : Kept a s) (v) : Kept a (State.msix s v) := by
  unfold State.msix; try dsimp only
  repeat' (
    first
    | (with_reducible first
       | assumption | apply State.emit_kept | refine Kept.ite ?_ (fun _ => ?_))
    | simp only [Kept.upd]
    | (split <;> try dsimp only))

theorem State.pushRaw_kept {a s} (h : Kept a s) (q) (rec) : Kept a (State.pushRaw s q rec).1 := by
  unfold State.pushRaw; try dsimp only
  repeat' (
    first
    | (with_reducible first
       | assumption | apply State.setRing_kept | refine Kept.ite ?_ (fun _ => ?_) | refine Kept.iteOf Prod.fst ?_ ?_)
    | simp only [Kept.upd]
    | (split <;> try dsimp only))

theorem State.counterOvf_kept {a s} (h : Kept a s) (idx) (sub) (elem) (kind) (ringNo) (off) : Kept a
    (State.counterOvf s idx sub elem kind ringNo off) := by
  unfold State.counterOvf; try dsimp only
  repeat' (with_reducible first | assumption | apply State.pushRaw_kept)

theorem State.push_kept {a s} (h : Kept a s) (q) (rec) : Kept a (State.push s q rec) := by
  unfold State.push; try dsimp only
  repeat' (
    first
    | (with_reducible first
       | assumption | apply State.pushRaw_kept | apply State.counterOvf_kept | refine Kept.ite ?_ (fun _ => ?_))
    | (split <;> try dsimp only))

theorem State.event_kept {a s} (h : Kept a s) (q) (code) (args) : Kept a (State.event s q code args) := by
  unfold State.event; try dsimp only
  repeat' (with_reducible first | assumption | apply State.push_kept)

theorem State.setOvf_kept {a s} (h : Kept a s) (k) (elem) : Kept a (State.setOvf s k elem) := by
  unfold State.setOvf; try dsimp only
  repeat' (
    first
    | (with_reducible first
       | assumption | apply State.setBit_kept | refine Kept.ite ?_ (fun _ => ?_))
    | simp only [Kept.upd]
    | (split <;> try dsimp only))

theorem State.clearOvf_kept {a s} (h : Kept a s) (k) (elem) : Kept a (State.clearOvf s k elem) := by
  unfold State.clearOvf; try dsimp only
  repeat' (
    first
    | (with_reducible first
       | assumption | apply State.setBit_kept | refine Kept.ite ?_ (fun _ => ?_))
    | simp only [Kept.upd]
    | (split <;> try dsimp only))

theorem State.count_kept {a s} (h : Kept a s) (k) (n) : Kept a (State.count s k n) := by
  unfold State.count; try dsimp only
  repeat' (
    first
    | (with_reducible first
       | assumption | apply State.setObj_kept | apply State.counterOvf_kept | apply State.setOvf_kept
       | refine Kept.ite ?_ (fun _ => ?_))
    | simp only [Kept.upd]
    | (split <;> try dsimp only))

theorem State.countElem_kept {a s} (h : Kept a s) (k) (e) (w) (bits) (n) : Kept a (State.countElem s k e w bits n) := by
  unfold State.countElem; try dsimp only
  repeat' (
    first
    | (with_reducible first
       | assumption | apply State.setBlob_kept | apply State.counterOvf_kept | apply State.setOvf_kept
       | refine Kept.ite ?_ (fun _ => ?_))
    | (split <;> try dsimp only))

theorem State.clearCounter_kept {a s} (h : Kept a s) (k) : Kept a (State.clearCounter s k) := by
  unfold State.clearCounter; try dsimp only
  repeat' (with_reducible first | assumption | apply State.clearOvf_kept | apply State.setObj_kept)

theorem State.countBadAccess_kept {a s} (h : Kept a s) : Kept a (State.countBadAccess s) := by
  unfold State.countBadAccess; try dsimp only
  repeat' (
    first
    | (with_reducible first
       | assumption | apply State.counterOvf_kept | refine Kept.ite ?_ (fun _ => ?_))
    | simp only [Kept.upd]
    | (split <;> try dsimp only))

theorem State.countDescReject_kept {a s} (h : Kept a s) : Kept a (State.countDescReject s) := by
  unfold State.countDescReject; try dsimp only
  repeat' (
    first
    | (with_reducible first
       | assumption | apply State.counterOvf_kept | refine Kept.ite ?_ (fun _ => ?_))
    | simp only [Kept.upd]
    | (split <;> try dsimp only))

theorem State.jnlStore_kept {a s} (h : Kept a s) (kind) (body) : Kept a (State.jnlStore s kind body) := by
  unfold State.jnlStore; try dsimp only
  repeat' (first | (with_reducible first | assumption) | simp only [Kept.upd])

theorem State.journal_kept {a s} (h : Kept a s) (kind) (body) : Kept a (State.journal s kind body) := by
  unfold State.journal; try dsimp only
  repeat' (
    first
    | (with_reducible first
       | assumption | apply State.jnlStore_kept | apply State.count_kept | refine Kept.ite ?_ (fun _ => ?_))
    | simp only [Kept.upd]
    | (split <;> try dsimp only))

theorem State.eventJ_kept {a s} (h : Kept a s) (q) (code) (kind) (args) : Kept a (State.eventJ s q code kind args) := by
  unfold State.eventJ; try dsimp only
  repeat' (with_reducible first | assumption | apply State.journal_kept | apply State.push_kept)

theorem State.mapJob_kept {a s} (h : Kept a s) (id) (f) : Kept a (State.mapJob s id f) := by
  unfold State.mapJob; try dsimp only
  repeat' (
    first
    | (with_reducible first
       | assumption | refine Kept.ite ?_ (fun _ => ?_))
    | simp only [Kept.upd]
    | (split <;> try dsimp only))

theorem State.markJob_kept {a s} (h : Kept a s) (id) (m) : Kept a (State.markJob s id m) := by
  unfold State.markJob; try dsimp only
  repeat' (first | (with_reducible first | assumption | apply State.mapJob_kept) | simp only [Kept.upd])

theorem State.setDomain_kept {a s} (h : Kept a s) (d) (v) : Kept a (State.setDomain s d v) := by
  unfold State.setDomain; try dsimp only
  repeat' (
    first
    | (with_reducible first
       | assumption | apply State.setObj_kept | refine Kept.ite ?_ (fun _ => ?_))
    | (split <;> try dsimp only))

theorem State.powerReached_kept {a s} (h : Kept a s) (new) (cause) : Kept a (State.powerReached s new cause) := by
  unfold State.powerReached; try dsimp only
  repeat' (
    with_reducible first
    | assumption
    | apply State.setBit_kept
    | apply State.setObj_kept
    | apply State.count_kept
    | apply State.event_kept)

theorem State.readyReturn_kept {a s} (h : Kept a s) : Kept a (State.readyReturn s) := by
  unfold State.readyReturn; try dsimp only
  repeat' (
    first
    | (with_reducible first
       | assumption | apply State.powerReached_kept | apply State.setDomain_kept | refine Kept.ite ?_ (fun _ => ?_))
    | (split <;> try dsimp only))

theorem State.setHeadDev_kept {a s} (h : Kept a s) (h') (d) : Kept a (State.setHeadDev s h' d) := by
  unfold State.setHeadDev; try dsimp only
  repeat' (first | (with_reducible first | assumption) | simp only [Kept.upd])

theorem State.setDeparted_kept {a s} (h : Kept a s) (b) (l) : Kept a (State.setDeparted s b l) := by
  unfold State.setDeparted; try dsimp only
  repeat' (first | (with_reducible first | assumption) | simp only [Kept.upd])

theorem State.resendBar_kept {a s} (h : Kept a s) (force) (b) : Kept a (State.resendBar s force b) := by
  unfold State.resendBar
  refine State.count_kept (State.count_kept ?_ _ _) _ _
  exact (State.setDeparted_kept h b _).sent _

theorem State.resendAll_kept {a s} (h : Kept a s) (force) : Kept a (State.resendAll s force) := by
  unfold State.resendAll; try dsimp only
  repeat' (
    first
    | (with_reducible first
       | assumption | apply State.resendBar_kept | apply Kept.fold | apply Kept.foldOf Prod.fst)
    | (intro _; try dsimp only))

theorem State.enterHold_kept {a s} (h : Kept a s) (force) : Kept a (State.enterHold s force) := by
  unfold State.enterHold; try dsimp only
  repeat' (
    first
    | (with_reducible first
       | assumption | apply State.resendAll_kept | refine Kept.ite ?_ (fun _ => ?_))
    | simp only [Kept.upd]
    | (split <;> try dsimp only))

theorem State.predict_kept {a s} (h : Kept a s) (h') (t) : Kept a (State.predict s h' t) := by
  unfold State.predict; try dsimp only
  repeat' (first | (with_reducible first | assumption) | simp only [Kept.upd])

theorem State.markInFlight_kept {a s} (h : Kept a s) : Kept a (State.markInFlight s) := by
  unfold State.markInFlight; try dsimp only
  repeat' (
    first
    | (with_reducible first
       | assumption | refine Kept.ite ?_ (fun _ => ?_))
    | simp only [Kept.upd]
    | (split <;> try dsimp only))

theorem State.suspend_kept {a s} (h : Kept a s) (safety) : Kept a (State.suspend s safety) := by
  unfold State.suspend; try dsimp only
  repeat' (
    first
    | (with_reducible first
       | assumption | apply State.markInFlight_kept | apply State.enterHold_kept)
    | simp only [Kept.upd])

theorem State.twinSend_kept {a s} (h : Kept a s) (i) : Kept a (State.twinSend s i) := by
  unfold State.twinSend; try dsimp only
  repeat' (
    first
    | (with_reducible first
       | assumption | apply State.emit_kept | refine Kept.ite ?_ (fun _ => ?_))
    | simp only [Kept.upd]
    | (split <;> try dsimp only))

theorem State.forward_kept {a s} (h : Kept a s) (i) : Kept a (State.forward s i) := by
  unfold State.forward; try dsimp only
  repeat' (
    first
    | (with_reducible first
       | assumption | apply State.twinSend_kept | refine Kept.ite ?_ (fun _ => ?_))
    | (split <;> try dsimp only))

theorem State.setTwinState_kept {a s} (h : Kept a s) (st) (cause) : Kept a (State.setTwinState s st cause) := by
  unfold State.setTwinState; try dsimp only
  repeat' (
    first
    | (with_reducible first
       | assumption | apply State.setObj_kept | apply State.eventJ_kept | apply State.twinSend_kept
       | refine Kept.ite ?_ (fun _ => ?_))
    | (split <;> try dsimp only))

theorem State.twinFault_kept {a s} (h : Kept a s) (cls) : Kept a (State.twinFault s cls) := by
  unfold State.twinFault; try dsimp only
  repeat' (
    first
    | (with_reducible first
       | assumption | apply State.twinSend_kept | apply State.setTwinState_kept | refine Kept.ite ?_ (fun _ => ?_))
    | simp only [Kept.upd]
    | (split <;> try dsimp only))

theorem State.syncLost_kept {a s} (h : Kept a s) (b) (job) : Kept a (State.syncLost s b job) := by
  unfold State.syncLost; try dsimp only
  repeat' (
    first
    | (with_reducible first
       | assumption | apply State.setTwinState_kept | apply State.event_kept | refine Kept.ite ?_ (fun _ => ?_))
    | (split <;> try dsimp only))

theorem State.summaryCheck_kept {a s} (h : Kept a s) (job) (b) : Kept a (State.summaryCheck s job b) := by
  unfold State.summaryCheck; try dsimp only
  repeat' (
    first
    | (with_reducible first
       | assumption | apply State.syncLost_kept | refine Kept.ite ?_ (fun _ => ?_))
    | simp only [Kept.upd]
    | (split <;> try dsimp only))

theorem State.twinLaneDown_kept {a s} (h : Kept a s) (l) : Kept a (State.twinLaneDown s l) := by
  unfold State.twinLaneDown; try dsimp only
  repeat' (
    first
    | (with_reducible first
       | assumption | apply State.setBit_kept | apply State.setObj_kept | apply State.event_kept
       | refine Kept.ite ?_ (fun _ => ?_))
    | simp only [Kept.upd]
    | (split <;> try dsimp only))

theorem State.setAx_kept {a s} (h : Kept a s) (x) (f) : Kept a (State.setAx s x f) := by
  unfold State.setAx; try dsimp only
  repeat' (first | (with_reducible first | assumption) | simp only [Kept.upd])

theorem State.setAxBit_kept {a s} (h : Kept a s) (x) (i) (b) : Kept a (State.setAxBit s x i b) := by
  unfold State.setAxBit; try dsimp only
  repeat' (with_reducible first | assumption | apply State.setBit_kept)

theorem State.moveEnd_kept {a s} (h : Kept a s) (x) (aborted) : Kept a (State.moveEnd s x aborted) := by
  unfold State.moveEnd; try dsimp only
  repeat' (
    first
    | (with_reducible first
       | assumption | apply State.setAx_kept | apply State.setObj_kept | apply State.event_kept
       | refine Kept.ite ?_ (fun _ => ?_))
    | simp only [Kept.upd]
    | (split <;> try dsimp only))

theorem State.axDisable_kept {a s} (h : Kept a s) (x) : Kept a (State.axDisable s x) := by
  unfold State.axDisable; try dsimp only
  repeat' (
    first
    | (with_reducible first
       | assumption | apply State.setObj_kept | apply State.setAxBit_kept | apply State.setAx_kept)
    | simp only [Kept.upd])

theorem State.stoAxis_kept {a s} (h : Kept a s) (x) : Kept a (State.stoAxis s x) := by
  unfold State.stoAxis; try dsimp only
  repeat' (
    first
    | (with_reducible first
       | assumption | apply State.axDisable_kept | apply State.setAx_kept | apply State.setObj_kept
       | apply State.setAxBit_kept | apply State.moveEnd_kept | refine Kept.ite ?_ (fun _ => ?_))
    | (split <;> try dsimp only))

theorem State.setFaults_kept {a s} (h : Kept a s) (l) : Kept a (State.setFaults s l) := by
  unfold State.setFaults; try dsimp only
  repeat' (first | (with_reducible first | assumption) | simp only [Kept.upd])

theorem State.capture_kept {a s} (h : Kept a s) (cls) (code) (a') : Kept a (State.capture s cls code a') := by
  unfold State.capture; try dsimp only
  repeat' (
    first
    | (with_reducible first
       | assumption | refine Kept.ite ?_ (fun _ => ?_))
    | simp only [Kept.upd]
    | (split <;> try dsimp only))

theorem State.alertStart_kept {a s} (h : Kept a s) : Kept a (State.alertStart s) := by
  unfold State.alertStart; try dsimp only
  repeat' (first | (with_reducible first | assumption | apply State.count_kept) | simp only [Kept.upd])

theorem State.alert_kept {a s} (h : Kept a s) : Kept a (State.alert s) := by
  unfold State.alert; try dsimp only
  repeat' (
    first
    | (with_reducible first
       | assumption | apply State.alertStart_kept | refine Kept.ite ?_ (fun _ => ?_))
    | simp only [Kept.upd]
    | (split <;> try dsimp only))

theorem State.react_kept {a s} (h : Kept a s) (code) (inst) : Kept a (State.react s code inst) := by
  unfold State.react; try dsimp only
  repeat' (
    first
    | (with_reducible first
       | assumption | apply State.stoAxis_kept | apply State.suspend_kept | apply State.markJob_kept
       | refine Kept.ite ?_ (fun _ => ?_) | apply Kept.fold | apply Kept.foldOf Prod.fst)
    | simp only [Kept.upd]
    | (intro _; try dsimp only)
    | (split <;> try dsimp only))

theorem State.latch_kept {a s} (h : Kept a s) (code) (cls) (inst) (detail) (cond) (injected) (acc) : Kept a
    (State.latch s code cls inst detail cond injected acc) := by
  unfold State.latch; try dsimp only
  repeat' (
    first
    | (with_reducible first
       | assumption | apply State.setFaults_kept | apply State.capture_kept | apply State.count_kept | apply State.push_kept
       | apply State.journal_kept | apply State.alert_kept | apply State.react_kept | apply State.twinFault_kept
       | refine Kept.ite ?_ (fun _ => ?_))
    | simp only [Kept.upd]
    | (split <;> try dsimp only))

theorem State.condEnd_kept {a s} (h : Kept a s) (code) (inst) : Kept a (State.condEnd s code inst) := by
  unfold State.condEnd; try dsimp only
  repeat' (
    first
    | (with_reducible first
       | assumption | apply State.setFaults_kept | refine Kept.ite ?_ (fun _ => ?_))
    | simp only [Kept.upd]
    | (split <;> try dsimp only))

theorem State.clearOne_kept {a s} (h : Kept a s) (code) (inst) (sess) : Kept a (State.clearOne s code inst sess) := by
  unfold State.clearOne; try dsimp only
  repeat' (
    first
    | (with_reducible first
       | assumption | apply State.setFaults_kept | apply State.push_kept | apply State.journal_kept
       | refine Kept.ite ?_ (fun _ => ?_))
    | (split <;> try dsimp only))

theorem State.fltClear_kept {a s} (h : Kept a s) (v) (sess) (super) : Kept a (State.fltClear s v sess super).1 := by
  unfold State.fltClear; try dsimp only
  repeat' (
    first
    | (with_reducible first
       | assumption | apply State.clearOne_kept | refine Kept.ite ?_ (fun _ => ?_) | refine Kept.iteOf Prod.fst ?_ ?_
       | apply Kept.fold | apply Kept.foldOf Prod.fst)
    | (intro _; try dsimp only)
    | (split <;> try dsimp only))

theorem State.offAccess_kept {a s} (h : Kept a s) (d) (a') : Kept a (State.offAccess s d a') := by
  unfold State.offAccess; try dsimp only
  repeat' (with_reducible first | assumption | apply State.latch_kept | apply State.count_kept)

theorem State.ringError_kept {a s} (h : Kept a s) (q) (code) (ptr) : Kept a (State.ringError s q code ptr) := by
  unfold State.ringError; try dsimp only
  repeat' (with_reducible first | assumption | apply State.event_kept)

theorem State.stopRing_kept {a s} (h : Kept a s) (q) (code) (ptr) : Kept a (State.stopRing s q code ptr) := by
  unfold State.stopRing; try dsimp only
  repeat' (
    first
    | (with_reducible first
       | assumption | apply State.ringError_kept | apply State.setRing_kept)
    | simp only [Kept.upd])

theorem State.psnWatch_kept {a s} (h : Kept a s) : Kept a (State.psnWatch s) := by
  unfold State.psnWatch; try dsimp only
  repeat' (
    first
    | (with_reducible first
       | assumption | refine Kept.ite ?_ (fun _ => ?_))
    | simp only [Kept.upd]
    | (split <;> try dsimp only))

theorem State.jnlRelease_kept {a s} (h : Kept a s) : Kept a (State.jnlRelease s) := by
  unfold State.jnlRelease; try dsimp only
  repeat' (
    first
    | (with_reducible first
       | assumption | refine Kept.ite ?_ (fun _ => ?_))
    | simp only [Kept.upd]
    | (split <;> try dsimp only))

theorem State.ringEnable_kept {a s} (h : Kept a s) (q) (cfg) : Kept a (State.ringEnable s q cfg) := by
  unfold State.ringEnable; try dsimp only
  repeat' (
    first
    | (with_reducible first
       | assumption | apply State.setRing_kept | apply State.psnWatch_kept | apply State.stopRing_kept
       | refine Kept.ite ?_ (fun _ => ?_))
    | simp only [Kept.upd]
    | (split <;> try dsimp only))

theorem State.ringDisable_kept {a s} (h : Kept a s) (q) (cfg) : Kept a (State.ringDisable s q cfg) := by
  unfold State.ringDisable; try dsimp only
  repeat' (
    first
    | (with_reducible first
       | assumption | apply State.psnWatch_kept | apply State.setRing_kept | refine Kept.ite ?_ (fun _ => ?_)
       | apply Kept.fold | apply Kept.foldOf Prod.fst)
    | simp only [Kept.upd]
    | (intro _; try dsimp only)
    | (split <;> try dsimp only))

theorem State.writeCfg_kept {a s} (h : Kept a s) (q) (cfg) : Kept a (State.writeCfg s q cfg) := by
  unfold State.writeCfg; try dsimp only
  repeat' (
    first
    | (with_reducible first
       | assumption | apply State.ringEnable_kept | apply State.ringDisable_kept | refine Kept.ite ?_ (fun _ => ?_))
    | (split <;> try dsimp only))

theorem State.doorbell_kept {a s} (h : Kept a s) (q) (d) : Kept a (State.doorbell s q d) := by
  unfold State.doorbell; try dsimp only
  repeat' (
    first
    | (with_reducible first
       | assumption | apply State.jnlRelease_kept | apply State.setRing_kept | apply State.stopRing_kept
       | refine Kept.ite ?_ (fun _ => ?_))
    | simp only [Kept.upd]
    | (split <;> try dsimp only))

theorem State.onBar_kept {a} {s} {f} (h : Kept a s) (h1 : ∀ y0, Kept a y0 → Kept a (f y0)) (d) (addr) (rd) : Kept a
    (State.onBar s d addr rd f) := by
  unfold State.onBar; try dsimp only
  repeat' (
    first
    | (with_reducible first
       | assumption | apply h1 | apply State.offAccess_kept | apply State.emit_kept | refine Kept.ite ?_ (fun _ => ?_))
    | (split <;> try dsimp only))

theorem State.writeRcb_kept {a s} (h : Kept a s) (q) (off) (v) : Kept a (State.writeRcb s q off v) := by
  unfold State.writeRcb; try dsimp only
  repeat' (
    first
    | (with_reducible first
       | assumption | apply State.setRing_kept | apply State.writeCfg_kept | refine Kept.ite ?_ (fun _ => ?_))
    | simp only [Kept.upd]
    | (split <;> try dsimp only))

theorem State.writeMsix_kept {a s} (h : Kept a s) (word) (v) : Kept a (State.writeMsix s word v) := by
  unfold State.writeMsix; try dsimp only
  repeat' (
    first
    | (with_reducible first
       | assumption | apply State.emit_kept | refine Kept.ite ?_ (fun _ => ?_))
    | simp only [Kept.upd]
    | (split <;> try dsimp only))

theorem State.writeBar0w_kept {a s} (h : Kept a s) (off) (v) : Kept a (State.writeBar0w s off v) := by
  unfold State.writeBar0w; try dsimp only
  repeat' (
    first
    | (with_reducible first
       | assumption | apply State.writeRcb_kept | apply State.doorbell_kept | apply State.writeMsix_kept
       | refine Kept.ite ?_ (fun _ => ?_))
    | simp only [Kept.upd]
    | (split <;> try dsimp only))

theorem State.bar0Bad_kept {a s} (h : Kept a s) (isRead) (off) (size) : Kept a (State.bar0Bad s isRead off size) := by
  unfold State.bar0Bad; try dsimp only
  repeat' (
    first
    | (with_reducible first
       | assumption | apply State.countBadAccess_kept | apply State.emit_kept | refine Kept.ite ?_ (fun _ => ?_))
    | (split <;> try dsimp only))

theorem State.consume_kept {a s} (h : Kept a s) (q) : Kept a (State.consume s q) := by
  unfold State.consume; try dsimp only
  repeat' (
    first
    | (with_reducible first
       | assumption | apply State.psnWatch_kept | apply State.emit_kept | apply State.setRing_kept)
    | simp only [Kept.upd])

theorem State.descReject_kept {a s} (h : Kept a s) (q) (why) : Kept a (State.descReject s q why) := by
  unfold State.descReject; try dsimp only
  repeat' (with_reducible first | assumption | apply State.event_kept | apply State.countDescReject_kept | apply State.consume_kept)

theorem State.fetchDesc_kept {a s} (h : Kept a s) (q) (data) : Kept a (State.fetchDesc s q data) := by
  unfold State.fetchDesc; try dsimp only
  repeat' (
    first
    | (with_reducible first
       | assumption | apply State.stopRing_kept | apply State.descReject_kept | apply State.psnWatch_kept
       | apply State.setRing_kept | refine Kept.ite ?_ (fun _ => ?_))
    | simp only [Kept.upd]
    | (split <;> try dsimp only))

theorem State.complete_kept {a s} (h : Kept a s) (cls) (rec0) : Kept a (State.complete s cls rec0) := by
  unfold State.complete; try dsimp only
  repeat' (with_reducible first | assumption | apply State.push_kept)

theorem State.baseDone_kept {a s} (h : Kept a s) (cls) (status) (reason) (id) : Kept a (State.baseDone s cls status reason id) := by
  unfold State.baseDone; try dsimp only
  repeat' (with_reducible first | assumption | apply State.complete_kept)

theorem flushAccept_kept {a s} (h : Kept a s) (v1) : Kept a (flushAccept s v1) := by
  induction v1 generalizing s with
  | nil => exact Kept.upd .. |>.mpr h
  | cons e t ih =>
    unfold flushAccept; try dsimp only
    repeat' (
      first
      | (with_reducible first
         | assumption | apply ih | apply State.complete_kept | refine Kept.ite ?_ (fun _ => ?_))
      | simp only [Kept.upd]
      | (split <;> try dsimp only))

theorem State.decideAccept_kept {a s} (h : Kept a s) (id) (rec?) : Kept a (State.decideAccept s id rec?) := by
  unfold State.decideAccept; try dsimp only
  repeat' (
    first
    | (with_reducible first
       | assumption | apply flushAccept_kept | refine Kept.ite ?_ (fun _ => ?_))
    | simp only [Kept.upd]
    | (split <;> try dsimp only))

theorem State.mapStream_kept {a s} (h : Kept a s) (isBase) (id) (b) (f) : Kept a (State.mapStream s isBase id b f) := by
  unfold State.mapStream; try dsimp only
  repeat' (
    first
    | (with_reducible first
       | assumption | refine Kept.ite ?_ (fun _ => ?_))
    | simp only [Kept.upd]
    | (split <;> try dsimp only))

theorem State.dropStreams_kept {a s} (h : Kept a s) (isBase) (id) : Kept a (State.dropStreams s isBase id) := by
  unfold State.dropStreams; try dsimp only
  repeat' (first | (with_reducible first | assumption) | simp only [Kept.upd])

theorem State.rejectJob_kept {a s} (h : Kept a s) (j) (reason) : Kept a (State.rejectJob s j reason) := by
  unfold State.rejectJob; try dsimp only
  repeat' (
    first
    | (with_reducible first
       | assumption | apply State.dropStreams_kept | apply State.psnWatch_kept | apply State.decideAccept_kept)
    | simp only [Kept.upd])

theorem State.rejectBase_kept {a s} (h : Kept a s) (x) (reason) : Kept a (State.rejectBase s x reason) := by
  unfold State.rejectBase; try dsimp only
  repeat' (
    first
    | (with_reducible first
       | assumption | apply State.dropStreams_kept | apply State.baseDone_kept)
    | simp only [Kept.upd])

theorem State.eat_kept {a s} (h : Kept a s) (q) (d) : Kept a (State.eat q d s) := by
  unfold State.eat; try dsimp only
  repeat' (with_reducible first | assumption | apply State.forward_kept | apply State.consume_kept)

theorem State.takeJob_kept {a} {s} {eat} (h : Kept a s) (h1 : ∀ y0, Kept a y0 → Kept a (eat y0)) (cls) (d) : Kept a
    (State.takeJob s cls d eat) := by
  unfold State.takeJob; try dsimp only
  repeat' (
    first
    | (with_reducible first
       | assumption | apply h1 | apply State.dropStreams_kept | apply State.complete_kept | apply State.psnWatch_kept
       | apply flushAccept_kept | apply State.rejectJob_kept | refine Kept.ite ?_ (fun _ => ?_))
    | simp only [Kept.upd]
    | (split <;> try dsimp only))

theorem State.consumeJob_kept {a s} (h : Kept a s) (cls) : Kept a (State.consumeJob s cls) := by
  unfold State.consumeJob; try dsimp only
  repeat' (
    first
    | (with_reducible first
       | assumption | apply State.takeJob_kept | apply State.eat_kept)
    | (intro _; try dsimp only)
    | (split <;> try dsimp only))

theorem State.psnWaitEvent_kept {a s} (h : Kept a s) : Kept a (State.psnWaitEvent s) := by
  unfold State.psnWaitEvent; try dsimp only
  repeat' (
    first
    | (with_reducible first
       | assumption | apply State.event_kept | refine Kept.ite ?_ (fun _ => ?_))
    | simp only [Kept.upd]
    | (split <;> try dsimp only))

theorem State.takeBaseRegister_kept {a} {s} {eat} (h : Kept a s) (h1 : ∀ y0, Kept a y0 → Kept a (eat y0)) (cls) (d) : Kept a
    (State.takeBaseRegister s cls d eat) := by
  unfold State.takeBaseRegister; try dsimp only
  repeat' (
    first
    | (with_reducible first
       | assumption | apply h1 | apply State.dropStreams_kept | apply State.baseDone_kept | apply State.rejectBase_kept
       | refine Kept.ite ?_ (fun _ => ?_))
    | simp only [Kept.upd]
    | (split <;> try dsimp only))

theorem State.consumeBaseRegister_kept {a s} (h : Kept a s) (cls) : Kept a (State.consumeBaseRegister s cls) := by
  unfold State.consumeBaseRegister; try dsimp only
  repeat' (
    first
    | (with_reducible first
       | assumption | apply State.takeBaseRegister_kept | apply State.eat_kept)
    | (intro _; try dsimp only)
    | (split <;> try dsimp only))

theorem State.mapBase_kept {a s} (h : Kept a s) (id) (f) : Kept a (State.mapBase s id f) := by
  unfold State.mapBase; try dsimp only
  repeat' (
    first
    | (with_reducible first
       | assumption | refine Kept.ite ?_ (fun _ => ?_))
    | simp only [Kept.upd]
    | (split <;> try dsimp only))

theorem State.takeBaseRetire_kept {a} {s} {eat} (h : Kept a s) (h1 : ∀ y0, Kept a y0 → Kept a (eat y0)) (cls) (d) : Kept a
    (State.takeBaseRetire s cls d eat) := by
  unfold State.takeBaseRetire; try dsimp only
  repeat' (
    first
    | (with_reducible first
       | assumption | apply h1 | apply State.baseDone_kept | apply State.mapBase_kept | refine Kept.ite ?_ (fun _ => ?_))
    | simp only [Kept.upd]
    | (split <;> try dsimp only))

theorem State.consumeBaseRetire_kept {a s} (h : Kept a s) (cls) : Kept a (State.consumeBaseRetire s cls) := by
  unfold State.consumeBaseRetire; try dsimp only
  repeat' (
    first
    | (with_reducible first
       | assumption | apply State.takeBaseRetire_kept | apply State.eat_kept)
    | (intro _; try dsimp only)
    | (split <;> try dsimp only))

theorem State.orphanEvent_kept {a s} (h : Kept a s) (ring) (id) (b) (n) : Kept a (State.orphanEvent s ring id b n) := by
  unfold State.orphanEvent; try dsimp only
  repeat' (with_reducible first | assumption | apply State.event_kept)

theorem State.chunkFail_kept {a s} (h : Kept a s) (isBase) (id) (b) (reason) : Kept a (State.chunkFail s isBase id b reason) := by
  unfold State.chunkFail; try dsimp only
  repeat' (
    first
    | (with_reducible first
       | assumption | apply State.rejectBase_kept | apply State.mapStream_kept | apply State.rejectJob_kept
       | refine Kept.ite ?_ (fun _ => ?_))
    | simp only [Kept.upd]
    | (split <;> try dsimp only))

theorem State.consumeChunk_kept {a s} (h : Kept a s) (b) (data) : Kept a (State.consumeChunk s b data) := by
  unfold State.consumeChunk; try dsimp only
  repeat' (
    first
    | (with_reducible first
       | assumption | apply State.forward_kept | apply State.consume_kept | apply State.orphanEvent_kept
       | apply State.chunkFail_kept | apply State.mapStream_kept | refine Kept.ite ?_ (fun _ => ?_))
    | simp only [Kept.upd]
    | (split <;> try dsimp only))

theorem State.chunkLand_kept {a s} (h : Kept a s) (b) (isBase) (id) : Kept a (State.chunkLand s b isBase id) := by
  unfold State.chunkLand; try dsimp only
  repeat' (
    first
    | (with_reducible first
       | assumption | apply State.forward_kept | apply State.mapStream_kept)
    | (split <;> try dsimp only))

theorem State.chunkExpire_kept {a s} (h : Kept a s) (b) (isBase) (id) : Kept a (State.chunkExpire s b isBase id) := by
  unfold State.chunkExpire; try dsimp only
  repeat' (
    first
    | (with_reducible first
       | assumption | apply State.orphanEvent_kept | refine Kept.ite ?_ (fun _ => ?_))
    | simp only [Kept.upd]
    | (split <;> try dsimp only))

theorem State.acceptJob_kept {a s} (h : Kept a s) (id) : Kept a (State.acceptJob s id) := by
  unfold State.acceptJob; try dsimp only
  repeat' (
    first
    | (with_reducible first
       | assumption | apply State.event_kept | apply State.mapJob_kept | apply State.journal_kept
       | apply State.decideAccept_kept | refine Kept.ite ?_ (fun _ => ?_))
    | simp only [Kept.upd]
    | (split <;> try dsimp only))

theorem State.registerBase_kept {a s} (h : Kept a s) (id) : Kept a (State.registerBase s id) := by
  unfold State.registerBase; try dsimp only
  repeat' (
    first
    | (with_reducible first
       | assumption | apply State.baseDone_kept | apply State.mapBase_kept | apply State.journal_kept
       | refine Kept.ite ?_ (fun _ => ?_))
    | simp only [Kept.upd]
    | (split <;> try dsimp only))

theorem State.freeBase_kept {a s} (h : Kept a s) (id) : Kept a (State.freeBase s id) := by
  unfold State.freeBase; try dsimp only
  repeat' (
    first
    | (with_reducible first
       | assumption | apply State.journal_kept | apply State.dropStreams_kept | apply State.complete_kept
       | refine Kept.ite ?_ (fun _ => ?_))
    | simp only [Kept.upd]
    | (split <;> try dsimp only))

theorem State.forgetPage_kept {a s} (h : Kept a s) (id) : Kept a (State.forgetPage s id) := by
  unfold State.forgetPage; try dsimp only
  repeat' (
    first
    | (with_reducible first
       | assumption | apply Kept.fold | apply Kept.foldOf Prod.fst)
    | simp only [Kept.upd]
    | (intro _; try dsimp only))

theorem State.retireJob_kept {a s} (h : Kept a s) (id) : Kept a (State.retireJob s id) := by
  unfold State.retireJob; try dsimp only
  repeat' (
    first
    | (with_reducible first
       | assumption | apply State.journal_kept | apply State.psnWatch_kept | apply State.complete_kept
       | apply State.forgetPage_kept | apply State.dropStreams_kept | refine Kept.ite ?_ (fun _ => ?_))
    | simp only [Kept.upd]
    | (split <;> try dsimp only))

theorem State.writeRecord_kept {a s} (h : Kept a s) (q) (b) : Kept a (State.writeRecord s q b) := by
  unfold State.writeRecord; try dsimp only
  repeat' (
    first
    | (with_reducible first
       | assumption | apply State.emit_kept | apply State.setRing_kept | apply State.msix_kept | apply State.forward_kept
       | refine Kept.ite ?_ (fun _ => ?_))
    | (split <;> try dsimp only))

theorem State.postRecord_kept {a s} (h : Kept a s) (q) : Kept a (State.postRecord s q) := by
  unfold State.postRecord; try dsimp only
  repeat' (
    first
    | (with_reducible first
       | assumption | apply State.writeRecord_kept | apply State.setRing_kept | refine Kept.ite ?_ (fun _ => ?_))
    | simp only [Kept.upd]
    | (split <;> try dsimp only))

theorem State.irqTimer_kept {a s} (h : Kept a s) (q) : Kept a (State.irqTimer s q) := by
  unfold State.irqTimer; try dsimp only
  repeat' (
    first
    | (with_reducible first
       | assumption | apply State.msix_kept | apply State.setRing_kept | refine Kept.ite ?_ (fun _ => ?_))
    | simp only [Kept.upd]
    | (split <;> try dsimp only))

theorem State.linkDownRing_kept {a s} (h : Kept a s) (q) : Kept a (State.linkDownRing s q) := by
  unfold State.linkDownRing; try dsimp only
  repeat' (
    first
    | (with_reducible first
       | assumption | apply State.setRing_kept | apply State.counterOvf_kept | refine Kept.ite ?_ (fun _ => ?_))
    | (split <;> try dsimp only))

theorem State.linkDown_kept {a s} (h : Kept a s) : Kept a (State.linkDown s) := by
  unfold State.linkDown; try dsimp only
  repeat' (
    first
    | (with_reducible first
       | assumption | apply State.linkDownRing_kept | apply State.rejectJob_kept | apply State.rejectBase_kept
       | refine Kept.ite ?_ (fun _ => ?_) | apply Kept.fold | apply Kept.foldOf Prod.fst)
    | simp only [Kept.upd]
    | (intro _; try dsimp only)
    | (split <;> try dsimp only))

theorem State.linkUpAgain_kept {a s} (h : Kept a s) : Kept a (State.linkUpAgain s) := by
  unfold State.linkUpAgain; try dsimp only
  repeat' (first | (with_reducible first | assumption) | simp only [Kept.upd])

theorem State.writePsn_kept {a s} (h : Kept a s) (v) : Kept a (State.writePsn s v).1 := by
  unfold State.writePsn; try dsimp only
  repeat' (
    first
    | (with_reducible first
       | assumption | apply State.psnWatch_kept | refine Kept.ite ?_ (fun _ => ?_) | refine Kept.iteOf Prod.fst ?_ ?_)
    | simp only [Kept.upd]
    | (split <;> try dsimp only))

theorem State.setFireLane_kept {a s} (h : Kept a s) (b) (l) : Kept a (State.setFireLane s b l) := by
  unfold State.setFireLane; try dsimp only
  repeat' (first | (with_reducible first | assumption) | simp only [Kept.upd])

theorem State.setCheckLane_kept {a s} (h : Kept a s) (b) (l) : Kept a (State.setCheckLane s b l) := by
  unfold State.setCheckLane; try dsimp only
  repeat' (first | (with_reducible first | assumption) | simp only [Kept.upd])

theorem State.norrekError_kept {a s} (h : Kept a s) (j) (b) (e) : Kept a (State.norrekError s j b e) := by
  unfold State.norrekError; try dsimp only
  repeat' (with_reducible first | assumption | apply State.event_kept | apply State.markJob_kept | apply State.count_kept)

theorem State.fireDecode_kept {a s} (h : Kept a s) (b) : Kept a (State.fireDecode s b) := by
  unfold State.fireDecode; try dsimp only
  repeat' (
    first
    | (with_reducible first
       | assumption | apply State.setFireLane_kept | apply State.count_kept | apply State.mapJob_kept
       | apply State.norrekError_kept | refine Kept.ite ?_ (fun _ => ?_) | apply Kept.fold | apply Kept.foldOf Prod.fst)
    | simp only [Kept.upd]
    | (intro _; try dsimp only)
    | (split <;> try dsimp only))

theorem State.fireSummary_kept {a s} (h : Kept a s) (j) (b) (l) : Kept a (State.fireSummary s j b l) := by
  unfold State.fireSummary; try dsimp only
  repeat' (first | (with_reducible first | assumption | apply State.mapJob_kept) | simp only [Kept.upd])

theorem State.dropLead_kept {a s} (h : Kept a s) (id) : Kept a (State.dropLead s id) := by
  unfold State.dropLead; try dsimp only
  repeat' (
    first
    | (with_reducible first
       | assumption | apply State.setFireLane_kept | apply Kept.fold | apply Kept.foldOf Prod.fst)
    | simp only [Kept.upd]
    | (intro _; try dsimp only))

theorem State.compareSummaries_kept {a s} (h : Kept a s) (id) (b) : Kept a (State.compareSummaries s id b) := by
  unfold State.compareSummaries; try dsimp only
  repeat' (
    first
    | (with_reducible first
       | assumption | apply State.event_kept | apply State.count_kept | apply State.mapJob_kept | apply State.latch_kept
       | refine Kept.ite ?_ (fun _ => ?_))
    | simp only [Kept.upd]
    | (split <;> try dsimp only))

theorem State.checkLaneLine_kept {a s} (h : Kept a s) (j) (l) (b) : Kept a (State.checkLaneLine s j l b) := by
  unfold State.checkLaneLine; try dsimp only
  repeat' (
    first
    | (with_reducible first
       | assumption | apply State.setCheckLane_kept | apply State.count_kept | apply State.mapJob_kept
       | apply State.compareSummaries_kept | refine Kept.ite ?_ (fun _ => ?_))
    | simp only [Kept.upd]
    | (split <;> try dsimp only))

theorem State.deliverCheck_kept {a s} (h : Kept a s) (j) (late) : Kept a (State.deliverCheck s j late) := by
  unfold State.deliverCheck; try dsimp only
  repeat' (
    first
    | (with_reducible first
       | assumption | apply State.checkLaneLine_kept | apply State.mapJob_kept | refine Kept.ite ?_ (fun _ => ?_)
       | apply Kept.fold | apply Kept.foldOf Prod.fst)
    | simp only [Kept.upd]
    | (intro _; try dsimp only)
    | (split <;> try dsimp only))

theorem State.checkDecode_kept {a s} (h : Kept a s) : Kept a (State.checkDecode s) := by
  unfold State.checkDecode; try dsimp only
  repeat' (
    first
    | (with_reducible first
       | assumption | apply State.deliverCheck_kept | refine Kept.ite ?_ (fun _ => ?_))
    | (split <;> try dsimp only))

theorem State.checkIsLate_kept {a s} (h : Kept a s) : Kept a (State.checkIsLate s) := by
  unfold State.checkIsLate; try dsimp only
  repeat' (
    first
    | (with_reducible first
       | assumption | apply State.mapJob_kept | apply State.deliverCheck_kept | apply State.count_kept
       | apply State.event_kept | refine Kept.ite ?_ (fun _ => ?_) | apply Kept.fold | apply Kept.foldOf Prod.fst)
    | simp only [Kept.upd]
    | (intro _; try dsimp only)
    | (split <;> try dsimp only))

theorem State.hlTx_kept {a s} (h : Kept a s) (h') (kind) (body) : Kept a (State.hlTx s h' kind body) := by
  unfold State.hlTx; try dsimp only
  repeat' (with_reducible first | assumption | apply State.emit_kept)

theorem State.ctlSend_kept {a s} (h : Kept a s) (h') (c) : Kept a (State.ctlSend s h' c) := by
  unfold State.ctlSend; try dsimp only
  repeat' (
    first
    | (with_reducible first
       | assumption | apply State.setHeadDev_kept | apply State.hlTx_kept | refine Kept.ite ?_ (fun _ => ?_))
    | simp only [Kept.upd]
    | (split <;> try dsimp only))

theorem State.ctlNext_kept {a s} (h : Kept a s) (h') : Kept a (State.ctlNext s h') := by
  unfold State.ctlNext; try dsimp only
  repeat' (
    first
    | (with_reducible first
       | assumption | apply State.ctlSend_kept | apply State.setHeadDev_kept)
    | simp only [Kept.upd]
    | (split <;> try dsimp only))

theorem State.sendAuth_kept {a s} (h : Kept a s) (h') : Kept a (State.sendAuth s h') := by
  unfold State.sendAuth; try dsimp only
  repeat' (
    first
    | (with_reducible first
       | assumption | apply State.setHeadDev_kept | apply State.hlTx_kept | refine Kept.ite ?_ (fun _ => ?_))
    | simp only [Kept.upd]
    | (split <;> try dsimp only))

theorem State.sendTable_kept {a s} (h : Kept a s) (h') (table) (data) : Kept a (State.sendTable s h' table data) := by
  unfold State.sendTable; try dsimp only
  repeat' (
    first
    | (with_reducible first
       | assumption | apply State.hlTx_kept | apply Kept.fold | apply Kept.foldOf Prod.fst)
    | (intro _; try dsimp only))

theorem State.loadWave_kept {a s} (h : Kept a s) (h') (data) : Kept a (State.loadWave s h' data) := by
  unfold State.loadWave; try dsimp only
  repeat' (
    first
    | (with_reducible first
       | assumption | apply State.sendTable_kept | apply State.setHeadDev_kept)
    | simp only [Kept.upd])

theorem State.loadTrims_kept {a s} (h : Kept a s) (h') (data) : Kept a (State.loadTrims s h' data) := by
  unfold State.loadTrims; try dsimp only
  repeat' (
    first
    | (with_reducible first
       | assumption | apply State.sendTable_kept | apply State.setHeadDev_kept)
    | simp only [Kept.upd])

theorem State.setNozStatus_kept {a s} (h : Kept a s) (h') (n) (st) : Kept a (State.setNozStatus s h' n st) := by
  unfold State.setNozStatus; try dsimp only
  repeat' (with_reducible first | assumption | apply State.setBlob_kept)

theorem State.defectChange_kept {a s} (h : Kept a s) (h') (n) (old) (new) (overruled) (host) (job) (loss) : Kept a
    (State.defectChange s h' n old new overruled host job loss) := by
  unfold State.defectChange; try dsimp only
  repeat' (with_reducible first | assumption | apply State.eventJ_kept)

theorem State.setPair_kept {a s} (h : Kept a s) (h') (c) (p) : Kept a (State.setPair s h' c p) := by
  unfold State.setPair; try dsimp only
  repeat' (first | (with_reducible first | assumption | apply State.forward_kept) | simp only [Kept.upd])

theorem State.countDrops_kept {a s} (h : Kept a s) (b) (v) : Kept a (State.countDrops s b v) := by
  unfold State.countDrops; try dsimp only
  repeat' (
    first
    | (with_reducible first
       | assumption | apply State.setHeadDev_kept | apply Kept.fold | apply Kept.foldOf Prod.fst)
    | simp only [Kept.upd]
    | (intro _; try dsimp only))

theorem State.flushWear_kept {a s} (h : Kept a s) (h') (n) : Kept a (State.flushWear s h' n) := by
  unfold State.flushWear; try dsimp only
  repeat' (
    first
    | (with_reducible first
       | assumption | apply State.counterOvf_kept | refine Kept.ite ?_ (fun _ => ?_))
    | simp only [Kept.upd]
    | (split <;> try dsimp only))

theorem State.clearWear_kept {a s} (h : Kept a s) (h') (first) (count) : Kept a (State.clearWear s h' first count) := by
  unfold State.clearWear; try dsimp only
  repeat' (first | (with_reducible first | assumption) | simp only [Kept.upd])

theorem State.restoreWear_kept {a s} (h : Kept a s) (h') (first) (words) : Kept a (State.restoreWear s h' first words) := by
  unfold State.restoreWear; try dsimp only
  repeat' (
    first
    | (with_reducible first
       | assumption | apply Kept.fold | apply Kept.foldOf Prod.fst)
    | simp only [Kept.upd]
    | (intro _; try dsimp only))

theorem State.deviceStatus_kept {a s} (h : Kept a s) (h') (n) (new) (job) (loss) : Kept a
    (State.deviceStatus s h' n new job loss) := by
  unfold State.deviceStatus; try dsimp only
  repeat' (
    first
    | (with_reducible first
       | assumption | apply State.forward_kept | apply State.defectChange_kept | apply State.setNozStatus_kept
       | refine Kept.ite ?_ (fun _ => ?_))
    | (split <;> try dsimp only))

theorem State.deadDue_kept {a s} (h : Kept a s) (h') (n) (old) (job) (loss) : Kept a (State.deadDue s h' n old job loss) := by
  unfold State.deadDue; try dsimp only
  repeat' (first | (with_reducible first | assumption | apply State.forward_kept) | simp only [Kept.upd])

theorem State.takeDead_kept {a s} (h : Kept a s) (b) (host) : Kept a (State.takeDead s b host) := by
  unfold State.takeDead; try dsimp only
  repeat' (
    first
    | (with_reducible first
       | assumption | apply State.defectChange_kept | apply State.setNozStatus_kept | refine Kept.ite ?_ (fun _ => ?_)
       | apply Kept.fold | apply Kept.foldOf Prod.fst)
    | simp only [Kept.upd]
    | (intro _; try dsimp only)
    | (split <;> try dsimp only))

theorem State.applyParams_kept {a s} (h : Kept a s) (h') (job) (data) : Kept a (State.applyParams s h' job data) := by
  unfold State.applyParams; try dsimp only
  repeat' (
    first
    | (with_reducible first
       | assumption | apply State.setBlob_kept | apply State.setPair_kept | apply State.defectChange_kept
       | refine Kept.ite ?_ (fun _ => ?_) | apply Kept.fold | apply Kept.foldOf Prod.fst)
    | (intro _; try dsimp only)
    | (split <;> try dsimp only))

theorem State.startProbes_kept {a s} (h : Kept a s) (b) (job) : Kept a (State.startProbes s b job) := by
  unfold State.startProbes; try dsimp only
  repeat' (
    first
    | (with_reducible first
       | assumption | refine Kept.ite ?_ (fun _ => ?_) | apply Kept.fold | apply Kept.foldOf Prod.fst)
    | simp only [Kept.upd]
    | (intro _; try dsimp only)
    | (split <;> try dsimp only))

theorem State.fixMethod_kept {a s} (h : Kept a s) (b) (job) : Kept a (State.fixMethod s b job).1 := by
  unfold State.fixMethod; try dsimp only
  repeat' (
    first
    | (with_reducible first
       | assumption | apply State.setObj_kept | apply State.event_kept | refine Kept.ite ?_ (fun _ => ?_)
       | refine Kept.iteOf Prod.fst ?_ ?_)
    | simp only [Kept.upd]
    | (split <;> try dsimp only))

theorem State.crossLine_kept {a s} (h : Kept a s) (b) (job) (line) : Kept a (State.crossLine s b job line) := by
  unfold State.crossLine; try dsimp only
  repeat' (
    first
    | (with_reducible first
       | assumption | apply State.count_kept | apply State.event_kept | refine Kept.ite ?_ (fun _ => ?_))
    | simp only [Kept.upd]
    | (split <;> try dsimp only))

theorem State.buildLine_kept {a s} (h : Kept a s) (b) (job) (line) (method) (dots) (send) : Kept a
    (State.buildLine s b job line method dots send).1 := by
  unfold State.buildLine; try dsimp only
  repeat' (
    first
    | (with_reducible first
       | assumption | apply State.crossLine_kept | apply State.count_kept | apply State.countDrops_kept
       | refine Kept.ite ?_ (fun _ => ?_) | refine Kept.iteOf Prod.fst ?_ ?_)
    | simp only [Kept.upd]
    | (split <;> try dsimp only))

theorem State.setCalBar_kept {a s} (h : Kept a s) (b) (x) : Kept a (State.setCalBar s b x) := by
  unfold State.setCalBar; try dsimp only
  repeat' (first | (with_reducible first | assumption) | simp only [Kept.upd])

theorem State.setCalUnit_kept {a s} (h : Kept a s) (cls) (inst) (x) : Kept a (State.setCalUnit s cls inst x) := by
  unfold State.setCalUnit; try dsimp only
  repeat' (first | (with_reducible first | assumption) | simp only [Kept.upd])

theorem State.setCalState_kept {a s} (h : Kept a s) (cls) (inst) (st) : Kept a (State.setCalState s cls inst st) := by
  unfold State.setCalState; try dsimp only
  repeat' (with_reducible first | assumption | apply State.setObj_kept)

theorem State.calInterrupt_kept {a s} (h : Kept a s) (cls) (inst) : Kept a (State.calInterrupt s cls inst) := by
  unfold State.calInterrupt; try dsimp only
  repeat' (
    first
    | (with_reducible first
       | assumption | apply State.setCalUnit_kept | apply State.setCalState_kept | refine Kept.ite ?_ (fun _ => ?_))
    | simp only [Kept.upd]
    | (split <;> try dsimp only))

theorem State.calApplied_kept {a s} (h : Kept a s) (cls) (inst) (job) (flags) (change) : Kept a
    (State.calApplied s cls inst job flags change) := by
  unfold State.calApplied; try dsimp only
  repeat' (with_reducible first | assumption | apply State.eventJ_kept)

theorem State.stepPhase_kept {a s} (h : Kept a s) (n) : Kept a (State.stepPhase s n) := by
  unfold State.stepPhase; try dsimp only
  repeat' (
    first
    | (with_reducible first
       | assumption | apply State.setObj_kept | apply State.calApplied_kept | apply State.setCalUnit_kept
       | refine Kept.ite ?_ (fun _ => ?_))
    | simp only [Kept.upd]
    | (split <;> try dsimp only))

theorem State.stepBarPhases_kept {a s} (h : Kept a s) (b) : Kept a (State.stepBarPhases s b) := by
  unfold State.stepBarPhases; try dsimp only
  repeat' (
    first
    | (with_reducible first
       | assumption | apply State.stepPhase_kept | apply Kept.fold | apply Kept.foldOf Prod.fst)
    | (intro _; try dsimp only))

theorem State.jumpPhase_kept {a s} (h : Kept a s) (n) : Kept a (State.jumpPhase s n) := by
  unfold State.jumpPhase; try dsimp only
  repeat' (
    first
    | (with_reducible first
       | assumption | apply State.stepPhase_kept | apply Kept.fold | apply Kept.foldOf Prod.fst)
    | (intro _; try dsimp only))

theorem State.propose_kept {a s} (h : Kept a s) (cls) (inst) (value) (job) (loss) : Kept a
    (State.propose s cls inst value job loss) := by
  unfold State.propose; try dsimp only
  repeat' (
    first
    | (with_reducible first
       | assumption | apply State.event_kept | refine Kept.ite ?_ (fun _ => ?_))
    | simp only [Kept.upd]
    | (split <;> try dsimp only))

theorem State.withdraw_kept {a s} (h : Kept a s) (f) : Kept a (State.withdraw s f) := by
  unfold State.withdraw; try dsimp only
  repeat' (first | (with_reducible first | assumption) | simp only [Kept.upd])

theorem State.withdrawNozzle_kept {a s} (h : Kept a s) (h') (n) : Kept a (State.withdrawNozzle s h' n) := by
  unfold State.withdrawNozzle; try dsimp only
  repeat' (with_reducible first | assumption | apply State.withdraw_kept)

theorem State.restartSettling_kept {a s} (h : Kept a s) (b) (job) (psn) : Kept a (State.restartSettling s b job psn) := by
  unfold State.restartSettling; try dsimp only
  repeat' (
    first
    | (with_reducible first
       | assumption | apply State.setObj_kept | apply State.setCalBar_kept | apply State.setCalUnit_kept
       | apply State.setCalState_kept | apply State.withdraw_kept | refine Kept.ite ?_ (fun _ => ?_) | apply Kept.fold
       | apply Kept.foldOf Prod.fst)
    | simp only [Kept.upd]
    | (intro _; try dsimp only)
    | (split <;> try dsimp only))

theorem State.applyCorrections_kept {a s} (h : Kept a s) (b) (job) (psn) (host) : Kept a
    (State.applyCorrections s b job psn host) := by
  unfold State.applyCorrections; try dsimp only
  repeat' (
    first
    | (with_reducible first
       | assumption | apply State.calApplied_kept | apply State.setObj_kept | apply State.restartSettling_kept
       | apply State.count_kept | refine Kept.ite ?_ (fun _ => ?_) | apply Kept.fold | apply Kept.foldOf Prod.fst)
    | simp only [Kept.upd]
    | (intro _; try dsimp only)
    | (split <;> try dsimp only))

theorem State.dramPut_kept {a s} (h : Kept a s) (a') (v2) : Kept a (State.dramPut s a' v2) := by
  induction v2 generalizing s a' with
  | nil => exact h
  | cons x t ih => exact ih (State.dramSet_kept h a' x) (a' + 1)

theorem State.setValue_kept {a s} (h : Kept a s) (k) (b) : Kept a (State.setValue s k b) := by
  unfold State.setValue; try dsimp only
  repeat' (
    first
    | (with_reducible first
       | assumption | apply State.setBlob_kept | apply State.setObj_kept | refine Kept.ite ?_ (fun _ => ?_))
    | (split <;> try dsimp only))

theorem State.mapPending_kept {a s} (h : Kept a s) (f) : Kept a (State.mapPending s f) := by
  unfold State.mapPending; try dsimp only
  repeat' (first | (with_reducible first | assumption) | simp only [Kept.upd])

theorem State.refreshSets_kept {a s} (h : Kept a s) : Kept a (State.refreshSets s) := by
  unfold State.refreshSets; try dsimp only
  repeat' (
    first
    | (with_reducible first
       | assumption | apply State.mapPending_kept | apply State.setObj_kept | refine Kept.ite ?_ (fun _ => ?_)
       | apply Kept.fold | apply Kept.foldOf Prod.fst)
    | simp only [Kept.upd]
    | (intro _; try dsimp only)
    | (split <;> try dsimp only))

theorem State.startLoads_kept {a s} (h : Kept a s) : Kept a (State.startLoads s) := by
  unfold State.startLoads; try dsimp only
  repeat' (
    first
    | (with_reducible first
       | assumption | apply State.loadWave_kept | apply State.loadTrims_kept | apply State.refreshSets_kept
       | refine Kept.ite ?_ (fun _ => ?_) | apply Kept.fold | apply Kept.foldOf Prod.fst)
    | (intro _; try dsimp only)
    | (split <;> try dsimp only))

theorem State.finishSet_kept {a s} (h : Kept a s) (number) (outcome) : Kept a (State.finishSet s number outcome) := by
  unfold State.finishSet; try dsimp only
  repeat' (
    first
    | (with_reducible first
       | assumption | apply State.event_kept | apply State.journal_kept | apply State.forward_kept
       | apply State.refreshSets_kept | apply State.startLoads_kept | refine Kept.ite ?_ (fun _ => ?_))
    | simp only [Kept.upd]
    | (split <;> try dsimp only))

theorem State.slipSet_kept {a s} (h : Kept a s) (number) : Kept a (State.slipSet s number) := by
  unfold State.slipSet; try dsimp only
  repeat' (
    first
    | (with_reducible first
       | assumption | apply State.mapPending_kept | refine Kept.ite ?_ (fun _ => ?_))
    | simp only [Kept.upd]
    | (split <;> try dsimp only))

theorem State.sendSlots_kept {a s} (h : Kept a s) : Kept a (State.sendSlots s) := by
  unfold State.sendSlots; try dsimp only
  repeat' (
    first
    | (with_reducible first
       | assumption | apply State.ctlSend_kept | refine Kept.ite ?_ (fun _ => ?_) | apply Kept.fold
       | apply Kept.foldOf Prod.fst)
    | (intro _; try dsimp only)
    | (split <;> try dsimp only))

theorem State.idleSet_kept {a s} (h : Kept a s) (c) : Kept a (State.idleSet s c) := by
  unfold State.idleSet; try dsimp only
  repeat' (
    first
    | (with_reducible first
       | assumption | apply State.finishSet_kept | apply State.setValue_kept | apply State.sendSlots_kept
       | refine Kept.ite ?_ (fun _ => ?_) | apply Kept.fold | apply Kept.foldOf Prod.fst)
    | simp only [Kept.upd]
    | (intro _; try dsimp only)
    | (split <;> try dsimp only))

theorem State.reload_kept {a s} (h : Kept a s) (h') : Kept a (State.reload s h') := by
  unfold State.reload; try dsimp only
  repeat' (
    first
    | (with_reducible first
       | assumption | apply State.setObj_kept | apply State.setHeadDev_kept | refine Kept.ite ?_ (fun _ => ?_))
    | simp only [Kept.upd]
    | (split <;> try dsimp only))

theorem State.applyWave_kept {a s} (h : Kept a s) (b) (lseq) (job) (slips) (data) : Kept a
    (State.applyWave s b lseq job slips data) := by
  unfold State.applyWave; try dsimp only
  repeat' (
    first
    | (with_reducible first
       | assumption | apply State.setHeadDev_kept | apply State.ctlSend_kept | apply State.setBlob_kept
       | apply State.reload_kept | apply State.setObj_kept | apply State.eventJ_kept | refine Kept.ite ?_ (fun _ => ?_)
       | apply Kept.fold | apply Kept.foldOf Prod.fst)
    | simp only [Kept.upd]
    | (intro _; try dsimp only)
    | (split <;> try dsimp only))

theorem State.applyNozzles_kept {a s} (h : Kept a s) (h') (lseq) (job) (data) : Kept a (State.applyNozzles s h' lseq job data) := by
  unfold State.applyNozzles; try dsimp only
  repeat' (
    first
    | (with_reducible first
       | assumption | apply State.applyParams_kept | apply State.setHeadDev_kept | apply State.ctlSend_kept
       | apply State.reload_kept | refine Kept.ite ?_ (fun _ => ?_))
    | simp only [Kept.upd]
    | (split <;> try dsimp only))

theorem State.applyBar_kept {a s} (h : Kept a s) (c) (b) (lseq) (job) : Kept a (State.applyBar s c b lseq job) := by
  unfold State.applyBar; try dsimp only
  repeat' (
    first
    | (with_reducible first
       | assumption | apply State.restartSettling_kept | apply State.applyWave_kept | apply State.applyNozzles_kept
       | apply State.setValue_kept | refine Kept.ite ?_ (fun _ => ?_) | apply Kept.fold | apply Kept.foldOf Prod.fst)
    | simp only [Kept.upd]
    | (intro _; try dsimp only)
    | (split <;> try dsimp only))

theorem bindOne_kept {a} {acc} (h : Kept a acc.st) (b) (job) (lseq) (c) : Kept a (bindOne b job lseq acc c).st := by
  unfold bindOne; try dsimp only
  repeat' (
    first
    | (with_reducible first
       | assumption | apply State.applyBar_kept | apply State.mapPending_kept | apply State.count_kept
       | apply State.slipSet_kept | apply State.finishSet_kept | refine Kept.ite ?_ (fun _ => ?_) | apply Kept.fold
       | apply Kept.foldOf Prod.fst | apply Kept.foldOf BindAcc.st)
    | simp only [Kept.upd]
    | (intro _; try dsimp only)
    | (split <;> try dsimp only))

theorem State.bindPage_kept {a s} (h : Kept a s) (b) (job) (lseq) : Kept a (State.bindPage s b job lseq).1 := by
  unfold State.bindPage; try dsimp only
  repeat' (
    first
    | (with_reducible first
       | assumption | apply bindOne_kept | apply State.refreshSets_kept | apply State.startLoads_kept
       | apply State.applyCorrections_kept | apply Kept.fold | apply Kept.foldOf Prod.fst | apply Kept.foldOf BindAcc.st
       | apply Kept.foldOf FrameAcc.st)
    | simp only [Kept.upd]
    | (intro _; try dsimp only)
    | (split <;> try dsimp only))

theorem State.passBoundary_kept {a s} (h : Kept a s) (b) (job) : Kept a (State.passBoundary s b job) := by
  unfold State.passBoundary; try dsimp only
  repeat' (
    first
    | (with_reducible first
       | assumption | apply State.mapPending_kept | refine Kept.ite ?_ (fun _ => ?_))
    | simp only [Kept.upd]
    | (split <;> try dsimp only))

theorem State.unbind_kept {a s} (h : Kept a s) (job) : Kept a (State.unbind s job) := by
  unfold State.unbind; try dsimp only
  repeat' (
    first
    | (with_reducible first
       | assumption | apply State.mapPending_kept | refine Kept.ite ?_ (fun _ => ?_))
    | simp only [Kept.upd]
    | (split <;> try dsimp only))

theorem State.applyFrame_kept {a s} (h : Kept a s) (l) : Kept a (State.applyFrame s l) := by
  unfold State.applyFrame; try dsimp only
  repeat' (
    first
    | (with_reducible first
       | assumption | apply State.setValue_kept | refine Kept.ite ?_ (fun _ => ?_) | apply Kept.fold
       | apply Kept.foldOf Prod.fst)
    | simp only [Kept.upd]
    | (intro _; try dsimp only)
    | (split <;> try dsimp only))

theorem State.takeEffect_kept {a s} (h : Kept a s) (number) : Kept a (State.takeEffect s number) := by
  unfold State.takeEffect; try dsimp only
  repeat' (
    first
    | (with_reducible first
       | assumption | apply State.finishSet_kept | apply State.idleSet_kept | apply State.applyFrame_kept
       | apply State.mapPending_kept | refine Kept.ite ?_ (fun _ => ?_))
    | simp only [Kept.upd]
    | (split <;> try dsimp only))

theorem State.cancelSet_kept {a s} (h : Kept a s) (number) (super) : Kept a (State.cancelSet s number super).1 := by
  unfold State.cancelSet; try dsimp only
  repeat' (
    first
    | (with_reducible first
       | assumption | apply State.finishSet_kept | refine Kept.ite ?_ (fun _ => ?_) | refine Kept.iteOf Prod.fst ?_ ?_)
    | (split <;> try dsimp only))

theorem State.placeJob_kept {a s} (h : Kept a s) (id) : Kept a (State.placeJob s id) := by
  unfold State.placeJob; try dsimp only
  repeat' (
    first
    | (with_reducible first
       | assumption | apply State.mapJob_kept | apply State.count_kept | apply State.event_kept
       | refine Kept.ite ?_ (fun _ => ?_))
    | simp only [Kept.upd]
    | (split <;> try dsimp only))

theorem State.stageJob_kept {a s} (h : Kept a s) (b) (id) : Kept a (State.stageJob s b id) := by
  unfold State.stageJob; try dsimp only
  repeat' (
    first
    | (with_reducible first
       | assumption | apply State.readyReturn_kept | apply State.mapJob_kept | apply State.placeJob_kept
       | refine Kept.ite ?_ (fun _ => ?_))
    | simp only [Kept.upd]
    | (split <;> try dsimp only))

theorem State.markBar0_kept {a s} (h : Kept a s) (t) (m) : Kept a (State.markBar0 s t m) := by
  unfold State.markBar0; try dsimp only
  repeat' (
    first
    | (with_reducible first
       | assumption | apply State.count_kept | apply State.mapJob_kept | refine Kept.ite ?_ (fun _ => ?_))
    | simp only [Kept.upd]
    | (split <;> try dsimp only))

theorem State.markBar_kept {a s} (h : Kept a s) (t) (m) (b) : Kept a (State.markBar s t m b) := by
  unfold State.markBar; try dsimp only
  repeat' (
    first
    | (with_reducible first
       | assumption | apply State.mapJob_kept | refine Kept.ite ?_ (fun _ => ?_))
    | simp only [Kept.upd]
    | (split <;> try dsimp only))

theorem State.useMark_kept {a s} (h : Kept a s) (t) (m) : Kept a (State.useMark s t m) := by
  unfold State.useMark; try dsimp only
  repeat' (
    first
    | (with_reducible first
       | assumption | apply State.markBar_kept | apply State.markBar0_kept | apply Kept.fold | apply Kept.foldOf Prod.fst)
    | (intro _; try dsimp only))

theorem State.sf4End_kept {a s} (h : Kept a s) : Kept a (State.sf4End s) := by
  unfold State.sf4End; try dsimp only
  repeat' (
    first
    | (with_reducible first
       | assumption | apply State.condEnd_kept | refine Kept.ite ?_ (fun _ => ?_))
    | (split <;> try dsimp only))

theorem State.sendService_kept {a s} (h : Kept a s) (b) (lseq) (job) : Kept a (State.sendService s b lseq job) := by
  unfold State.sendService; try dsimp only
  repeat' (
    first
    | (with_reducible first
       | assumption | apply State.ctlSend_kept | apply State.setHeadDev_kept | refine Kept.ite ?_ (fun _ => ?_)
       | apply Kept.fold | apply Kept.foldOf Prod.fst)
    | simp only [Kept.upd]
    | (intro _; try dsimp only)
    | (split <;> try dsimp only))

theorem State.headHot_kept {a s} (h : Kept a s) (h') (job) (line) : Kept a (State.headHot s h' job line) := by
  unfold State.headHot; try dsimp only
  repeat' (with_reducible first | assumption | apply State.event_kept | apply State.count_kept | apply State.markJob_kept)

theorem State.hotAtLine0_kept {a s} (h : Kept a s) (b) (lseq) (job) : Kept a (State.hotAtLine0 s b lseq job) := by
  unfold State.hotAtLine0; try dsimp only
  repeat' (
    first
    | (with_reducible first
       | assumption | apply State.setHeadDev_kept | apply State.ctlSend_kept | apply State.setObj_kept
       | apply State.headHot_kept | refine Kept.ite ?_ (fun _ => ?_) | apply Kept.fold | apply Kept.foldOf Prod.fst)
    | simp only [Kept.upd]
    | (intro _; try dsimp only)
    | (split <;> try dsimp only))

theorem State.departPage_kept {a s} (h : Kept a s) (b) (lseq) (j) : Kept a (State.departPage s b lseq j) := by
  unfold State.departPage; try dsimp only
  repeat' (
    first
    | (with_reducible first
       | assumption | apply State.bindPage_kept | apply State.takeDead_kept | apply State.sendService_kept
       | apply State.hotAtLine0_kept | apply State.startProbes_kept | apply State.fixMethod_kept | apply State.mapJob_kept
       | apply State.count_kept | apply State.event_kept | refine Kept.ite ?_ (fun _ => ?_))
    | simp only [Kept.upd]
    | (split <;> try dsimp only))

theorem State.takeLead_kept {a s} (h : Kept a s) (b) (job) (line) : Kept a (State.takeLead s b job line).1 := by
  unfold State.takeLead; try dsimp only
  repeat' (first | (with_reducible first | assumption | apply State.setFireLane_kept) | simp only [Kept.upd])

theorem State.lateLine_kept {a s} (h : Kept a s) (b) (j) (line) : Kept a (State.lateLine s b j line) := by
  unfold State.lateLine; try dsimp only
  repeat' (
    first
    | (with_reducible first
       | assumption | apply State.count_kept | apply State.event_kept | apply State.mapJob_kept
       | refine Kept.ite ?_ (fun _ => ?_))
    | simp only [Kept.upd]
    | (split <;> try dsimp only))

theorem State.sendLine_kept {a s} (h : Kept a s) (lseq) (line) (v) (r) : Kept a (State.sendLine s lseq line v r) := by
  unfold State.sendLine; try dsimp only
  repeat' (
    first
    | (with_reducible first
       | assumption | apply State.hlTx_kept | refine Kept.ite ?_ (fun _ => ?_))
    | (split <;> try dsimp only))

theorem State.leadMin_kept {a s} (h : Kept a s) (b) (lead) : Kept a (State.leadMin s b lead) := by
  unfold State.leadMin; try dsimp only
  repeat' (
    first
    | (with_reducible first
       | assumption | apply State.setObj_kept | refine Kept.ite ?_ (fun _ => ?_))
    | (split <;> try dsimp only))

theorem State.departLine_kept {a s} (h : Kept a s) (b) (j) (line) (send) : Kept a (State.departLine s b j line send) := by
  unfold State.departLine; try dsimp only
  repeat' (
    first
    | (with_reducible first
       | assumption | apply State.departPage_kept | apply State.takeLead_kept | apply State.leadMin_kept
       | apply State.lateLine_kept | apply State.buildLine_kept | apply State.count_kept | apply State.mapJob_kept
       | apply State.event_kept | apply State.sendLine_kept | apply State.sendAuth_kept | apply State.setDeparted_kept
       | apply State.forward_kept | refine Kept.ite ?_ (fun _ => ?_) | apply Kept.fold | apply Kept.foldOf Prod.fst)
    | simp only [Kept.upd]
    | (intro _; try dsimp only)
    | (split <;> try dsimp only))

theorem State.depart_kept {a s} (h : Kept a s) (b) : Kept a (State.depart s b) := by
  unfold State.depart; try dsimp only
  repeat' (
    first
    | (with_reducible first
       | assumption | apply State.departLine_kept | refine Kept.ite ?_ (fun _ => ?_))
    | (split <;> try dsimp only))

theorem State.cancelHeld_kept {a s} (h : Kept a s) (id) (b) : Kept a (State.cancelHeld s id b) := by
  unfold State.cancelHeld; try dsimp only
  repeat' (
    first
    | (with_reducible first
       | assumption | apply State.hlTx_kept | apply State.setDeparted_kept | apply Kept.fold | apply Kept.foldOf Prod.fst)
    | (intro _; try dsimp only))

theorem State.fireDone_kept {a s} (h : Kept a s) (j) (status) : Kept a (State.fireDone s j status) := by
  unfold State.fireDone; try dsimp only
  repeat' (with_reducible first | assumption | apply State.complete_kept | apply State.journal_kept)

theorem State.abortJob_kept {a s} (h : Kept a s) (id) : Kept a (State.abortJob s id).1 := by
  unfold State.abortJob; try dsimp only
  repeat' (
    first
    | (with_reducible first
       | assumption | apply State.cancelHeld_kept | apply State.mapJob_kept | apply State.dropLead_kept
       | apply State.unbind_kept | apply State.fireDone_kept | apply State.dropStreams_kept | apply State.decideAccept_kept
       | apply State.sf4End_kept | refine Kept.ite ?_ (fun _ => ?_) | refine Kept.iteOf Prod.fst ?_ ?_ | apply Kept.fold
       | apply Kept.foldOf Prod.fst)
    | simp only [Kept.upd]
    | (intro _; try dsimp only)
    | (split <;> try dsimp only))

theorem State.hqAbort_kept {a s} (h : Kept a s) (id) : Kept a (State.hqAbort s id) := by
  unfold State.hqAbort; try dsimp only
  repeat' (
    first
    | (with_reducible first
       | assumption | apply State.abortJob_kept | apply State.forward_kept | apply State.complete_kept
       | refine Kept.ite ?_ (fun _ => ?_))
    | simp only [Kept.upd]
    | (split <;> try dsimp only))

theorem State.tryResume_kept {a s} (h : Kept a s) : Kept a (State.tryResume s) := by
  unfold State.tryResume; try dsimp only
  repeat' (
    first
    | (with_reducible first
       | assumption | apply State.resendAll_kept | apply State.event_kept | refine Kept.ite ?_ (fun _ => ?_))
    | simp only [Kept.upd]
    | (split <;> try dsimp only))

theorem State.resume_kept {a s} (h : Kept a s) : Kept a (State.resume s) := by
  unfold State.resume; try dsimp only
  repeat' (
    first
    | (with_reducible first
       | assumption | apply State.tryResume_kept | refine Kept.ite ?_ (fun _ => ?_))
    | simp only [Kept.upd]
    | (split <;> try dsimp only))

theorem State.keepRows_kept {a s} (h : Kept a s) (d) : Kept a (State.keepRows s d) := by
  unfold State.keepRows; try dsimp only
  repeat' (
    first
    | (with_reducible first
       | assumption | apply Kept.fold | apply Kept.foldOf Prod.fst)
    | simp only [Kept.upd]
    | (intro _; try dsimp only))

theorem State.pageBoundary_kept {a s} (h : Kept a s) (j) (b) : Kept a (State.pageBoundary s j b) := by
  unfold State.pageBoundary; try dsimp only
  repeat' (
    first
    | (with_reducible first
       | assumption | apply State.markJob_kept | apply State.mapJob_kept | apply State.passBoundary_kept
       | refine Kept.ite ?_ (fun _ => ?_))
    | simp only [Kept.upd]
    | (split <;> try dsimp only))

theorem State.barDone_kept {a s} (h : Kept a s) (id) (b) : Kept a (State.barDone s id b) := by
  unfold State.barDone; try dsimp only
  repeat' (
    first
    | (with_reducible first
       | assumption | apply State.mapJob_kept | apply State.forward_kept | apply State.summaryCheck_kept
       | apply State.fireDone_kept | refine Kept.ite ?_ (fun _ => ?_))
    | simp only [Kept.upd]
    | (split <;> try dsimp only))

theorem State.passLine_kept {a s} (h : Kept a s) (id) (b) (line) (fires) : Kept a (State.passLine s id b line fires) := by
  unfold State.passLine; try dsimp only
  repeat' (
    first
    | (with_reducible first
       | assumption | apply State.pageBoundary_kept | apply State.count_kept | apply State.mapJob_kept
       | apply State.fireSummary_kept | apply State.stepBarPhases_kept | apply State.barDone_kept
       | refine Kept.ite ?_ (fun _ => ?_))
    | simp only [Kept.upd]
    | (split <;> try dsimp only))

theorem State.lineBoundary_kept {a s} (h : Kept a s) (b) : Kept a (State.lineBoundary s b) := by
  unfold State.lineBoundary; try dsimp only
  repeat' (
    first
    | (with_reducible first
       | assumption | apply State.sf4End_kept | apply State.passLine_kept | apply State.setDeparted_kept
       | apply State.keepRows_kept | apply State.bindPage_kept | refine Kept.ite ?_ (fun _ => ?_))
    | (split <;> try dsimp only))

theorem State.setStatus_kept {a s} (h : Kept a s) (k) (v) : Kept a (State.setStatus s k v) := by
  unfold State.setStatus; try dsimp only
  repeat' (
    first
    | (with_reducible first
       | assumption | apply State.setObj_kept | apply State.msix_kept | refine Kept.ite ?_ (fun _ => ?_))
    | (split <;> try dsimp only))

theorem State.setChan_kept {a s} (h : Kept a s) (i) (c) : Kept a (State.setChan s i c) := by
  unfold State.setChan; try dsimp only
  repeat' (first | (with_reducible first | assumption) | simp only [Kept.upd] | (split <;> try dsimp only))

theorem State.edgeSpeed_kept {a s} (h : Kept a s) (n) (edges) : Kept a (State.edgeSpeed s n edges).1 := by
  unfold State.edgeSpeed; try dsimp only
  repeat' (
    first
    | (with_reducible first
       | assumption | apply State.drawInt_kept | refine Kept.ite ?_ (fun _ => ?_) | refine Kept.iteOf Prod.fst ?_ ?_)
    | (split <;> try dsimp only))

theorem State.chanEdge_kept {a s} (h : Kept a s) (i) (fwd) (t) : Kept a (State.chanEdge s i fwd t) := by
  unfold State.chanEdge; try dsimp only
  repeat' (
    first
    | (with_reducible first
       | assumption | apply State.edgeSpeed_kept | apply State.setChan_kept | apply State.setStatus_kept
       | apply State.setObj_kept | refine Kept.ite ?_ (fun _ => ?_))
    | simp only [Kept.upd]
    | (split <;> try dsimp only))

theorem State.setCmp_kept {a s} (h : Kept a s) (k) (c) : Kept a (State.setCmp s k c) := by
  unfold State.setCmp; try dsimp only
  repeat' (first | (with_reducible first | assumption) | simp only [Kept.upd])

theorem State.takeList_kept {a s} (h : Kept a s) (k) : Kept a (State.takeList s k) := by
  unfold State.takeList; try dsimp only
  repeat' (
    first
    | (with_reducible first
       | assumption | apply State.setValue_kept | apply State.mapPending_kept | apply State.finishSet_kept
       | refine Kept.ite ?_ (fun _ => ?_) | apply Kept.fold | apply Kept.foldOf Prod.fst)
    | simp only [Kept.upd]
    | (intro _; try dsimp only)
    | (split <;> try dsimp only))

theorem cmpWalk_kept {a} {v3} (h : Kept a v3.st) (k) (p16) (v2) : Kept a (cmpWalk k p16 v2 v3).st := by
  induction v2 generalizing v3 with
  | zero => exact h
  | succ n ih =>
    unfold cmpWalk; try dsimp only
    repeat' (
      first
      | (with_reducible first
         | assumption | apply ih | apply State.takeList_kept | refine Kept.ite ?_ (fun _ => ?_))
      | simp only [Kept.upd]
      | (split <;> try dsimp only))

theorem State.cmpAct_kept {a s} (h : Kept a s) (k) : Kept a (State.cmpAct s k) := by
  unfold State.cmpAct; try dsimp only
  repeat' (
    first
    | (with_reducible first
       | assumption | apply cmpWalk_kept | apply State.setObj_kept | apply State.forward_kept | apply State.setCmp_kept
       | apply State.count_kept | apply State.event_kept | refine Kept.ite ?_ (fun _ => ?_))
    | simp only [Kept.upd]
    | (split <;> try dsimp only))

theorem State.cmpForward_kept {a s} (h : Kept a s) (src) (pos) : Kept a (State.cmpForward s src pos) := by
  unfold State.cmpForward; try dsimp only
  repeat' (
    first
    | (with_reducible first
       | assumption | apply State.cmpAct_kept | apply State.setCmp_kept | refine Kept.ite ?_ (fun _ => ?_) | apply Kept.fold
       | apply Kept.foldOf Prod.fst)
    | simp only [Kept.upd]
    | (intro _; try dsimp only)
    | (split <;> try dsimp only))

theorem State.cmpArm_kept {a s} (h : Kept a s) (k) (v) : Kept a (State.cmpArm s k v) := by
  unfold State.cmpArm; try dsimp only
  repeat' (
    first
    | (with_reducible first
       | assumption | apply State.setObj_kept | apply State.setCmp_kept | apply State.takeList_kept
       | refine Kept.ite ?_ (fun _ => ?_))
    | simp only [Kept.upd]
    | (split <;> try dsimp only))

theorem State.cmpMark_kept {a s} (h : Kept a s) (t) (m) : Kept a (State.cmpMark s t m) := by
  unfold State.cmpMark; try dsimp only
  repeat' (
    first
    | (with_reducible first
       | assumption | apply State.setCmp_kept | refine Kept.ite ?_ (fun _ => ?_) | apply Kept.fold
       | apply Kept.foldOf Prod.fst)
    | (intro _; try dsimp only)
    | (split <;> try dsimp only))

theorem State.pulseEnd_kept {a s} (h : Kept a s) (k) : Kept a (State.pulseEnd s k) := by
  unfold State.pulseEnd; try dsimp only
  repeat' (
    first
    | (with_reducible first
       | assumption | apply State.setCmp_kept | refine Kept.ite ?_ (fun _ => ?_))
    | simp only [Kept.upd]
    | (split <;> try dsimp only))

theorem State.setTof_kept {a s} (h : Kept a s) (t) (x) : Kept a (State.setTof s t x) := by
  unfold State.setTof; try dsimp only
  repeat' (first | (with_reducible first | assumption) | simp only [Kept.upd])

theorem State.latchMark_kept {a s} (h : Kept a s) (t) (m) (stamp) : Kept a (State.latchMark s t m stamp) := by
  unfold State.latchMark; try dsimp only
  repeat' (
    first
    | (with_reducible first
       | assumption | apply State.count_kept | apply State.setTof_kept | apply State.setObj_kept | apply State.cmpMark_kept
       | apply State.useMark_kept | refine Kept.ite ?_ (fun _ => ?_))
    | simp only [Kept.upd]
    | (split <;> try dsimp only))

theorem State.latchPending_kept {a s} (h : Kept a s) (next) : Kept a (State.latchPending s next) := by
  unfold State.latchPending; try dsimp only
  repeat' (
    first
    | (with_reducible first
       | assumption | apply State.setTof_kept | apply State.latchMark_kept | refine Kept.ite ?_ (fun _ => ?_)
       | apply Kept.fold | apply Kept.foldOf Prod.fst)
    | simp only [Kept.upd]
    | (intro _; try dsimp only)
    | (split <;> try dsimp only))

theorem State.tofMark_kept {a s} (h : Kept a s) (t) (rising) : Kept a (State.tofMark s t rising) := by
  unfold State.tofMark; try dsimp only
  repeat' (
    first
    | (with_reducible first
       | assumption | apply State.count_kept | apply State.latchMark_kept | apply State.setTof_kept
       | apply State.latchPending_kept | refine Kept.ite ?_ (fun _ => ?_))
    | simp only [Kept.upd]
    | (split <;> try dsimp only))

theorem State.tofMissing_kept {a s} (h : Kept a s) (t) : Kept a (State.tofMissing s t) := by
  unfold State.tofMissing; try dsimp only
  repeat' (
    first
    | (with_reducible first
       | assumption | apply State.count_kept | apply State.event_kept | apply State.useMark_kept | apply State.setTof_kept
       | refine Kept.ite ?_ (fun _ => ?_))
    | simp only [Kept.upd]
    | (split <;> try dsimp only))

theorem State.forwardPredictor_kept {a s} (h : Kept a s) : Kept a (State.forwardPredictor s) := by
  unfold State.forwardPredictor; try dsimp only
  repeat' (with_reducible first | assumption | apply State.forward_kept)

theorem State.fireflyEdge_kept {a s} (h : Kept a s) (t) : Kept a (State.fireflyEdge s t) := by
  unfold State.fireflyEdge; try dsimp only
  repeat' (
    first
    | (with_reducible first
       | assumption | apply State.forwardPredictor_kept | apply State.resendAll_kept | apply State.tryResume_kept
       | apply State.predict_kept | apply State.enterHold_kept | apply State.event_kept | apply State.suspend_kept
       | apply State.count_kept | refine Kept.ite ?_ (fun _ => ?_))
    | (split <;> try dsimp only))

theorem State.splice_kept {a s} (h : Kept a s) (w) : Kept a (State.splice s w) := by
  unfold State.splice; try dsimp only
  repeat' (first | (with_reducible first | assumption | apply State.setBit_kept) | simp only [Kept.upd])

theorem State.webCount_kept {a s} (h : Kept a s) (w) (fwd) (t) : Kept a (State.webCount s w fwd t) := by
  unfold State.webCount; try dsimp only
  repeat' (
    first
    | (with_reducible first
       | assumption | apply State.chanEdge_kept | apply State.setChan_kept | apply State.setObj_kept | apply State.splice_kept
       | apply State.event_kept | apply State.condEnd_kept | apply State.latchPending_kept | apply State.cmpForward_kept
       | apply State.fireflyEdge_kept | refine Kept.ite ?_ (fun _ => ?_))
    | simp only [Kept.upd]
    | (split <;> try dsimp only))

theorem State.encIllegal_kept {a s} (h : Kept a s) (k) : Kept a (State.encIllegal s k) := by
  unfold State.encIllegal; try dsimp only
  repeat' (
    first
    | (with_reducible first
       | assumption | apply State.count_kept | apply State.setStatus_kept | apply State.event_kept
       | refine Kept.ite ?_ (fun _ => ?_))
    | (split <;> try dsimp only))

theorem State.levels_kept {a} {s} {count} (h : Kept a s) (h1 : ∀ y0 y1 y2, Kept a y0 → Kept a (count y0 y1 y2)) (i) (on) (a')
    (b) : Kept a (State.levels s i on a' b count) := by
  unfold State.levels; try dsimp only
  repeat' (
    first
    | (with_reducible first
       | assumption | apply h1 | apply State.setChan_kept | apply State.encIllegal_kept | apply State.setStatus_kept
       | apply State.count_kept | refine Kept.ite ?_ (fun _ => ?_))
    | simp only [Kept.upd]
    | (split <;> try dsimp only))

theorem State.encLevels_kept {a s} (h : Kept a s) (w) (a') (b) : Kept a (State.encLevels s w a' b) := by
  unfold State.encLevels; try dsimp only
  repeat' (
    first
    | (with_reducible first
       | assumption | apply State.levels_kept | apply State.webCount_kept)
    | (intro _; try dsimp only))

theorem State.encIndex_kept {a s} (h : Kept a s) (w) : Kept a (State.encIndex s w) := by
  unfold State.encIndex; try dsimp only
  repeat' (
    first
    | (with_reducible first
       | assumption | apply State.setStatus_kept | apply State.setObj_kept | apply State.setChan_kept | apply State.count_kept
       | apply State.event_kept | refine Kept.ite ?_ (fun _ => ?_))
    | simp only [Kept.upd]
    | (split <;> try dsimp only))

theorem State.encStandstill_kept {a s} (h : Kept a s) (w) : Kept a (State.encStandstill s w) := by
  unfold State.encStandstill; try dsimp only
  repeat' (
    first
    | (with_reducible first
       | assumption | apply State.setStatus_kept | apply State.setObj_kept | apply State.forwardPredictor_kept
       | apply State.enterHold_kept | apply State.latchPending_kept | refine Kept.ite ?_ (fun _ => ?_))
    | (split <;> try dsimp only))

theorem State.startSpan_kept {a s} (h : Kept a s) : Kept a (State.startSpan s) := by
  unfold State.startSpan; try dsimp only
  repeat' (first | (with_reducible first | assumption) | simp only [Kept.upd])

theorem State.spanEnd_kept {a s} (h : Kept a s) : Kept a (State.spanEnd s) := by
  unfold State.spanEnd; try dsimp only
  repeat' (
    first
    | (with_reducible first
       | assumption | apply State.setBit_kept | apply State.count_kept | apply State.event_kept | apply State.startSpan_kept
       | refine Kept.ite ?_ (fun _ => ?_))
    | (split <;> try dsimp only))

theorem State.resetChan_kept {a s} (h : Kept a s) (i) : Kept a (State.resetChan s i) := by
  unfold State.resetChan; try dsimp only
  repeat' (
    first
    | (with_reducible first
       | assumption | apply State.setChan_kept | apply State.setStatus_kept | apply State.setObj_kept
       | refine Kept.ite ?_ (fun _ => ?_))
    | (split <;> try dsimp only))

theorem State.encEnable_kept {a s} (h : Kept a s) (w) (v) : Kept a (State.encEnable s w v).1 := by
  unfold State.encEnable; try dsimp only
  repeat' (
    first
    | (with_reducible first
       | assumption | apply State.resetChan_kept | apply State.setObj_kept | apply State.enterHold_kept
       | apply State.startSpan_kept | refine Kept.ite ?_ (fun _ => ?_) | refine Kept.iteOf Prod.fst ?_ ?_)
    | simp only [Kept.upd]
    | (split <;> try dsimp only))

theorem State.selectWeb_kept {a s} (h : Kept a s) (v) : Kept a (State.selectWeb s v).1 := by
  unfold State.selectWeb; try dsimp only
  repeat' (
    first
    | (with_reducible first
       | assumption | apply State.setObj_kept | refine Kept.ite ?_ (fun _ => ?_) | refine Kept.iteOf Prod.fst ?_ ?_)
    | (split <;> try dsimp only))

theorem State.axisCount_kept {a s} (h : Kept a s) (x) (fwd) (t) : Kept a (State.axisCount s x fwd t) := by
  unfold State.axisCount; try dsimp only
  repeat' (
    first
    | (with_reducible first
       | assumption | apply State.chanEdge_kept | apply State.cmpForward_kept | refine Kept.ite ?_ (fun _ => ?_))
    | (split <;> try dsimp only))

theorem State.axeLevels_kept {a s} (h : Kept a s) (x) (a') (b) : Kept a (State.axeLevels s x a' b) := by
  unfold State.axeLevels; try dsimp only
  repeat' (
    first
    | (with_reducible first
       | assumption | apply State.levels_kept | apply State.axisCount_kept)
    | (intro _; try dsimp only))

theorem State.axeIndex_kept {a s} (h : Kept a s) (x) : Kept a (State.axeIndex s x) := by
  unfold State.axeIndex; try dsimp only
  repeat' (
    first
    | (with_reducible first
       | assumption | apply State.setStatus_kept | apply State.setObj_kept | refine Kept.ite ?_ (fun _ => ?_))
    | (split <;> try dsimp only))

theorem State.ssiBadSample_kept {a s} (h : Kept a s) (x) (cause) : Kept a (State.ssiBadSample s x cause) := by
  unfold State.ssiBadSample; try dsimp only
  repeat' (
    first
    | (with_reducible first
       | assumption | apply State.count_kept | apply State.setChan_kept | apply State.setStatus_kept | apply State.event_kept
       | apply State.latch_kept | refine Kept.ite ?_ (fun _ => ?_))
    | simp only [Kept.upd]
    | (split <;> try dsimp only))

theorem State.ssiSample_kept {a s} (h : Kept a s) (x) (busy) (bits) : Kept a (State.ssiSample s x busy bits) := by
  unfold State.ssiSample; try dsimp only
  repeat' (
    first
    | (with_reducible first
       | assumption | apply State.ssiBadSample_kept | apply State.setChan_kept | apply State.setObj_kept
       | apply State.condEnd_kept | apply State.setStatus_kept | apply State.cmpForward_kept
       | refine Kept.ite ?_ (fun _ => ?_) | apply Kept.fold | apply Kept.foldOf Prod.fst)
    | simp only [Kept.upd]
    | (intro _; try dsimp only)
    | (split <;> try dsimp only))

theorem State.setAxeMode_kept {a s} (h : Kept a s) (x) (v) : Kept a (State.setAxeMode s x v) := by
  unfold State.setAxeMode; try dsimp only
  repeat' (
    first
    | (with_reducible first
       | assumption | apply State.setObj_kept | apply State.resetChan_kept | refine Kept.ite ?_ (fun _ => ?_))
    | (split <;> try dsimp only))

theorem State.laneBits_kept {a s} (h : Kept a s) (n) (on) (off) : Kept a (State.laneBits s n on off) := by
  unfold State.laneBits; try dsimp only
  repeat' (
    first
    | (with_reducible first
       | assumption | apply State.setBit_kept | apply Kept.fold | apply Kept.foldOf Prod.fst)
    | (intro _; try dsimp only))

theorem State.setHeadSide_kept {a s} (h : Kept a s) (h') (x) : Kept a (State.setHeadSide s h' x) := by
  unfold State.setHeadSide; try dsimp only
  repeat' (first | (with_reducible first | assumption) | simp only [Kept.upd])

theorem State.headPortDown_kept {a s} (h : Kept a s) (h') : Kept a (State.headPortDown s h') := by
  unfold State.headPortDown; try dsimp only
  repeat' (first | (with_reducible first | assumption | apply State.setHeadSide_kept) | simp only [Kept.upd])

theorem State.setLane_kept {a s} (h : Kept a s) (n) (x) : Kept a (State.setLane s n x) := by
  unfold State.setLane; try dsimp only
  repeat' (first | (with_reducible first | assumption) | simp only [Kept.upd])

theorem State.eyeAbort_kept {a s} (h : Kept a s) (n) : Kept a (State.eyeAbort s n) := by
  unfold State.eyeAbort; try dsimp only
  repeat' (
    first
    | (with_reducible first
       | assumption | apply State.setObj_kept | apply State.setLane_kept | refine Kept.ite ?_ (fun _ => ?_))
    | simp only [Kept.upd]
    | (split <;> try dsimp only))

theorem State.hlDown_kept {a s} (h : Kept a s) (h') : Kept a (State.hlDown s h') := by
  unfold State.hlDown; try dsimp only
  repeat' (
    with_reducible first
    | assumption
    | apply State.setHeadDev_kept
    | apply State.calInterrupt_kept
    | apply State.eyeAbort_kept
    | apply State.headPortDown_kept
    | apply State.setBit_kept
    | apply State.setObj_kept
    | apply State.laneBits_kept)

theorem State.headLost_kept {a s} (h : Kept a s) (h') (cause) : Kept a (State.headLost s h' cause) := by
  unfold State.headLost; try dsimp only
  repeat' (
    with_reducible first
    | assumption
    | apply State.event_kept
    | apply State.hlDown_kept
    | apply State.setObj_kept
    | apply State.refreshSets_kept)

theorem State.headRefused_kept {a s} (h : Kept a s) (h') (cause) : Kept a (State.headRefused s h' cause) := by
  unfold State.headRefused; try dsimp only
  repeat' (with_reducible first | assumption | apply State.setObj_kept | apply State.event_kept | apply State.hlDown_kept)

theorem State.signalDetect_kept {a s} (h : Kept a s) (h') : Kept a (State.signalDetect s h') := by
  unfold State.signalDetect; try dsimp only
  repeat' (
    first
    | (with_reducible first
       | assumption | apply State.laneBits_kept | apply State.setHeadDev_kept | refine Kept.ite ?_ (fun _ => ?_))
    | simp only [Kept.upd]
    | (split <;> try dsimp only))

theorem State.blockLock_kept {a s} (h : Kept a s) (h') : Kept a (State.blockLock s h') := by
  unfold State.blockLock; try dsimp only
  repeat' (
    first
    | (with_reducible first
       | assumption | apply State.setHeadDev_kept | apply State.setBit_kept | apply State.setObj_kept
       | apply State.laneBits_kept | refine Kept.ite ?_ (fun _ => ?_))
    | simp only [Kept.upd]
    | (split <;> try dsimp only))

theorem State.blockLockLoss_kept {a s} (h : Kept a s) (h') : Kept a (State.blockLockLoss s h') := by
  unfold State.blockLockLoss; try dsimp only
  repeat' (
    first
    | (with_reducible first
       | assumption | apply State.headLost_kept | apply State.count_kept | refine Kept.ite ?_ (fun _ => ?_))
    | (split <;> try dsimp only))

theorem State.trainDone_kept {a s} (h : Kept a s) (h') : Kept a (State.trainDone s h') := by
  unfold State.trainDone; try dsimp only
  repeat' (
    first
    | (with_reducible first
       | assumption | apply State.setHeadDev_kept | apply State.laneBits_kept | apply State.setBit_kept
       | refine Kept.ite ?_ (fun _ => ?_))
    | simp only [Kept.upd]
    | (split <;> try dsimp only))

theorem State.trainSend_kept {a s} (h : Kept a s) (h') : Kept a (State.trainSend s h') := by
  unfold State.trainSend; try dsimp only
  repeat' (
    first
    | (with_reducible first
       | assumption | apply State.drawNat_kept | apply State.setHeadDev_kept | apply State.hlTx_kept
       | apply State.trainDone_kept | refine Kept.ite ?_ (fun _ => ?_))
    | simp only [Kept.upd]
    | (split <;> try dsimp only))

theorem State.hlFrame_kept {a} {s} {f} (h : Kept a s) (h1 : ∀ y0, Kept a y0 → Kept a (f y0)) (h') (n) (body) : Kept a
    (State.hlFrame s h' n body f) := by
  unfold State.hlFrame; try dsimp only
  repeat' (
    first
    | (with_reducible first
       | assumption | apply h1 | apply State.count_kept | refine Kept.ite ?_ (fun _ => ?_))
    | (split <;> try dsimp only))

theorem State.trainReceive_kept {a s} (h : Kept a s) (h') (body) : Kept a (State.trainReceive s h' body) := by
  unfold State.trainReceive; try dsimp only
  repeat' (
    first
    | (with_reducible first
       | assumption | apply State.hlFrame_kept | apply State.setObj_kept | apply State.setHeadDev_kept
       | apply State.trainDone_kept | refine Kept.ite ?_ (fun _ => ?_))
    | (intro _; try dsimp only)
    | (split <;> try dsimp only))

theorem State.trainFail_kept {a s} (h : Kept a s) (h') : Kept a (State.trainFail s h') := by
  unfold State.trainFail; try dsimp only
  repeat' (
    first
    | (with_reducible first
       | assumption | apply State.event_kept | apply State.hlDown_kept | apply State.setObj_kept | apply State.setHeadDev_kept
       | refine Kept.ite ?_ (fun _ => ?_))
    | simp only [Kept.upd]
    | (split <;> try dsimp only))

theorem State.ctlResend_kept {a s} (h : Kept a s) (h') : Kept a (State.ctlResend s h') := by
  unfold State.ctlResend; try dsimp only
  repeat' (
    first
    | (with_reducible first
       | assumption | apply State.headLost_kept | apply State.hlTx_kept | apply State.setHeadDev_kept
       | refine Kept.ite ?_ (fun _ => ?_))
    | simp only [Kept.upd]
    | (split <;> try dsimp only))

theorem State.plannedStop_kept {a s} (h : Kept a s) : Kept a (State.plannedStop s) := by
  unfold State.plannedStop; try dsimp only
  repeat' (first | (with_reducible first | assumption | apply State.setTwinState_kept) | simp only [Kept.upd])

theorem State.stepDown_kept {a s} (h : Kept a s) (epoch) : Kept a (State.stepDown s epoch) := by
  unfold State.stepDown; try dsimp only
  repeat' (
    first
    | (with_reducible first
       | assumption | apply State.plannedStop_kept | apply State.eventJ_kept | apply State.setTwinState_kept
       | refine Kept.ite ?_ (fun _ => ?_))
    | simp only [Kept.upd]
    | (split <;> try dsimp only))

theorem State.freshHead_kept {a s} (h : Kept a s) (h') : Kept a (State.freshHead s h') := by
  unfold State.freshHead; try dsimp only
  repeat' (
    first
    | (with_reducible first
       | assumption | apply State.setBlob_kept | apply State.clearWear_kept | apply State.setHeadDev_kept)
    | simp only [Kept.upd])

theorem State.enumReceive_kept {a s} (h : Kept a s) (h') (body) : Kept a (State.enumReceive s h' body) := by
  unfold State.enumReceive; try dsimp only
  repeat' (
    first
    | (with_reducible first
       | assumption | apply State.hlFrame_kept | apply State.headRefused_kept | apply State.setBlob_kept
       | apply State.freshHead_kept | apply State.setHeadDev_kept | apply State.ctlSend_kept
       | refine Kept.ite ?_ (fun _ => ?_))
    | simp only [Kept.upd]
    | (intro _; try dsimp only)
    | (split <;> try dsimp only))

theorem State.bringUp_kept {a s} (h : Kept a s) (h') (lock) (waveCrc) (trimCrc) (gen) : Kept a
    (State.bringUp s h' lock waveCrc trimCrc gen) := by
  unfold State.bringUp; try dsimp only
  repeat' (
    first
    | (with_reducible first
       | assumption | apply State.setHeadDev_kept | apply State.setObj_kept | apply State.event_kept
       | apply State.loadTrims_kept | apply State.loadWave_kept | apply State.ctlSend_kept | refine Kept.ite ?_ (fun _ => ?_))
    | simp only [Kept.upd]
    | (split <;> try dsimp only))

theorem State.addMod8_kept {a s} (h : Kept a s) (k) (prev) (new) : Kept a (State.addMod8 s k prev new) := by
  unfold State.addMod8; try dsimp only
  repeat' (with_reducible first | assumption | apply State.count_kept)

theorem State.hotReport_kept {a s} (h : Kept a s) (h') (lseq) (hot) : Kept a (State.hotReport s h' lseq hot) := by
  unfold State.hotReport; try dsimp only
  repeat' (
    first
    | (with_reducible first
       | assumption | apply State.setHeadDev_kept | apply State.setObj_kept | apply State.headHot_kept
       | refine Kept.ite ?_ (fun _ => ?_))
    | simp only [Kept.upd]
    | (split <;> try dsimp only))

theorem State.sf1Report_kept {a s} (h : Kept a s) (h') (temp) : Kept a (State.sf1Report s h' temp) := by
  unfold State.sf1Report; try dsimp only
  repeat' (
    first
    | (with_reducible first
       | assumption | apply State.latch_kept | apply State.condEnd_kept | refine Kept.ite ?_ (fun _ => ?_))
    | simp only [Kept.upd]
    | (split <;> try dsimp only))

theorem State.serviceReport_kept {a s} (h : Kept a s) (h') (inService) : Kept a (State.serviceReport s h' inService) := by
  unfold State.serviceReport; try dsimp only
  repeat' (
    first
    | (with_reducible first
       | assumption | apply State.setHeadDev_kept | apply State.setObj_kept | apply State.event_kept
       | refine Kept.ite ?_ (fun _ => ?_))
    | simp only [Kept.upd]
    | (split <;> try dsimp only))

theorem State.portReport_kept {a s} (h : Kept a s) (h') (port) (epoch) : Kept a (State.portReport s h' port epoch) := by
  unfold State.portReport; try dsimp only
  repeat' (
    first
    | (with_reducible first
       | assumption | apply State.setHeadDev_kept | apply State.event_kept | refine Kept.ite ?_ (fun _ => ?_))
    | simp only [Kept.upd]
    | (split <;> try dsimp only))

theorem State.telemetry_kept {a s} (h : Kept a s) (h') (body) : Kept a (State.telemetry s h' body) := by
  unfold State.telemetry; try dsimp only
  repeat' (
    first
    | (with_reducible first
       | assumption | apply State.hlFrame_kept | apply State.setObj_kept | apply State.addMod8_kept
       | apply State.setHeadDev_kept | apply State.ctlNext_kept | apply State.portReport_kept | apply State.bringUp_kept
       | apply State.serviceReport_kept | apply State.sf1Report_kept | apply State.hotReport_kept | apply State.event_kept
       | apply State.refreshSets_kept | apply State.stepDown_kept | refine Kept.ite ?_ (fun _ => ?_))
    | simp only [Kept.upd]
    | (intro _; try dsimp only)
    | (split <;> try dsimp only))

theorem State.teleTimeout_kept {a s} (h : Kept a s) (h') : Kept a (State.teleTimeout s h') := by
  unfold State.teleTimeout; try dsimp only
  repeat' (
    first
    | (with_reducible first
       | assumption | apply State.headLost_kept | refine Kept.ite ?_ (fun _ => ?_))
    | (split <;> try dsimp only))

theorem State.timeSend_kept {a s} (h : Kept a s) (h') : Kept a (State.timeSend s h') := by
  unfold State.timeSend; try dsimp only
  repeat' (
    first
    | (with_reducible first
       | assumption | apply State.setHeadDev_kept | apply State.hlTx_kept | refine Kept.ite ?_ (fun _ => ?_))
    | simp only [Kept.upd]
    | (split <;> try dsimp only))

theorem State.timeErrReport_kept {a s} (h : Kept a s) (h') (err) : Kept a (State.timeErrReport s h' err) := by
  unfold State.timeErrReport; try dsimp only
  repeat' (
    first
    | (with_reducible first
       | assumption | apply State.event_kept | apply State.setHeadDev_kept | refine Kept.ite ?_ (fun _ => ?_))
    | simp only [Kept.upd]
    | (split <;> try dsimp only))

theorem State.echo_kept {a s} (h : Kept a s) (h') (body) (rtt) : Kept a (State.echo s h' body rtt) := by
  unfold State.echo; try dsimp only
  repeat' (
    first
    | (with_reducible first
       | assumption | apply State.hlFrame_kept | apply State.setObj_kept | apply State.timeErrReport_kept
       | apply State.count_kept | apply State.setHeadDev_kept | apply State.headRefused_kept
       | refine Kept.ite ?_ (fun _ => ?_))
    | simp only [Kept.upd]
    | (intro _; try dsimp only)
    | (split <;> try dsimp only))

theorem State.releaseHead_kept {a s} (h : Kept a s) (h') : Kept a (State.releaseHead s h') := by
  unfold State.releaseHead; try dsimp only
  repeat' (
    first
    | (with_reducible first
       | assumption | apply State.hlTx_kept | refine Kept.ite ?_ (fun _ => ?_))
    | (split <;> try dsimp only))

theorem State.hlEnable_kept {a s} (h : Kept a s) (h') (v) : Kept a (State.hlEnable s h' v).1 := by
  unfold State.hlEnable; try dsimp only
  repeat' (
    first
    | (with_reducible first
       | assumption | apply State.releaseHead_kept | apply State.setObj_kept | apply State.refreshSets_kept
       | apply State.hlDown_kept | refine Kept.ite ?_ (fun _ => ?_) | refine Kept.iteOf Prod.fst ?_ ?_)
    | (split <;> try dsimp only))

theorem State.sendHotLimit_kept {a s} (h : Kept a s) (h') : Kept a (State.sendHotLimit s h') := by
  unfold State.sendHotLimit; try dsimp only
  repeat' (
    first
    | (with_reducible first
       | assumption | apply State.ctlSend_kept | refine Kept.ite ?_ (fun _ => ?_))
    | (split <;> try dsimp only))

theorem State.headAuth_kept {a s} (h : Kept a s) (h') (p) (body) : Kept a (State.headAuth s h' p body) := by
  unfold State.headAuth; try dsimp only
  repeat' (
    first
    | (with_reducible first
       | assumption | apply State.setHeadSide_kept | refine Kept.ite ?_ (fun _ => ?_))
    | (split <;> try dsimp only))

theorem State.headLapse_kept {a s} (h : Kept a s) (h') (p) : Kept a (State.headLapse s h' p) := by
  unfold State.headLapse; try dsimp only
  repeat' (
    first
    | (with_reducible first
       | assumption | apply State.setHeadSide_kept | refine Kept.ite ?_ (fun _ => ?_))
    | simp only [Kept.upd]
    | (split <;> try dsimp only))

theorem State.headTime_kept {a s} (h : Kept a s) (h') (p) (body) (errPs) : Kept a (State.headTime s h' p body errPs) := by
  unfold State.headTime; try dsimp only
  repeat' (
    first
    | (with_reducible first
       | assumption | apply State.setHeadSide_kept | apply State.drawNat_kept | apply State.emit_kept
       | refine Kept.ite ?_ (fun _ => ?_))
    | simp only [Kept.upd]
    | (split <;> try dsimp only))

theorem State.headLineData_kept {a s} (h : Kept a s) (h') (p) (body) : Kept a (State.headLineData s h' p body) := by
  unfold State.headLineData; try dsimp only
  repeat' (
    first
    | (with_reducible first
       | assumption | apply State.setHeadSide_kept | refine Kept.ite ?_ (fun _ => ?_))
    | simp only [Kept.upd]
    | (split <;> try dsimp only))

theorem State.headFireTime_kept {a s} (h : Kept a s) (h') (p) (body) : Kept a (State.headFireTime s h' p body) := by
  unfold State.headFireTime; try dsimp only
  repeat' (
    first
    | (with_reducible first
       | assumption | apply State.setHeadSide_kept | refine Kept.ite ?_ (fun _ => ?_))
    | simp only [Kept.upd]
    | (split <;> try dsimp only))

theorem State.fireRow_kept {a s} (h : Kept a s) (h') (x) (c) (r) (t) : Kept a (State.fireRow s h' x c r t).1 := by
  unfold State.fireRow; try dsimp only
  repeat' (
    first
    | (with_reducible first
       | assumption | apply State.emit_kept | refine Kept.ite ?_ (fun _ => ?_) | refine Kept.iteOf Prod.fst ?_ ?_
       | apply Kept.fold | apply Kept.foldOf Prod.fst)
    | simp only [Kept.upd]
    | (intro _; try dsimp only)
    | (split <;> try dsimp only))

theorem State.headCommit_kept {a s} (h : Kept a s) (h') (lseq) : Kept a (State.headCommit s h' lseq) := by
  unfold State.headCommit; try dsimp only
  repeat' (
    first
    | (with_reducible first
       | assumption | apply State.setHeadSide_kept | apply State.fireRow_kept | refine Kept.ite ?_ (fun _ => ?_))
    | simp only [Kept.upd]
    | (split <;> try dsimp only))

theorem State.headRowFire_kept {a s} (h : Kept a s) (h') (lseq) (r) : Kept a (State.headRowFire s h' lseq r) := by
  unfold State.headRowFire; try dsimp only
  repeat' (
    first
    | (with_reducible first
       | assumption | apply State.fireRow_kept | apply State.setHeadSide_kept | refine Kept.ite ?_ (fun _ => ?_))
    | (split <;> try dsimp only))

theorem State.headTable_kept {a s} (h : Kept a s) (h') (p) (body) : Kept a (State.headTable s h' p body) := by
  unfold State.headTable; try dsimp only
  repeat' (
    first
    | (with_reducible first
       | assumption | apply State.setHeadSide_kept | refine Kept.ite ?_ (fun _ => ?_))
    | simp only [Kept.upd]
    | (split <;> try dsimp only))

theorem State.headCtl_kept {a s} (h : Kept a s) (h') (p) (cseq) (obeyed) (f) : Kept a (State.headCtl s h' p cseq obeyed f) := by
  unfold State.headCtl; try dsimp only
  repeat' (
    first
    | (with_reducible first
       | assumption | apply State.setHeadSide_kept | refine Kept.ite ?_ (fun _ => ?_))
    | simp only [Kept.upd]
    | (split <;> try dsimp only))

theorem State.headAssign_kept {a s} (h : Kept a s) (h') (p) (cseq) (n) : Kept a (State.headAssign s h' p cseq n) := by
  unfold State.headAssign; try dsimp only
  repeat' (
    first
    | (with_reducible first
       | assumption | apply State.setHeadSide_kept | refine Kept.ite ?_ (fun _ => ?_))
    | simp only [Kept.upd]
    | (split <;> try dsimp only))

theorem State.headHotEnter_kept {a s} (h : Kept a s) (h') (temp) : Kept a (State.headHotEnter s h' temp) := by
  unfold State.headHotEnter; try dsimp only
  repeat' (first | (with_reducible first | assumption | apply State.setHeadSide_kept) | simp only [Kept.upd])

theorem State.headEnum_kept {a s} (h : Kept a s) (h') (p) : Kept a (State.headEnum s h' p) := by
  unfold State.headEnum; try dsimp only
  repeat' (
    first
    | (with_reducible first
       | assumption | apply State.emit_kept | apply State.setHeadSide_kept | refine Kept.ite ?_ (fun _ => ?_))
    | simp only [Kept.upd]
    | (split <;> try dsimp only))

theorem State.headTele_kept {a s} (h : Kept a s) (h') (p) : Kept a (State.headTele s h' p) := by
  unfold State.headTele; try dsimp only
  repeat' (
    first
    | (with_reducible first
       | assumption | apply State.emit_kept | apply State.setHeadSide_kept | refine Kept.ite ?_ (fun _ => ?_))
    | simp only [Kept.upd]
    | (split <;> try dsimp only))

theorem State.retrainHead_kept {a s} (h : Kept a s) (h') : Kept a (State.retrainHead s h') := by
  unfold State.retrainHead; try dsimp only
  repeat' (
    first
    | (with_reducible first
       | assumption | apply State.laneBits_kept | apply State.hlDown_kept | apply State.setHeadDev_kept
       | apply State.setBit_kept | apply State.setObj_kept | apply State.refreshSets_kept | refine Kept.ite ?_ (fun _ => ?_))
    | simp only [Kept.upd]
    | (split <;> try dsimp only))

theorem State.laneRetrain_kept {a s} (h : Kept a s) (n) : Kept a (State.laneRetrain s n).1 := by
  unfold State.laneRetrain; try dsimp only
  repeat' (
    first
    | (with_reducible first
       | assumption | apply State.calInterrupt_kept | apply State.laneBits_kept | apply State.retrainHead_kept
       | apply State.twinLaneDown_kept | apply State.eyeAbort_kept | apply State.emit_kept | refine Kept.ite ?_ (fun _ => ?_)
       | refine Kept.iteOf Prod.fst ?_ ?_)
    | (split <;> try dsimp only))

theorem State.retrainIdle_kept {a s} (h : Kept a s) (n) : Kept a (State.retrainIdle s n) := by
  unfold State.retrainIdle; try dsimp only
  repeat' (
    first
    | (with_reducible first
       | assumption | apply State.retrainHead_kept | refine Kept.ite ?_ (fun _ => ?_))
    | (split <;> try dsimp only))

theorem State.laneSlip_kept {a s} (h : Kept a s) (n) : Kept a (State.laneSlip s n).1 := by
  unfold State.laneSlip; try dsimp only
  repeat' (
    first
    | (with_reducible first
       | assumption | apply State.setLane_kept | refine Kept.ite ?_ (fun _ => ?_) | refine Kept.iteOf Prod.fst ?_ ?_)
    | simp only [Kept.upd]
    | (split <;> try dsimp only))

theorem State.eyeStart_kept {a s} (h : Kept a s) (n) (v) : Kept a (State.eyeStart s n v).1 := by
  unfold State.eyeStart; try dsimp only
  repeat' (
    first
    | (with_reducible first
       | assumption | apply State.setObj_kept | apply State.setLane_kept | refine Kept.ite ?_ (fun _ => ?_)
       | refine Kept.iteOf Prod.fst ?_ ?_)
    | simp only [Kept.upd]
    | (split <;> try dsimp only))

theorem State.eyeEnd_kept {a s} (h : Kept a s) (n) (complete) (dis) : Kept a (State.eyeEnd s n complete dis) := by
  unfold State.eyeEnd; try dsimp only
  repeat' (
    first
    | (with_reducible first
       | assumption | apply State.eyeAbort_kept | apply State.setLane_kept | apply State.setObj_kept
       | apply State.setBlob_kept | apply State.setBit_kept | apply State.event_kept | refine Kept.ite ?_ (fun _ => ?_))
    | simp only [Kept.upd]
    | (split <;> try dsimp only))

theorem State.prbsSync_kept {a s} (h : Kept a s) (n) : Kept a (State.prbsSync s n) := by
  unfold State.prbsSync; try dsimp only
  repeat' (
    first
    | (with_reducible first
       | assumption | apply State.count_kept | apply State.setLane_kept | refine Kept.ite ?_ (fun _ => ?_))
    | simp only [Kept.upd]
    | (split <;> try dsimp only))

theorem State.prbsUnlock_kept {a s} (h : Kept a s) (n) : Kept a (State.prbsUnlock s n) := by
  unfold State.prbsUnlock; try dsimp only
  repeat' (with_reducible first | assumption | apply State.setBit_kept | apply State.prbsSync_kept)

theorem State.laneModeSet_kept {a s} (h : Kept a s) (n) (v) (tr) : Kept a (State.laneModeSet s n v tr).1 := by
  unfold State.laneModeSet; try dsimp only
  repeat' (
    first
    | (with_reducible first
       | assumption | apply State.prbsUnlock_kept | apply State.eyeAbort_kept | apply State.setBit_kept
       | apply State.setObj_kept | apply State.hlDown_kept | apply State.laneBits_kept | apply State.event_kept
       | refine Kept.ite ?_ (fun _ => ?_) | refine Kept.iteOf Prod.fst ?_ ?_)
    | (split <;> try dsimp only))

theorem State.laneLoopSet_kept {a s} (h : Kept a s) (n) (v) : Kept a (State.laneLoopSet s n v).1 := by
  unfold State.laneLoopSet; try dsimp only
  repeat' (
    first
    | (with_reducible first
       | assumption | apply State.setObj_kept | apply State.prbsUnlock_kept | apply State.eyeAbort_kept
       | refine Kept.ite ?_ (fun _ => ?_) | refine Kept.iteOf Prod.fst ?_ ?_)
    | (split <;> try dsimp only))

theorem State.lanePat_kept {a s} (h : Kept a s) (n) (k) (v) : Kept a (State.lanePat s n k v).1 := by
  unfold State.lanePat; try dsimp only
  repeat' (
    first
    | (with_reducible first
       | assumption | apply State.setObj_kept | apply State.prbsUnlock_kept | refine Kept.ite ?_ (fun _ => ?_)
       | refine Kept.iteOf Prod.fst ?_ ?_)
    | (split <;> try dsimp only))

theorem State.laneRateSet_kept {a s} (h : Kept a s) (n) (v) : Kept a (State.laneRateSet s n v).1 := by
  unfold State.laneRateSet; try dsimp only
  repeat' (
    first
    | (with_reducible first
       | assumption | apply State.setObj_kept | apply State.prbsSync_kept | refine Kept.ite ?_ (fun _ => ?_)
       | refine Kept.iteOf Prod.fst ?_ ?_)
    | (split <;> try dsimp only))

theorem State.laneInjectSet_kept {a s} (h : Kept a s) (n) (v) : Kept a (State.laneInjectSet s n v).1 := by
  unfold State.laneInjectSet; try dsimp only
  repeat' (
    first
    | (with_reducible first
       | assumption | apply State.emit_kept | apply State.count_kept | apply State.prbsSync_kept
       | refine Kept.ite ?_ (fun _ => ?_) | refine Kept.iteOf Prod.fst ?_ ?_)
    | (split <;> try dsimp only))

theorem State.checkerLock_kept {a s} (h : Kept a s) (n) : Kept a (State.checkerLock s n) := by
  unfold State.checkerLock; try dsimp only
  repeat' (
    first
    | (with_reducible first
       | assumption | apply State.setBit_kept | apply State.setLane_kept | refine Kept.ite ?_ (fun _ => ?_))
    | simp only [Kept.upd]
    | (split <;> try dsimp only))

theorem State.checkerLoss_kept {a s} (h : Kept a s) (n) (bits) (errors) : Kept a (State.checkerLoss s n bits errors) := by
  unfold State.checkerLoss; try dsimp only
  repeat' (
    first
    | (with_reducible first
       | assumption | apply State.count_kept | apply State.prbsSync_kept | refine Kept.ite ?_ (fun _ => ?_))
    | (split <;> try dsimp only))

theorem State.setCam_kept {a s} (h : Kept a s) (c) (x) : Kept a (State.setCam s c x) := by
  unfold State.setCam; try dsimp only
  repeat' (first | (with_reducible first | assumption) | simp only [Kept.upd])

theorem frameBind_kept {a} {acc} (h : Kept a acc.st) (c) (job) (x) : Kept a (frameBind c job acc x).st := by
  unfold frameBind; try dsimp only
  repeat' (
    first
    | (with_reducible first
       | assumption | apply State.applyFrame_kept | apply State.mapPending_kept | apply State.finishSet_kept
       | refine Kept.ite ?_ (fun _ => ?_))
    | simp only [Kept.upd]
    | (split <;> try dsimp only))

theorem State.bindFrame_kept {a s} (h : Kept a s) (c) (job) : Kept a (State.bindFrame s c job) := by
  unfold State.bindFrame; try dsimp only
  repeat' (
    first
    | (with_reducible first
       | assumption | apply frameBind_kept | apply Kept.fold | apply Kept.foldOf Prod.fst | apply Kept.foldOf BindAcc.st
       | apply Kept.foldOf FrameAcc.st)
    | (intro _; try dsimp only))

theorem State.openPage_kept {a s} (h : Kept a s) (c) (job) : Kept a (State.openPage s c job) := by
  unfold State.openPage; try dsimp only
  repeat' (
    first
    | (with_reducible first
       | assumption | refine Kept.ite ?_ (fun _ => ?_))
    | simp only [Kept.upd]
    | (split <;> try dsimp only))

theorem State.mapFrame_kept {a s} (h : Kept a s) (c) (number) (f) : Kept a (State.mapFrame s c number f) := by
  unfold State.mapFrame; try dsimp only
  repeat' (
    first
    | (with_reducible first
       | assumption | apply State.setCam_kept | refine Kept.ite ?_ (fun _ => ?_))
    | simp only [Kept.upd]
    | (split <;> try dsimp only))

theorem State.startFrame_kept {a s} (h : Kept a s) (c) (j) : Kept a (State.startFrame s c j) := by
  unfold State.startFrame; try dsimp only
  repeat' (
    first
    | (with_reducible first
       | assumption | apply State.openPage_kept | apply State.bindFrame_kept | apply State.setCam_kept
       | apply State.setObj_kept | apply State.event_kept | apply State.emit_kept | apply State.forward_kept
       | refine Kept.ite ?_ (fun _ => ?_))
    | (split <;> try dsimp only))

theorem State.closeFrame_kept {a s} (h : Kept a s) (c) (f) : Kept a (State.closeFrame s c f) := by
  unfold State.closeFrame; try dsimp only
  repeat' (
    first
    | (with_reducible first
       | assumption | apply State.setCam_kept | apply State.count_kept | apply State.event_kept
       | refine Kept.ite ?_ (fun _ => ?_))
    | simp only [Kept.upd]
    | (split <;> try dsimp only))

theorem State.camIsLost_kept {a s} (h : Kept a s) (c) (cause) : Kept a (State.camIsLost s c cause) := by
  unfold State.camIsLost; try dsimp only
  repeat' (
    first
    | (with_reducible first
       | assumption | apply State.setCam_kept | apply State.setObj_kept | apply State.event_kept | apply State.closeFrame_kept
       | apply Kept.fold | apply Kept.foldOf Prod.fst)
    | simp only [Kept.upd]
    | (intro _; try dsimp only)
    | (split <;> try dsimp only))

theorem State.camTrigger_kept {a s} (h : Kept a s) (c) : Kept a (State.camTrigger s c) := by
  unfold State.camTrigger; try dsimp only
  repeat' (
    first
    | (with_reducible first
       | assumption | apply State.setCam_kept | apply State.startFrame_kept | apply State.closeFrame_kept
       | apply State.jumpPhase_kept | apply State.emit_kept | apply State.mapFrame_kept | refine Kept.ite ?_ (fun _ => ?_)
       | apply Kept.fold | apply Kept.foldOf Prod.fst)
    | simp only [Kept.upd]
    | (intro _; try dsimp only)
    | (split <;> try dsimp only))

theorem State.camPacket_kept {a s} (h : Kept a s) (c) : Kept a (State.camPacket s c) := by
  unfold State.camPacket; try dsimp only
  repeat' (first | (with_reducible first | assumption | apply State.setCam_kept) | simp only [Kept.upd])

theorem State.camLine_kept {a s} (h : Kept a s) (c) (link) (px) (ok) : Kept a (State.camLine s c link px ok) := by
  unfold State.camLine; try dsimp only
  repeat' (
    first
    | (with_reducible first
       | assumption | apply State.camPacket_kept | apply State.count_kept | apply State.mapFrame_kept
       | refine Kept.ite ?_ (fun _ => ?_))
    | simp only [Kept.upd]
    | (split <;> try dsimp only))

theorem State.camClose_kept {a s} (h : Kept a s) (c) (marker) : Kept a (State.camClose s c marker) := by
  unfold State.camClose; try dsimp only
  repeat' (
    first
    | (with_reducible first
       | assumption | apply State.closeFrame_kept | apply State.camPacket_kept | refine Kept.ite ?_ (fun _ => ?_))
    | (split <;> try dsimp only))

theorem State.camTimeout_kept {a s} (h : Kept a s) (c) : Kept a (State.camTimeout s c) := by
  unfold State.camTimeout; try dsimp only
  repeat' (
    first
    | (with_reducible first
       | assumption | apply State.camIsLost_kept | refine Kept.ite ?_ (fun _ => ?_))
    | (split <;> try dsimp only))

theorem State.camUnlock_kept {a s} (h : Kept a s) (c) (link) : Kept a (State.camUnlock s c link) := by
  unfold State.camUnlock; try dsimp only
  repeat' (
    first
    | (with_reducible first
       | assumption | apply State.calInterrupt_kept | apply State.eyeAbort_kept | apply State.count_kept
       | apply State.laneBits_kept | apply State.camIsLost_kept | refine Kept.ite ?_ (fun _ => ?_))
    | (split <;> try dsimp only))

theorem State.camEnableSet_kept {a s} (h : Kept a s) (c) (v) : Kept a (State.camEnableSet s c v).1 := by
  unfold State.camEnableSet; try dsimp only
  repeat' (
    first
    | (with_reducible first
       | assumption | apply State.camIsLost_kept | apply State.setCam_kept | apply State.setObj_kept
       | refine Kept.ite ?_ (fun _ => ?_) | refine Kept.iteOf Prod.fst ?_ ?_)
    | simp only [Kept.upd]
    | (split <;> try dsimp only))

theorem State.camDiscovered_kept {a s} (h : Kept a s) (c) (d) : Kept a (State.camDiscovered s c d) := by
  unfold State.camDiscovered; try dsimp only
  repeat' (
    first
    | (with_reducible first
       | assumption | apply State.event_kept | apply State.setObj_kept | apply State.laneBits_kept
       | refine Kept.ite ?_ (fun _ => ?_) | apply Kept.fold | apply Kept.foldOf Prod.fst)
    | (intro _; try dsimp only)
    | (split <;> try dsimp only))

theorem State.camAcquireSet_kept {a s} (h : Kept a s) (c) : Kept a (State.camAcquireSet s c).1 := by
  unfold State.camAcquireSet; try dsimp only
  repeat' (
    first
    | (with_reducible first
       | assumption | apply State.setCam_kept | apply State.setObj_kept | refine Kept.ite ?_ (fun _ => ?_)
       | refine Kept.iteOf Prod.fst ?_ ?_)
    | simp only [Kept.upd]
    | (split <;> try dsimp only))

theorem State.camRequest_kept {a s} (h : Kept a s) (c) (op) (tag) (data) : Kept a (State.camRequest s c op tag data) := by
  unfold State.camRequest; try dsimp only
  repeat' (with_reducible first | assumption | apply State.emit_kept)

theorem State.camRegOp_kept {a s} (h : Kept a s) (c) (op) : Kept a (State.camRegOp s c op).1 := by
  unfold State.camRegOp; try dsimp only
  repeat' (
    first
    | (with_reducible first
       | assumption | apply State.setCam_kept | apply State.camRequest_kept | apply State.setObj_kept
       | refine Kept.ite ?_ (fun _ => ?_) | refine Kept.iteOf Prod.fst ?_ ?_)
    | simp only [Kept.upd]
    | (split <;> try dsimp only))

theorem State.camAck_kept {a s} (h : Kept a s) (c) (tag) (ok) (data) : Kept a (State.camAck s c tag ok data) := by
  unfold State.camAck; try dsimp only
  repeat' (
    first
    | (with_reducible first
       | assumption | apply State.setCam_kept | apply State.setBlob_kept | apply State.setObj_kept
       | refine Kept.ite ?_ (fun _ => ?_))
    | simp only [Kept.upd]
    | (split <;> try dsimp only))

theorem State.camRetry_kept {a s} (h : Kept a s) (c) : Kept a (State.camRetry s c) := by
  unfold State.camRetry; try dsimp only
  repeat' (
    first
    | (with_reducible first
       | assumption | apply State.setObj_kept | apply State.setCam_kept | apply State.camRequest_kept
       | refine Kept.ite ?_ (fun _ => ?_))
    | simp only [Kept.upd]
    | (split <;> try dsimp only))

theorem State.camEvent_kept {a s} (h : Kept a s) (c) (ev) (data) : Kept a (State.camEvent s c ev data) := by
  unfold State.camEvent; try dsimp only
  repeat' (
    first
    | (with_reducible first
       | assumption | apply State.push_kept | apply State.camPacket_kept | refine Kept.ite ?_ (fun _ => ?_))
    | (split <;> try dsimp only))

theorem State.pairStatus_kept {a s} (h : Kept a s) (h') (c) (st) (job) (loss) : Kept a (State.pairStatus s h' c st job loss) := by
  unfold State.pairStatus; try dsimp only
  repeat' (
    first
    | (with_reducible first
       | assumption | apply State.deviceStatus_kept | apply Kept.fold | apply Kept.foldOf Prod.fst)
    | (intro _; try dsimp only))

theorem State.pairGood_kept {a s} (h : Kept a s) (h') (c) (job) : Kept a (State.pairGood s h' c job) := by
  unfold State.pairGood; try dsimp only
  repeat' (
    with_reducible first
    | assumption
    | apply State.setPair_kept
    | apply State.pairStatus_kept
    | apply State.withdrawNozzle_kept)

theorem State.toDead_kept {a s} (h : Kept a s) (h') (n) (job) (loss) : Kept a (State.toDead s h' n job loss) := by
  unfold State.toDead; try dsimp only
  repeat' (
    first
    | (with_reducible first
       | assumption | apply State.propose_kept | apply State.deadDue_kept | refine Kept.ite ?_ (fun _ => ?_))
    | (split <;> try dsimp only))

theorem State.deadAll_kept {a s} (h : Kept a s) (h') (c) (ns) (job) (loss) : Kept a (State.deadAll s h' c ns job loss) := by
  unfold State.deadAll; try dsimp only
  repeat' (
    first
    | (with_reducible first
       | assumption | apply State.toDead_kept | apply State.setPair_kept | refine Kept.ite ?_ (fun _ => ?_) | apply Kept.fold
       | apply Kept.foldOf Prod.fst)
    | simp only [Kept.upd]
    | (intro _; try dsimp only)
    | (split <;> try dsimp only))

theorem State.probeResult_kept {a s} (h : Kept a s) (h') (c) (job) (loss) (res) : Kept a
    (State.probeResult s h' c job loss res) := by
  unfold State.probeResult; try dsimp only
  repeat' (with_reducible first | assumption | apply State.eventJ_kept)

theorem State.probeJudged_kept {a s} (h : Kept a s) (h') (c) (job) (loss) : Kept a (State.probeJudged s h' c job loss) := by
  unfold State.probeJudged; try dsimp only
  repeat' (
    first
    | (with_reducible first
       | assumption | apply State.probeResult_kept | apply State.deviceStatus_kept | apply State.deadAll_kept
       | refine Kept.ite ?_ (fun _ => ?_))
    | (split <;> try dsimp only))

theorem State.judgePair_kept {a s} (h : Kept a s) (h') (c) (job) (band) (loss) : Kept a (State.judgePair s h' c job band loss) := by
  unfold State.judgePair; try dsimp only
  repeat' (
    first
    | (with_reducible first
       | assumption | apply State.setPair_kept | apply State.probeJudged_kept | apply State.pairStatus_kept
       | apply State.deadAll_kept | apply State.pairGood_kept | refine Kept.ite ?_ (fun _ => ?_))
    | simp only [Kept.upd]
    | (split <;> try dsimp only))

theorem State.repeatProbes_kept {a s} (h : Kept a s) (job) (ks) : Kept a (State.repeatProbes s job ks) := by
  unfold State.repeatProbes; try dsimp only
  repeat' (
    first
    | (with_reducible first
       | assumption | apply State.probeResult_kept | apply State.setPair_kept | apply Kept.fold | apply Kept.foldOf Prod.fst)
    | simp only [Kept.upd]
    | (intro _; try dsimp only))

theorem State.bandEvidence_kept {a s} (h : Kept a s) (job) (band) (susp) (judged) (whole) : Kept a
    (State.bandEvidence s job band susp judged whole) := by
  unfold State.bandEvidence; try dsimp only
  repeat' (
    first
    | (with_reducible first
       | assumption | apply State.count_kept | apply State.repeatProbes_kept | apply State.judgePair_kept
       | refine Kept.ite ?_ (fun _ => ?_) | apply Kept.fold | apply Kept.foldOf Prod.fst)
    | (intro _; try dsimp only)
    | (split <;> try dsimp only))

theorem State.agePairs_kept {a s} (h : Kept a s) (job) (mask) (judged) : Kept a (State.agePairs s job mask judged) := by
  unfold State.agePairs; try dsimp only
  repeat' (
    first
    | (with_reducible first
       | assumption | apply State.pairGood_kept | apply State.setPair_kept | refine Kept.ite ?_ (fun _ => ?_)
       | apply Kept.fold | apply Kept.foldOf Prod.fst)
    | simp only [Kept.upd]
    | (intro _; try dsimp only)
    | (split <;> try dsimp only))

theorem State.evidLost_kept {a s} (h : Kept a s) : Kept a (State.evidLost s) := by
  unfold State.evidLost; try dsimp only
  repeat' (
    first
    | (with_reducible first
       | assumption | apply State.count_kept | apply State.event_kept | refine Kept.ite ?_ (fun _ => ?_))
    | simp only [Kept.upd]
    | (split <;> try dsimp only))

theorem State.evidPut_kept {a s} (h : Kept a s) (stream) (data) : Kept a (State.evidPut s stream data).1 := by
  unfold State.evidPut; try dsimp only
  repeat' (
    first
    | (with_reducible first
       | assumption | apply State.evidLost_kept | apply State.dramPut_kept | apply State.setObj_kept
       | refine Kept.ite ?_ (fun _ => ?_) | refine Kept.iteOf Prod.fst ?_ ?_)
    | (split <;> try dsimp only))

theorem State.evidFree_kept {a s} (h : Kept a s) (v) : Kept a (State.evidFree s v).1 := by
  unfold State.evidFree; try dsimp only
  repeat' (
    first
    | (with_reducible first
       | assumption | apply State.setObj_kept | refine Kept.ite ?_ (fun _ => ?_) | refine Kept.iteOf Prod.fst ?_ ?_)
    | simp only [Kept.upd]
    | (split <;> try dsimp only))

theorem State.queueBlock_kept {a s} (h : Kept a s) (b) : Kept a (State.queueBlock s b) := by
  unfold State.queueBlock; try dsimp only
  repeat' (
    first
    | (with_reducible first
       | assumption | refine Kept.ite ?_ (fun _ => ?_))
    | simp only [Kept.upd]
    | (split <;> try dsimp only))

theorem State.streamBlock_kept {a s} (h : Kept a s) (i) : Kept a (State.streamBlock s i) := by
  unfold State.streamBlock; try dsimp only
  repeat' (
    first
    | (with_reducible first
       | assumption | apply State.evidLost_kept | apply State.evidPut_kept | apply State.push_kept
       | refine Kept.ite ?_ (fun _ => ?_))
    | simp only [Kept.upd]
    | (split <;> try dsimp only))

theorem State.postStats_kept {a s} (h : Kept a s) (c) (f) : Kept a (State.postStats s c f) := by
  unfold State.postStats; try dsimp only
  repeat' (
    first
    | (with_reducible first
       | assumption | apply State.setCam_kept | apply State.evidPut_kept | apply State.push_kept
       | refine Kept.ite ?_ (fun _ => ?_))
    | simp only [Kept.upd]
    | (split <;> try dsimp only))

theorem State.flushStats_kept {a s} (h : Kept a s) : Kept a (State.flushStats s) := by
  unfold State.flushStats; try dsimp only
  repeat' (
    first
    | (with_reducible first
       | assumption | apply State.postStats_kept | apply Kept.fold | apply Kept.foldOf Prod.fst)
    | (intro _; try dsimp only))

theorem State.mapPage_kept {a s} (h : Kept a s) (id) (f) : Kept a (State.mapPage s id f) := by
  unfold State.mapPage; try dsimp only
  repeat' (
    first
    | (with_reducible first
       | assumption | refine Kept.ite ?_ (fun _ => ?_))
    | simp only [Kept.upd]
    | (split <;> try dsimp only))

theorem State.postBand_kept {a s} (h : Kept a s) (j) (k) (l0) (l1) (b) : Kept a (State.postBand s j k l0 l1 b) := by
  unfold State.postBand; try dsimp only
  repeat' (
    first
    | (with_reducible first
       | assumption | apply State.evidPut_kept | apply State.push_kept | apply State.count_kept
       | refine Kept.ite ?_ (fun _ => ?_) | apply Kept.fold | apply Kept.foldOf Prod.fst)
    | (intro _; try dsimp only)
    | (split <;> try dsimp only))

theorem State.bandDone_kept {a s} (h : Kept a s) : Kept a (State.bandDone s) := by
  unfold State.bandDone; try dsimp only
  repeat' (
    first
    | (with_reducible first
       | assumption | apply State.forward_kept | apply State.bandEvidence_kept | apply State.mapPage_kept
       | apply State.postBand_kept | refine Kept.ite ?_ (fun _ => ?_))
    | simp only [Kept.upd]
    | (split <;> try dsimp only))

theorem State.postReg_kept {a s} (h : Kept a s) (j) (v) : Kept a (State.postReg s j v) := by
  unfold State.postReg; try dsimp only
  repeat' (
    first
    | (with_reducible first
       | assumption | apply State.setBit_kept | apply State.event_kept | apply State.setObj_kept
       | refine Kept.ite ?_ (fun _ => ?_) | apply Kept.fold | apply Kept.foldOf Prod.fst)
    | simp only [Kept.upd]
    | (intro _; try dsimp only)
    | (split <;> try dsimp only))

theorem State.calResults_kept {a s} (h : Kept a s) (j) (e) (v) (ts) (b) : Kept a (State.calResults s j e v ts b) := by
  unfold State.calResults; try dsimp only
  repeat' (
    first
    | (with_reducible first
       | assumption | apply State.setObj_kept | apply State.setCalBar_kept | apply State.setCalUnit_kept
       | refine Kept.ite ?_ (fun _ => ?_) | apply Kept.fold | apply Kept.foldOf Prod.fst)
    | simp only [Kept.upd]
    | (intro _; try dsimp only)
    | (split <;> try dsimp only))

theorem State.densities_kept {a s} (h : Kept a s) (p) : Kept a (State.densities s p) := by
  unfold State.densities; try dsimp only
  repeat' (
    first
    | (with_reducible first
       | assumption | apply State.setObj_kept | refine Kept.ite ?_ (fun _ => ?_) | apply Kept.fold
       | apply Kept.foldOf Prod.fst)
    | (intro _; try dsimp only)
    | (split <;> try dsimp only))

theorem State.queueStreams_kept {a s} (h : Kept a s) (e) (v) : Kept a (State.queueStreams s e v) := by
  unfold State.queueStreams; try dsimp only
  repeat' (
    first
    | (with_reducible first
       | assumption | apply State.queueBlock_kept | refine Kept.ite ?_ (fun _ => ?_) | apply Kept.fold
       | apply Kept.foldOf Prod.fst)
    | simp only [Kept.upd]
    | (intro _; try dsimp only)
    | (split <;> try dsimp only))

theorem State.postVerdict_kept {a s} (h : Kept a s) (j) (p) : Kept a (State.postVerdict s j p) := by
  unfold State.postVerdict; try dsimp only
  repeat' (
    first
    | (with_reducible first
       | assumption | apply State.evidPut_kept | apply State.push_kept | apply State.journal_kept | apply State.count_kept
       | apply State.mapJob_kept | apply State.postReg_kept | apply State.forward_kept | apply State.calResults_kept
       | apply State.densities_kept | apply State.agePairs_kept | apply State.queueStreams_kept | apply State.forgetPage_kept
       | refine Kept.ite ?_ (fun _ => ?_) | apply Kept.fold | apply Kept.foldOf Prod.fst)
    | simp only [Kept.upd]
    | (intro _; try dsimp only)
    | (split <;> try dsimp only))
  exact h.drawn _ (Nat.le_add_right _ _)

theorem State.verdictDue_kept {a s} (h : Kept a s) : Kept a (State.verdictDue s) := by
  unfold State.verdictDue; try dsimp only
  repeat' (
    first
    | (with_reducible first
       | assumption | apply State.postVerdict_kept | apply State.flushStats_kept | refine Kept.ite ?_ (fun _ => ?_))
    | (split <;> try dsimp only))

end Sys2Proof.Machine
end

