-- ==== Sys2Proof/Laws/KeptDevice.lean ====
section
/-! SUPPORT. What every operation of the block keeps (`Kept`), one lemma per operation in the order of the model's files,
second half. -/

set_option linter.unusedTactic false
set_option linter.unreachableTactic false
set_option linter.unusedSimpArgs false

namespace Sys2Proof.Machine

theorem State.calStart_kept {a s} (h : Kept a s) (cls) (inst) : Kept a (State.calStart s cls inst) := by
  unfold State.calStart; try dsimp only
  repeat' (with_reducible first | assumption | apply State.setCalUnit_kept | apply State.setCalState_kept)

theorem State.calDue_kept {a s} (h : Kept a s) (cls) (inst) : Kept a (State.calDue s cls inst) := by
  unfold State.calDue; try dsimp only
  repeat' (
    first
    | (with_reducible first
       | assumption | apply State.calStart_kept | apply State.setCalState_kept | refine Kept.ite ?_ (fun _ => ?_))
    | (split <;> try dsimp only))

theorem State.calRunSet_kept {a s} (h : Kept a s) (v) : Kept a (State.calRunSet s v).1 := by
  unfold State.calRunSet; try dsimp only
  repeat' (
    first
    | (with_reducible first
       | assumption | apply State.setCalUnit_kept | apply State.setCalState_kept | refine Kept.ite ?_ (fun _ => ?_)
       | refine Kept.iteOf Prod.fst ?_ ?_)
    | simp only [Kept.upd]
    | (split <;> try dsimp only))

theorem State.calDisagrees_kept {a s} (h : Kept a s) (cls) (inst) (cause) (fails) (a') (b) : Kept a
    (State.calDisagrees s cls inst cause fails a' b) := by
  unfold State.calDisagrees; try dsimp only
  repeat' (
    first
    | (with_reducible first
       | assumption | apply State.event_kept | apply State.count_kept | apply State.latch_kept
       | refine Kept.ite ?_ (fun _ => ?_))
    | (split <;> try dsimp only))

theorem State.takePhase_kept {a s} (h : Kept a s) (n) (v) (restoring) : Kept a (State.takePhase s n v restoring) := by
  unfold State.takePhase; try dsimp only
  repeat' (
    first
    | (with_reducible first
       | assumption | apply State.calApplied_kept | apply State.setCalUnit_kept | apply State.jumpPhase_kept
       | refine Kept.ite ?_ (fun _ => ?_))
    | simp only [Kept.upd]
    | (split <;> try dsimp only))

theorem State.takeDelays_kept {a s} (h : Kept a s) (ch) (rank) : Kept a (State.takeDelays s ch rank) := by
  unfold State.takeDelays; try dsimp only
  repeat' (
    first
    | (with_reducible first
       | assumption | apply State.setBlob_kept | apply State.drawInt_kept | apply State.setCalUnit_kept
       | apply State.calApplied_kept | refine Kept.ite ?_ (fun _ => ?_))
    | simp only [Kept.upd]
    | (split <;> try dsimp only))

theorem State.dramTrained_kept {a s} (h : Kept a s) : Kept a (State.dramTrained s) := by
  unfold State.dramTrained; try dsimp only
  repeat' (
    first
    | (with_reducible first
       | assumption | apply State.setObj_kept | refine Kept.ite ?_ (fun _ => ?_))
    | (split <;> try dsimp only))

theorem State.takeSet_kept {a s} (h : Kept a s) (ch) (d) (restoring) : Kept a (State.takeSet s ch d restoring) := by
  unfold State.takeSet; try dsimp only
  repeat' (
    first
    | (with_reducible first
       | assumption | apply State.setCalUnit_kept | apply State.dramTrained_kept | apply State.takeDelays_kept
       | refine Kept.ite ?_ (fun _ => ?_))
    | simp only [Kept.upd]
    | (split <;> try dsimp only))

theorem State.correct_kept {a s} (h : Kept a s) (cls) (inst) (e) (job) : Kept a (State.correct s cls inst e job) := by
  unfold State.correct; try dsimp only
  repeat' (
    first
    | (with_reducible first
       | assumption | apply State.propose_kept | refine Kept.ite ?_ (fun _ => ?_))
    | simp only [Kept.upd]
    | (split <;> try dsimp only))

theorem State.calAccepts_kept {a s} (h : Kept a s) (cls) (inst) (a') (b) (t) : Kept a (State.calAccepts s cls inst a' b t) := by
  unfold State.calAccepts; try dsimp only
  repeat' (
    first
    | (with_reducible first
       | assumption | apply State.setCalUnit_kept | apply State.setCalState_kept | apply State.setObj_kept
       | apply State.takePhase_kept | apply State.takeSet_kept | apply State.correct_kept | refine Kept.ite ?_ (fun _ => ?_)
       | apply Kept.fold | apply Kept.foldOf Prod.fst)
    | simp only [Kept.upd]
    | (intro _; try dsimp only)
    | (split <;> try dsimp only))

theorem State.calResult_kept {a s} (h : Kept a s) (cls) (inst) (r) : Kept a (State.calResult s cls inst r) := by
  unfold State.calResult; try dsimp only
  repeat' (
    first
    | (with_reducible first
       | assumption | apply State.setCalUnit_kept | apply State.setCalState_kept | apply State.calInterrupt_kept
       | apply State.calDisagrees_kept | apply State.calAccepts_kept | refine Kept.ite ?_ (fun _ => ?_))
    | (split <;> try dsimp only))

theorem State.barResult_kept {a s} (h : Kept a s) (b) (e) (job) : Kept a (State.barResult s b e job) := by
  unfold State.barResult; try dsimp only
  repeat' (
    first
    | (with_reducible first
       | assumption | apply State.setCalBar_kept | apply State.setObj_kept | apply State.correct_kept
       | apply State.calDisagrees_kept | refine Kept.ite ?_ (fun _ => ?_))
    | simp only [Kept.upd]
    | (split <;> try dsimp only))

theorem State.calComplete_kept {a s} (h : Kept a s) (cls) (inst) (r) : Kept a (State.calComplete s cls inst r) := by
  unfold State.calComplete; try dsimp only
  repeat' (
    first
    | (with_reducible first
       | assumption | apply State.barResult_kept | apply State.setCalBar_kept | apply State.calResult_kept
       | refine Kept.ite ?_ (fun _ => ?_))
    | simp only [Kept.upd]
    | (split <;> try dsimp only))

theorem State.calRetry_kept {a s} (h : Kept a s) (cls) (inst) : Kept a (State.calRetry s cls inst) := by
  unfold State.calRetry; try dsimp only
  repeat' (
    first
    | (with_reducible first
       | assumption | apply State.calStart_kept | refine Kept.ite ?_ (fun _ => ?_))
    | (split <;> try dsimp only))

theorem State.calAcceptSet_kept {a s} (h : Kept a s) (q) : Kept a (State.calAcceptSet s q).1 := by
  unfold State.calAcceptSet; try dsimp only
  repeat' (
    first
    | (with_reducible first
       | assumption | apply State.withdraw_kept | apply State.deadDue_kept | refine Kept.ite ?_ (fun _ => ?_)
       | refine Kept.iteOf Prod.fst ?_ ?_)
    | simp only [Kept.upd]
    | (split <;> try dsimp only))

theorem State.calRejectSet_kept {a s} (h : Kept a s) (q) : Kept a (State.calRejectSet s q).1 := by
  unfold State.calRejectSet; try dsimp only
  repeat' (first | (with_reducible first | assumption | apply State.withdraw_kept) | (split <;> try dsimp only))

theorem State.calExpire_kept {a s} (h : Kept a s) (q) : Kept a (State.calExpire s q) := by
  unfold State.calExpire; try dsimp only
  repeat' (
    first
    | (with_reducible first
       | assumption | apply State.withdraw_kept | refine Kept.ite ?_ (fun _ => ?_))
    | (split <;> try dsimp only))

theorem State.restoreEntry_kept {a s} (h : Kept a s) (cls) (inst) (t) (v) : Kept a (State.restoreEntry s cls inst t v) := by
  unfold State.restoreEntry; try dsimp only
  repeat' (
    first
    | (with_reducible first
       | assumption | apply State.setObj_kept | apply State.drawNat_kept | apply State.setCalUnit_kept
       | apply State.setCalState_kept | apply State.takePhase_kept | apply State.takeSet_kept | apply State.calApplied_kept
       | refine Kept.ite ?_ (fun _ => ?_))
    | simp only [Kept.upd]
    | (split <;> try dsimp only))

theorem State.calRestoreSet_kept {a s} (h : Kept a s) (d) : Kept a (State.calRestoreSet s d).1 := by
  unfold State.calRestoreSet; try dsimp only
  repeat' (
    first
    | (with_reducible first
       | assumption | apply State.restoreEntry_kept | apply State.setObj_kept | refine Kept.ite ?_ (fun _ => ?_)
       | refine Kept.iteOf Prod.fst ?_ ?_ | apply Kept.fold | apply Kept.foldOf Prod.fst)
    | (intro _; try dsimp only)
    | (split <;> try dsimp only))

theorem State.postAnchor_kept {a s} (h : Kept a s) (x) : Kept a (State.postAnchor s x) := by
  unfold State.postAnchor; try dsimp only
  repeat' (with_reducible first | assumption | apply State.journal_kept | apply State.push_kept | apply State.setBlob_kept)

theorem State.tick_kept {a s} (h : Kept a s) : Kept a (State.tick s) := by
  unfold State.tick; try dsimp only
  repeat' (
    first
    | (with_reducible first
       | assumption | refine Kept.ite ?_ (fun _ => ?_))
    | simp only [Kept.upd]
    | (split <;> try dsimp only))

theorem State.timeAnchorDue_kept {a s} (h : Kept a s) : Kept a (State.timeAnchorDue s) := by
  unfold State.timeAnchorDue; try dsimp only
  repeat' (
    first
    | (with_reducible first
       | assumption | apply State.postAnchor_kept)
    | simp only [Kept.upd]
    | (split <;> try dsimp only))

theorem State.setPtp_kept {a s} (h : Kept a s) (d) (x) : Kept a (State.setPtp s d x) := by
  unfold State.setPtp; try dsimp only
  repeat' (
    first
    | (with_reducible first
       | assumption | refine Kept.ite ?_ (fun _ => ?_))
    | simp only [Kept.upd]
    | (split <;> try dsimp only))

theorem State.ptpState_kept {a s} (h : Kept a s) (d) (st) (cause) : Kept a (State.ptpState s d st cause) := by
  unfold State.ptpState; try dsimp only
  repeat' (
    first
    | (with_reducible first
       | assumption | apply State.setPtp_kept | apply State.event_kept | apply State.setObj_kept
       | refine Kept.ite ?_ (fun _ => ?_))
    | simp only [Kept.upd]
    | (split <;> try dsimp only))

theorem State.timeEval_kept {a s} (h : Kept a s) : Kept a (State.timeEval s) := by
  unfold State.timeEval; try dsimp only
  repeat' (
    first
    | (with_reducible first
       | assumption | apply State.setObj_kept | apply State.event_kept | apply State.count_kept
       | refine Kept.ite ?_ (fun _ => ?_))
    | simp only [Kept.upd]
    | (split <;> try dsimp only))

theorem State.switchSource_kept {a s} (h : Kept a s) (new) : Kept a (State.switchSource s new) := by
  unfold State.switchSource; try dsimp only
  repeat' (
    first
    | (with_reducible first
       | assumption | apply State.timeEval_kept | apply State.drawInt_kept | apply State.setObj_kept | apply State.event_kept
       | refine Kept.ite ?_ (fun _ => ?_))
    | simp only [Kept.upd]
    | (split <;> try dsimp only))

theorem State.chooseSource_kept {a s} (h : Kept a s) : Kept a (State.chooseSource s) := by
  unfold State.chooseSource; try dsimp only
  repeat' (
    first
    | (with_reducible first
       | assumption | apply State.timeEval_kept | apply State.switchSource_kept | refine Kept.ite ?_ (fun _ => ?_))
    | (split <;> try dsimp only))

theorem State.stepTime_kept {a s} (h : Kept a s) (d) (host) : Kept a (State.stepTime s d host) := by
  unfold State.stepTime; try dsimp only
  repeat' (
    first
    | (with_reducible first
       | assumption | apply State.setObj_kept | apply State.timeEval_kept | apply State.enterHold_kept
       | apply State.event_kept | apply State.postAnchor_kept | apply Kept.fold | apply Kept.foldOf Prod.fst)
    | simp only [Kept.upd]
    | (intro _; try dsimp only)
    | (split <;> try dsimp only))

theorem State.sourceStep_kept {a s} (h : Kept a s) : Kept a (State.sourceStep s) := by
  unfold State.sourceStep; try dsimp only
  repeat' (
    first
    | (with_reducible first
       | assumption | apply State.timeEval_kept | apply State.stepTime_kept | refine Kept.ite ?_ (fun _ => ?_))
    | simp only [Kept.upd]
    | (split <;> try dsimp only))

theorem State.deferredStep_kept {a s} (h : Kept a s) : Kept a (State.deferredStep s) := by
  unfold State.deferredStep; try dsimp only
  repeat' (
    first
    | (with_reducible first
       | assumption | apply State.sourceStep_kept | refine Kept.ite ?_ (fun _ => ?_))
    | (split <;> try dsimp only))

theorem State.hostStep_kept {a s} (h : Kept a s) (v) : Kept a (State.hostStep s v).1 := by
  unfold State.hostStep; try dsimp only
  repeat' (
    first
    | (with_reducible first
       | assumption | apply State.stepTime_kept | refine Kept.ite ?_ (fun _ => ?_) | refine Kept.iteOf Prod.fst ?_ ?_)
    | (split <;> try dsimp only))

theorem State.servo_kept {a s} (h : Kept a s) (theta) (dtNs) : Kept a (State.servo s theta dtNs) := by
  unfold State.servo; try dsimp only
  repeat' (first | (with_reducible first | assumption) | simp only [Kept.upd])

theorem State.filterIn_kept {a s} (h : Kept a s) (d) (theta) : Kept a (State.filterIn s d theta) := by
  unfold State.filterIn; try dsimp only
  repeat' (
    first
    | (with_reducible first
       | assumption | apply State.drawInt_kept | apply State.setPtp_kept | apply State.setObj_kept | apply State.ptpState_kept
       | apply State.chooseSource_kept | apply State.sourceStep_kept | apply State.servo_kept
       | refine Kept.ite ?_ (fun _ => ?_))
    | simp only [Kept.upd]
    | (split <;> try dsimp only))

theorem State.outlier_kept {a s} (h : Kept a s) (d) : Kept a (State.outlier s d) := by
  unfold State.outlier; try dsimp only
  repeat' (
    first
    | (with_reducible first
       | assumption | apply State.count_kept | apply State.setPtp_kept | apply State.chooseSource_kept
       | apply State.ptpState_kept | refine Kept.ite ?_ (fun _ => ?_))
    | simp only [Kept.upd]
    | (split <;> try dsimp only))

theorem State.ptpMeasure_kept {a s} (h : Kept a s) (d) (m) : Kept a (State.ptpMeasure s d m) := by
  unfold State.ptpMeasure; try dsimp only
  repeat' (
    first
    | (with_reducible first
       | assumption | apply State.ptpState_kept | apply State.outlier_kept | apply State.setObj_kept
       | apply State.filterIn_kept | refine Kept.ite ?_ (fun _ => ?_))
    | (split <;> try dsimp only))

theorem State.ptpLose_kept {a s} (h : Kept a s) (d) (cause) (master) : Kept a (State.ptpLose s d cause master) := by
  unfold State.ptpLose; try dsimp only
  repeat' (
    first
    | (with_reducible first
       | assumption | apply State.setPtp_kept | apply State.count_kept | apply State.chooseSource_kept
       | apply State.ptpState_kept | refine Kept.ite ?_ (fun _ => ?_))
    | simp only [Kept.upd]
    | (split <;> try dsimp only))

theorem State.ptpTimeout_kept {a s} (h : Kept a s) (d) : Kept a (State.ptpTimeout s d) := by
  unfold State.ptpTimeout; try dsimp only
  repeat' (
    first
    | (with_reducible first
       | assumption | apply State.ptpLose_kept | refine Kept.ite ?_ (fun _ => ?_))
    | (split <;> try dsimp only))

theorem State.ptpAnnounced_kept {a s} (h : Kept a s) (d) (m) : Kept a (State.ptpAnnounced s d m) := by
  unfold State.ptpAnnounced; try dsimp only
  repeat' (
    first
    | (with_reducible first
       | assumption | apply State.setObj_kept | apply State.ptpState_kept | apply State.setPtp_kept | apply State.ptpLose_kept
       | refine Kept.ite ?_ (fun _ => ?_))
    | simp only [Kept.upd]
    | (split <;> try dsimp only))

theorem State.ptpEnableSet_kept {a s} (h : Kept a s) (d) (v) : Kept a (State.ptpEnableSet s d v) := by
  unfold State.ptpEnableSet; try dsimp only
  repeat' (
    first
    | (with_reducible first
       | assumption | apply State.setObj_kept | apply State.chooseSource_kept | apply State.ptpState_kept
       | apply State.setPtp_kept | refine Kept.ite ?_ (fun _ => ?_))
    | (split <;> try dsimp only))

theorem State.timePrefSet_kept {a s} (h : Kept a s) (v) : Kept a (State.timePrefSet s v).1 := by
  unfold State.timePrefSet; try dsimp only
  repeat' (
    first
    | (with_reducible first
       | assumption | apply State.switchSource_kept | apply State.setObj_kept | refine Kept.ite ?_ (fun _ => ?_)
       | refine Kept.iteOf Prod.fst ?_ ?_)
    | (split <;> try dsimp only))

theorem State.ppsEdge_kept {a s} (h : Kept a s) : Kept a (State.ppsEdge s) := by
  unfold State.ppsEdge; try dsimp only
  repeat' (
    first
    | (with_reducible first
       | assumption | apply State.setObj_kept | apply State.setBlob_kept | apply State.ptpState_kept
       | apply State.filterIn_kept | refine Kept.ite ?_ (fun _ => ?_))
    | (split <;> try dsimp only))

theorem State.ppsLoss_kept {a s} (h : Kept a s) : Kept a (State.ppsLoss s) := by
  unfold State.ppsLoss; try dsimp only
  repeat' (
    first
    | (with_reducible first
       | assumption | apply State.ptpLose_kept | refine Kept.ite ?_ (fun _ => ?_))
    | (split <;> try dsimp only))

theorem State.ppsStart_kept {a s} (h : Kept a s) (k) : Kept a (State.ppsStart s k) := by
  unfold State.ppsStart; try dsimp only
  repeat' (
    first
    | (with_reducible first
       | assumption | refine Kept.ite ?_ (fun _ => ?_))
    | simp only [Kept.upd]
    | (split <;> try dsimp only))

theorem State.ppsStop_kept {a s} (h : Kept a s) (k) : Kept a (State.ppsStop s k) := by
  unfold State.ppsStop; try dsimp only
  repeat' (
    first
    | (with_reducible first
       | assumption | refine Kept.ite ?_ (fun _ => ?_))
    | simp only [Kept.upd]
    | (split <;> try dsimp only))

theorem State.resumeTime_kept {a s} (h : Kept a s) : Kept a (State.resumeTime s) := by
  unfold State.resumeTime
  refine State.postAnchor_kept ?_ _
  split
  · exact (Kept.upd ..).mpr h
  · exact State.event_kept (State.setObj_kept (State.setObj_kept ((Kept.upd ..).mpr ((Kept.upd ..).mpr h)) _ _) _ _) _ _ _

theorem State.curRefresh_kept {a s} (h : Kept a s) (x) : Kept a (State.curRefresh s x) := by
  unfold State.curRefresh; try dsimp only
  repeat' (
    first
    | (with_reducible first
       | assumption | apply State.setObj_kept | refine Kept.ite ?_ (fun _ => ?_))
    | (split <;> try dsimp only))

theorem State.wakeCurrent_kept {a s} (h : Kept a s) (x) : Kept a (State.wakeCurrent s x) := by
  unfold State.wakeCurrent; try dsimp only
  repeat' (
    first
    | (with_reducible first
       | assumption | apply State.curRefresh_kept | apply State.setAxBit_kept | apply State.setAx_kept
       | refine Kept.ite ?_ (fun _ => ?_))
    | simp only [Kept.upd]
    | (split <;> try dsimp only))

theorem State.idleCurrent_kept {a s} (h : Kept a s) (x) : Kept a (State.idleCurrent s x) := by
  unfold State.idleCurrent; try dsimp only
  repeat' (
    first
    | (with_reducible first
       | assumption | apply State.curRefresh_kept | apply State.setAxBit_kept | refine Kept.ite ?_ (fun _ => ?_))
    | (split <;> try dsimp only))

theorem State.startMove_kept {a s} (h : Kept a s) (x) (st) : Kept a (State.startMove s x st) := by
  unfold State.startMove; try dsimp only
  repeat' (
    first
    | (with_reducible first
       | assumption | apply State.setObj_kept | apply State.count_kept | apply State.wakeCurrent_kept
       | apply State.setAx_kept)
    | simp only [Kept.upd])

theorem State.axHalt_kept {a s} (h : Kept a s) (x) : Kept a (State.axHalt s x) := by
  unfold State.axHalt; try dsimp only
  repeat' (
    first
    | (with_reducible first
       | assumption | apply State.setObj_kept | apply State.setAx_kept | refine Kept.ite ?_ (fun _ => ?_))
    | simp only [Kept.upd]
    | (split <;> try dsimp only))

theorem State.axTargetSet_kept {a s} (h : Kept a s) (x) (v) : Kept a (State.axTargetSet s x v).1 := by
  unfold State.axTargetSet; try dsimp only
  repeat' (
    first
    | (with_reducible first
       | assumption | apply State.setObj_kept | apply State.setAx_kept | apply State.startMove_kept
       | refine Kept.ite ?_ (fun _ => ?_) | refine Kept.iteOf Prod.fst ?_ ?_)
    | simp only [Kept.upd]
    | (split <;> try dsimp only))

theorem State.axStopSet_kept {a s} (h : Kept a s) (x) : Kept a (State.axStopSet s x).1 := by
  unfold State.axStopSet; try dsimp only
  repeat' (
    first
    | (with_reducible first
       | assumption | apply State.axHalt_kept | refine Kept.ite ?_ (fun _ => ?_) | refine Kept.iteOf Prod.fst ?_ ?_)
    | (split <;> try dsimp only))

theorem State.axEnableSet_kept {a s} (h : Kept a s) (x) (v) : Kept a (State.axEnableSet s x v).1 := by
  unfold State.axEnableSet; try dsimp only
  repeat' (
    first
    | (with_reducible first
       | assumption | apply State.setAx_kept | apply State.setObj_kept | apply State.setAxBit_kept | apply State.axHalt_kept
       | apply State.axDisable_kept | refine Kept.ite ?_ (fun _ => ?_) | refine Kept.iteOf Prod.fst ?_ ?_)
    | simp only [Kept.upd]
    | (split <;> try dsimp only))

theorem State.enDelay_kept {a s} (h : Kept a s) (x) : Kept a (State.enDelay s x) := by
  unfold State.enDelay; try dsimp only
  repeat' (
    first
    | (with_reducible first
       | assumption | apply State.setAx_kept | refine Kept.ite ?_ (fun _ => ?_))
    | simp only [Kept.upd]
    | (split <;> try dsimp only))

theorem State.axHomeSet_kept {a s} (h : Kept a s) (x) : Kept a (State.axHomeSet s x).1 := by
  unfold State.axHomeSet; try dsimp only
  repeat' (
    first
    | (with_reducible first
       | assumption | apply State.setObj_kept | apply State.startMove_kept | apply State.setAx_kept
       | apply State.setAxBit_kept | refine Kept.ite ?_ (fun _ => ?_) | refine Kept.iteOf Prod.fst ?_ ?_)
    | simp only [Kept.upd]
    | (split <;> try dsimp only))

theorem State.homeEvent_kept {a s} (h : Kept a s) (x) (pos) : Kept a (State.homeEvent s x pos) := by
  unfold State.homeEvent; try dsimp only
  repeat' (
    first
    | (with_reducible first
       | assumption | apply State.setAx_kept | apply State.setObj_kept | apply State.setAxBit_kept | apply State.event_kept
       | refine Kept.ite ?_ (fun _ => ?_))
    | (split <;> try dsimp only))

theorem State.homeIndex_kept {a s} (h : Kept a s) (e) : Kept a (State.homeIndex s e) := by
  unfold State.homeIndex; try dsimp only
  repeat' (
    first
    | (with_reducible first
       | assumption | apply State.homeEvent_kept | refine Kept.ite ?_ (fun _ => ?_) | apply Kept.fold
       | apply Kept.foldOf Prod.fst)
    | (intro _; try dsimp only)
    | (split <;> try dsimp only))

theorem State.homePin_kept {a s} (h : Kept a s) (pin) (level) : Kept a (State.homePin s pin level) := by
  unfold State.homePin; try dsimp only
  repeat' (
    first
    | (with_reducible first
       | assumption | apply State.homeEvent_kept | refine Kept.ite ?_ (fun _ => ?_) | apply Kept.fold
       | apply Kept.foldOf Prod.fst)
    | (intro _; try dsimp only)
    | (split <;> try dsimp only))

theorem State.indexAndHome_kept {a s} (h : Kept a s) (e) : Kept a (State.indexAndHome s e) := by
  unfold State.indexAndHome; try dsimp only
  repeat' (
    first
    | (with_reducible first
       | assumption | apply State.axeIndex_kept | apply State.homeIndex_kept | refine Kept.ite ?_ (fun _ => ?_))
    | (split <;> try dsimp only))

theorem State.trackError_kept {a s} (h : Kept a s) (x) : Kept a (State.trackError s x) := by
  unfold State.trackError; try dsimp only
  repeat' (
    first
    | (with_reducible first
       | assumption | apply State.setAx_kept | apply State.setObj_kept | apply State.condEnd_kept
       | refine Kept.ite ?_ (fun _ => ?_))
    | simp only [Kept.upd]
    | (split <;> try dsimp only))

theorem State.followingError_kept {a s} (h : Kept a s) (x) : Kept a (State.followingError s x) := by
  unfold State.followingError; try dsimp only
  repeat' (
    first
    | (with_reducible first
       | assumption | apply State.latch_kept | apply State.trackError_kept | apply State.setAx_kept
       | refine Kept.ite ?_ (fun _ => ?_))
    | simp only [Kept.upd]
    | (split <;> try dsimp only))

theorem State.limitActive_kept {a s} (h : Kept a s) (x) (positive) : Kept a (State.limitActive s x positive) := by
  unfold State.limitActive; try dsimp only
  repeat' (
    first
    | (with_reducible first
       | assumption | apply State.setAx_kept | apply State.latch_kept | refine Kept.ite ?_ (fun _ => ?_))
    | simp only [Kept.upd]
    | (split <;> try dsimp only))

theorem State.limitReleased_kept {a s} (h : Kept a s) (x) : Kept a (State.limitReleased s x) := by
  unfold State.limitReleased; try dsimp only
  repeat' (
    first
    | (with_reducible first
       | assumption | apply State.setAx_kept | apply State.condEnd_kept | refine Kept.ite ?_ (fun _ => ?_))
    | simp only [Kept.upd]
    | (split <;> try dsimp only))

theorem State.ssiAndAxes_kept {a s} (h : Kept a s) (e) (busy) (bits) : Kept a (State.ssiAndAxes s e busy bits) := by
  unfold State.ssiAndAxes; try dsimp only
  repeat' (
    first
    | (with_reducible first
       | assumption | apply State.ssiSample_kept | apply State.axHalt_kept | apply State.setAxBit_kept
       | refine Kept.ite ?_ (fun _ => ?_) | apply Kept.fold | apply Kept.foldOf Prod.fst)
    | (intro _; try dsimp only)
    | (split <;> try dsimp only))

theorem State.camEngageSet_kept {a s} (h : Kept a s) (x) (v) : Kept a (State.camEngageSet s x v).1 := by
  unfold State.camEngageSet; try dsimp only
  repeat' (
    first
    | (with_reducible first
       | assumption | apply State.wakeCurrent_kept | apply State.setObj_kept | apply State.axHalt_kept
       | refine Kept.ite ?_ (fun _ => ?_) | refine Kept.iteOf Prod.fst ?_ ?_)
    | (split <;> try dsimp only))

theorem State.slaveState_kept {a s} (h : Kept a s) (x) : Kept a (State.slaveState s x) := by
  unfold State.slaveState; try dsimp only
  repeat' (
    first
    | (with_reducible first
       | assumption | apply State.setObj_kept | apply State.count_kept | refine Kept.ite ?_ (fun _ => ?_))
    | (split <;> try dsimp only))

theorem State.camTableSet_kept {a s} (h : Kept a s) (k) (data) : Kept a (State.camTableSet s k data).1 := by
  unfold State.camTableSet; try dsimp only
  repeat' (
    first
    | (with_reducible first
       | assumption | apply State.setBlob_kept | refine Kept.ite ?_ (fun _ => ?_) | refine Kept.iteOf Prod.fst ?_ ?_)
    | (split <;> try dsimp only))

theorem State.replan_kept {a s} (h : Kept a s) (x) : Kept a (State.replan s x) := by
  unfold State.replan; try dsimp only
  repeat' (
    first
    | (with_reducible first
       | assumption | apply State.setAx_kept | apply State.setObj_kept | apply State.count_kept | apply State.event_kept
       | refine Kept.ite ?_ (fun _ => ?_))
    | simp only [Kept.upd]
    | (split <;> try dsimp only))

theorem State.stepOut_kept {a s} (h : Kept a s) (x) : Kept a (State.stepOut s x) := by
  unfold State.stepOut; try dsimp only
  repeat' (
    first
    | (with_reducible first
       | assumption | apply State.setAx_kept | apply State.emit_kept | refine Kept.ite ?_ (fun _ => ?_))
    | simp only [Kept.upd]
    | (split <;> try dsimp only))

theorem State.axSettle_kept {a s} (h : Kept a s) (x) : Kept a (State.axSettle s x) := by
  unfold State.axSettle; try dsimp only
  repeat' (
    first
    | (with_reducible first
       | assumption | apply State.setObj_kept | apply State.moveEnd_kept | apply State.axDisable_kept
       | apply State.startMove_kept | refine Kept.ite ?_ (fun _ => ?_))
    | (split <;> try dsimp only))

theorem State.axMove_kept {a s} (h : Kept a s) (x) : Kept a (State.axMove s x) := by
  unfold State.axMove; try dsimp only
  repeat' (
    first
    | (with_reducible first
       | assumption | apply State.setAx_kept | refine Kept.ite ?_ (fun _ => ?_))
    | simp only [Kept.upd]
    | (split <;> try dsimp only))

theorem State.axSample_kept {a s} (h : Kept a s) (x) : Kept a (State.axSample s x) := by
  unfold State.axSample; try dsimp only
  repeat' (
    first
    | (with_reducible first
       | assumption | apply State.replan_kept | apply State.stepOut_kept | apply State.axMove_kept
       | apply State.slaveState_kept | apply State.axSettle_kept | apply State.trackError_kept | apply State.setAx_kept
       | apply State.forward_kept | refine Kept.ite ?_ (fun _ => ?_))
    | simp only [Kept.upd]
    | (split <;> try dsimp only))

theorem State.axContact_kept {a s} (h : Kept a s) (x) : Kept a (State.axContact s x) := by
  unfold State.axContact; try dsimp only
  repeat' (
    first
    | (with_reducible first
       | assumption | apply State.event_kept | apply State.setAxBit_kept | refine Kept.ite ?_ (fun _ => ?_))
    | (split <;> try dsimp only))

theorem State.axModeSet_kept {a s} (h : Kept a s) (x) (v) : Kept a (State.axModeSet s x v).1 := by
  unfold State.axModeSet; try dsimp only
  repeat' (
    first
    | (with_reducible first
       | assumption | apply State.setObj_kept | refine Kept.ite ?_ (fun _ => ?_) | refine Kept.iteOf Prod.fst ?_ ?_)
    | (split <;> try dsimp only))

theorem State.setLoop_kept {a s} (h : Kept a s) (l) (f) : Kept a (State.setLoop s l f) := by
  unfold State.setLoop; try dsimp only
  repeat' (first | (with_reducible first | assumption) | simp only [Kept.upd])

theorem State.setPwm_kept {a s} (h : Kept a s) (k) (w) : Kept a (State.setPwm s k w) := by
  unfold State.setPwm; try dsimp only
  repeat' (first | (with_reducible first | assumption) | simp only [Kept.upd])

theorem State.ownDuty_kept {a s} (h : Kept a s) (dst) (duty) : Kept a (State.ownDuty s dst duty) := by
  unfold State.ownDuty; try dsimp only
  repeat' (
    first
    | (with_reducible first
       | assumption | apply State.setObj_kept | refine Kept.ite ?_ (fun _ => ?_))
    | (split <;> try dsimp only))

theorem State.setTrace_kept {a s} (h : Kept a s) (l) (f) : Kept a (State.setTrace s l f) := by
  unfold State.setTrace; try dsimp only
  repeat' (first | (with_reducible first | assumption | apply State.setLoop_kept) | simp only [Kept.upd])

theorem State.traceEvent_kept {a s} (h : Kept a s) (l) (edge) : Kept a (State.traceEvent s l edge) := by
  unfold State.traceEvent; try dsimp only
  repeat' (
    first
    | (with_reducible first
       | assumption | apply State.setTrace_kept | refine Kept.ite ?_ (fun _ => ?_))
    | simp only [Kept.upd]
    | (split <;> try dsimp only))

theorem State.traceFull_kept {a s} (h : Kept a s) (l) : Kept a (State.traceFull s l) := by
  unfold State.traceFull; try dsimp only
  repeat' (
    first
    | (with_reducible first
       | assumption | apply State.event_kept | apply State.setObj_kept | refine Kept.ite ?_ (fun _ => ?_))
    | (split <;> try dsimp only))

theorem State.traceRecord_kept {a s} (h : Kept a s) (l) : Kept a (State.traceRecord s l) := by
  unfold State.traceRecord; try dsimp only
  repeat' (
    first
    | (with_reducible first
       | assumption | apply State.setTrace_kept | apply State.setObj_kept | apply State.traceFull_kept
       | refine Kept.ite ?_ (fun _ => ?_))
    | simp only [Kept.upd]
    | (split <;> try dsimp only))

theorem State.traceStep_kept {a s} (h : Kept a s) (l) : Kept a (State.traceStep s l) := by
  unfold State.traceStep; try dsimp only
  repeat' (
    first
    | (with_reducible first
       | assumption | apply State.setTrace_kept | apply State.traceRecord_kept | refine Kept.ite ?_ (fun _ => ?_))
    | simp only [Kept.upd]
    | (split <;> try dsimp only))

theorem State.trArmSet_kept {a s} (h : Kept a s) (l) (v) : Kept a (State.trArmSet s l v).1 := by
  unfold State.trArmSet; try dsimp only
  repeat' (
    first
    | (with_reducible first
       | assumption | apply State.setObj_kept | apply State.setTrace_kept | refine Kept.ite ?_ (fun _ => ?_)
       | refine Kept.iteOf Prod.fst ?_ ?_)
    | (split <;> try dsimp only))

theorem State.trForceSet_kept {a s} (h : Kept a s) (l) : Kept a (State.trForceSet s l).1 := by
  unfold State.trForceSet; try dsimp only
  repeat' (with_reducible first | assumption | apply State.traceEvent_kept)

theorem State.setLpBit_kept {a s} (h : Kept a s) (l) (i) (b) : Kept a (State.setLpBit s l i b) := by
  unfold State.setLpBit; try dsimp only
  repeat' (with_reducible first | assumption | apply State.setBit_kept)

theorem State.setHandover_kept {a s} (h : Kept a s) (l) (b) : Kept a (State.setHandover s l b) := by
  unfold State.setHandover; try dsimp only
  repeat' (
    first
    | (with_reducible first
       | assumption | apply State.setLpBit_kept | apply State.setAxBit_kept)
    | (split <;> try dsimp only))

theorem State.loopTrip_kept {a s} (h : Kept a s) (l) (cause) (idx) : Kept a (State.loopTrip s l cause idx) := by
  unfold State.loopTrip; try dsimp only
  repeat' (
    first
    | (with_reducible first
       | assumption | apply State.setLpBit_kept | apply State.setObj_kept | apply State.setLoop_kept
       | apply State.setHandover_kept | apply State.ownDuty_kept | apply State.setPwm_kept | apply State.count_kept
       | apply State.traceEvent_kept | apply State.latch_kept | apply State.push_kept | refine Kept.ite ?_ (fun _ => ?_)
       | apply Kept.fold | apply Kept.foldOf Prod.fst)
    | simp only [Kept.upd]
    | (intro _; try dsimp only)
    | (split <;> try dsimp only))

theorem State.loopError_kept {a s} (h : Kept a s) (l) (e) : Kept a (State.loopError s l e) := by
  unfold State.loopError; try dsimp only
  repeat' (
    first
    | (with_reducible first
       | assumption | apply State.setLoop_kept | apply State.setObj_kept | refine Kept.ite ?_ (fun _ => ?_))
    | simp only [Kept.upd]
    | (split <;> try dsimp only))

theorem State.loopContact_kept {a s} (h : Kept a s) (l) : Kept a (State.loopContact s l) := by
  unfold State.loopContact; try dsimp only
  repeat' (
    first
    | (with_reducible first
       | assumption | apply State.setAx_kept | apply State.setAxBit_kept | refine Kept.ite ?_ (fun _ => ?_))
    | simp only [Kept.upd]
    | (split <;> try dsimp only))

theorem State.handoverEvent_kept {a s} (h : Kept a s) (l) (mode) (e) : Kept a (State.handoverEvent s l mode e) := by
  unfold State.handoverEvent; try dsimp only
  repeat' (
    first
    | (with_reducible first
       | assumption | apply State.setObj_kept | apply State.event_kept)
    | (split <;> try dsimp only))

theorem State.loopTake_kept {a s} (h : Kept a s) (l) (e) : Kept a (State.loopTake s l e) := by
  unfold State.loopTake; try dsimp only
  repeat' (
    first
    | (with_reducible first
       | assumption | apply State.loopError_kept | apply State.setLoop_kept | apply State.ownDuty_kept
       | apply State.setLpBit_kept | apply State.setHandover_kept | apply State.count_kept | apply State.handoverEvent_kept
       | apply State.traceEvent_kept | apply State.loopContact_kept | refine Kept.ite ?_ (fun _ => ?_) | apply Kept.fold
       | apply Kept.foldOf Prod.fst)
    | (intro _; try dsimp only)
    | (split <;> try dsimp only))

theorem State.loopEval_kept {a s} (h : Kept a s) (l) : Kept a (State.loopEval s l) := by
  unfold State.loopEval; try dsimp only
  repeat' (
    first
    | (with_reducible first
       | assumption | apply State.traceStep_kept | apply State.setLpBit_kept | apply State.setLoop_kept
       | apply State.count_kept | apply State.loopTrip_kept | apply State.loopTake_kept | apply State.forward_kept
       | refine Kept.ite ?_ (fun _ => ?_))
    | simp only [Kept.upd]
    | (split <;> try dsimp only))

theorem State.loopFe_kept {a s} (h : Kept a s) (l) : Kept a (State.loopFe s l) := by
  unfold State.loopFe; try dsimp only
  repeat' (
    first
    | (with_reducible first
       | assumption | apply State.count_kept | apply State.event_kept | apply State.traceEvent_kept | apply State.setLoop_kept
       | apply State.loopTrip_kept | apply State.latch_kept | refine Kept.ite ?_ (fun _ => ?_))
    | simp only [Kept.upd]
    | (split <;> try dsimp only))

theorem State.lpEnableSet_kept {a s} (h : Kept a s) (l) (v) : Kept a (State.lpEnableSet s l v).1 := by
  unfold State.lpEnableSet; try dsimp only
  repeat' (
    first
    | (with_reducible first
       | assumption | apply State.setObj_kept | apply State.setLoop_kept | apply State.setHandover_kept
       | apply State.condEnd_kept | refine Kept.ite ?_ (fun _ => ?_) | refine Kept.iteOf Prod.fst ?_ ?_)
    | simp only [Kept.upd]
    | (split <;> try dsimp only))

theorem State.lpModeSet_kept {a s} (h : Kept a s) (l) (v) : Kept a (State.lpModeSet s l v).1 := by
  unfold State.lpModeSet; try dsimp only
  repeat' (
    first
    | (with_reducible first
       | assumption | apply State.setObj_kept | refine Kept.ite ?_ (fun _ => ?_) | refine Kept.iteOf Prod.fst ?_ ?_)
    | (split <;> try dsimp only))

theorem State.lpLawWritten_kept {a s} (h : Kept a s) (l) (mode) : Kept a (State.lpLawWritten s l mode) := by
  unfold State.lpLawWritten; try dsimp only
  repeat' (
    first
    | (with_reducible first
       | assumption | apply State.setLoop_kept | refine Kept.ite ?_ (fun _ => ?_))
    | simp only [Kept.upd]
    | (split <;> try dsimp only))

theorem State.adcConversion_kept {a s} (h : Kept a s) (ch) (raw) : Kept a (State.adcConversion s ch raw) := by
  unfold State.adcConversion; try dsimp only
  repeat' (
    first
    | (with_reducible first
       | assumption | apply State.condEnd_kept | refine Kept.ite ?_ (fun _ => ?_))
    | simp only [Kept.upd]
    | (split <;> try dsimp only))

theorem State.adcSet_kept {a s} (h : Kept a s) (rate) (v) : Kept a (State.adcSet s rate v).1 := by
  unfold State.adcSet; try dsimp only
  repeat' (
    first
    | (with_reducible first
       | assumption | apply State.setObj_kept | refine Kept.ite ?_ (fun _ => ?_) | refine Kept.iteOf Prod.fst ?_ ?_
       | apply Kept.fold | apply Kept.foldOf Prod.fst)
    | simp only [Kept.upd]
    | (intro _; try dsimp only)
    | (split <;> try dsimp only))

theorem State.pwmPeriod_kept {a s} (h : Kept a s) (i) : Kept a (State.pwmPeriod s i) := by
  unfold State.pwmPeriod; try dsimp only
  repeat' (
    first
    | (with_reducible first
       | assumption | apply State.setPwm_kept | refine Kept.ite ?_ (fun _ => ?_))
    | (split <;> try dsimp only))

theorem State.dutySet_kept {a s} (h : Kept a s) (valve) (i) (v) : Kept a (State.dutySet s valve i v).1 := by
  unfold State.dutySet; try dsimp only
  repeat' (
    first
    | (with_reducible first
       | assumption | apply State.ownDuty_kept | refine Kept.ite ?_ (fun _ => ?_) | refine Kept.iteOf Prod.fst ?_ ?_)
    | (split <;> try dsimp only))

theorem State.gpioReadback_kept {a s} (h : Kept a s) : Kept a (State.gpioReadback s) := by
  unfold State.gpioReadback; try dsimp only
  repeat' (
    first
    | (with_reducible first
       | assumption | apply State.setBit_kept | refine Kept.ite ?_ (fun _ => ?_) | apply Kept.fold
       | apply Kept.foldOf Prod.fst)
    | (intro _; try dsimp only)
    | (split <;> try dsimp only))

theorem State.gpioDirSet_kept {a s} (h : Kept a s) (v) : Kept a (State.gpioDirSet s v).1 := by
  unfold State.gpioDirSet; try dsimp only
  repeat' (
    first
    | (with_reducible first
       | assumption | apply State.gpioReadback_kept | apply State.setObj_kept | refine Kept.ite ?_ (fun _ => ?_)
       | refine Kept.iteOf Prod.fst ?_ ?_)
    | (split <;> try dsimp only))

theorem State.gpioInput_kept {a s} (h : Kept a s) (pin) (level) : Kept a (State.gpioInput s pin level) := by
  unfold State.gpioInput; try dsimp only
  repeat' (
    first
    | (with_reducible first
       | assumption | apply State.setBit_kept | apply State.limitReleased_kept | apply State.homePin_kept
       | refine Kept.ite ?_ (fun _ => ?_) | apply Kept.fold | apply Kept.foldOf Prod.fst)
    | (intro _; try dsimp only)
    | (split <;> try dsimp only))

theorem State.setRank_kept {a s} (h : Kept a s) (c) (r) (f) : Kept a (State.setRank s c r f) := by
  unfold State.setRank; try dsimp only
  repeat' (first | (with_reducible first | assumption) | simp only [Kept.upd])

theorem State.dramAccess_kept {a s} (h : Kept a s) (port) (a') (age) : Kept a (State.dramAccess s port a' age) := by
  unfold State.dramAccess; try dsimp only
  repeat' (
    first
    | (with_reducible first
       | assumption | apply State.countElem_kept | apply State.setRank_kept | refine Kept.ite ?_ (fun _ => ?_))
    | simp only [Kept.upd]
    | (split <;> try dsimp only))

theorem State.deviceCe_kept {a s} (h : Kept a s) (c) (r) (dev) : Kept a (State.deviceCe s c r dev) := by
  unfold State.deviceCe; try dsimp only
  repeat' (
    first
    | (with_reducible first
       | assumption | apply State.countElem_kept | apply State.event_kept | refine Kept.ite ?_ (fun _ => ?_))
    | simp only [Kept.upd]
    | (split <;> try dsimp only))

theorem State.corrected_kept {a s} (h : Kept a s) (c) (r) (fix) : Kept a (State.corrected s c r fix) := by
  unfold State.corrected; try dsimp only
  repeat' (
    first
    | (with_reducible first
       | assumption | apply State.deviceCe_kept | apply State.count_kept | apply Kept.fold | apply Kept.foldOf Prod.fst)
    | (intro _; try dsimp only))

theorem State.dramUe_kept {a s} (h : Kept a s) (port) (a') (acc) : Kept a (State.dramUe s port a' acc) := by
  unfold State.dramUe; try dsimp only
  repeat' (with_reducible first | assumption | apply State.count_kept | apply State.latch_kept | apply State.push_kept)

theorem State.dramRead_kept {a s} (h : Kept a s) (port) (a') (age) (e) : Kept a (State.dramRead s port a' age e) := by
  unfold State.dramRead; try dsimp only
  repeat' (
    first
    | (with_reducible first
       | assumption | apply State.dramAccess_kept | apply State.emit_kept | apply State.corrected_kept
       | apply State.dramPut_kept | apply State.dramUe_kept)
    | (split <;> try dsimp only))

theorem State.dramWrite_kept {a s} (h : Kept a s) (port) (a') (data) (age) (e) : Kept a (State.dramWrite s port a' data age e) := by
  unfold State.dramWrite; try dsimp only
  repeat' (
    first
    | (with_reducible first
       | assumption | apply State.dramAccess_kept | apply State.dramPut_kept | apply State.corrected_kept
       | apply State.dramUe_kept | refine Kept.ite ?_ (fun _ => ?_))
    | (split <;> try dsimp only))

theorem State.dramScrub_kept {a s} (h : Kept a s) (e) : Kept a (State.dramScrub s e) := by
  unfold State.dramScrub; try dsimp only
  repeat' (
    first
    | (with_reducible first
       | assumption | apply State.corrected_kept | apply State.dramPut_kept | apply State.dramUe_kept
       | refine Kept.ite ?_ (fun _ => ?_))
    | simp only [Kept.upd]
    | (split <;> try dsimp only))

theorem State.setOwed_kept {a s} (h : Kept a s) (c) (r) (n) : Kept a (State.setOwed s c r n) := by
  unfold State.setOwed; try dsimp only
  repeat' (with_reducible first | assumption | apply State.setObj_kept)

theorem State.refab_kept {a s} (h : Kept a s) (c) (r) : Kept a (State.refab s c r) := by
  unfold State.refab; try dsimp only
  repeat' (with_reducible first | assumption | apply State.takeDelays_kept | apply State.emit_kept)

theorem State.refabs_kept {a s} (h : Kept a s) (c) (r) (v3) : Kept a (State.refabs s c r v3) := by
  induction v3 generalizing s with
  | zero => exact h
  | succ n ih => exact ih (State.refab_kept h c r)

theorem State.dramRefresh_kept {a s} (h : Kept a s) (c) (r) (canIssue) : Kept a (State.dramRefresh s c r canIssue) := by
  unfold State.dramRefresh; try dsimp only
  repeat' (
    first
    | (with_reducible first
       | assumption | apply State.setOwed_kept | apply State.refabs_kept | refine Kept.ite ?_ (fun _ => ?_))
    | (split <;> try dsimp only))

theorem State.mr4_kept {a s} (h : Kept a s) (c) (r) (t) : Kept a (State.mr4 s c r t) := by
  unfold State.mr4; try dsimp only
  repeat' (
    first
    | (with_reducible first
       | assumption | apply State.setRank_kept | apply State.setObj_kept | apply State.setBit_kept | apply State.event_kept
       | apply State.setOwed_kept | apply State.refabs_kept | refine Kept.ite ?_ (fun _ => ?_))
    | simp only [Kept.upd]
    | (split <;> try dsimp only))

theorem State.applyRate_kept {a s} (h : Kept a s) (v) : Kept a (State.applyRate s v) := by
  unfold State.applyRate; try dsimp only
  repeat' (
    first
    | (with_reducible first
       | assumption | apply State.setObj_kept | apply State.setCalState_kept | refine Kept.ite ?_ (fun _ => ?_)
       | apply Kept.fold | apply Kept.foldOf Prod.fst)
    | simp only [Kept.upd]
    | (intro _; try dsimp only)
    | (split <;> try dsimp only))

theorem State.sweepStart_kept {a s} (h : Kept a s) (c) (ctrl) : Kept a (State.sweepStart s c ctrl) := by
  unfold State.sweepStart; try dsimp only
  repeat' (
    first
    | (with_reducible first
       | assumption | apply State.setObj_kept | refine Kept.ite ?_ (fun _ => ?_))
    | simp only [Kept.upd]
    | (split <;> try dsimp only))

theorem State.sweepAbort_kept {a s} (h : Kept a s) : Kept a (State.sweepAbort s) := by
  unfold State.sweepAbort; try dsimp only
  repeat' (
    first
    | (with_reducible first
       | assumption | apply State.setBlob_kept | refine Kept.ite ?_ (fun _ => ?_))
    | simp only [Kept.upd]
    | (split <;> try dsimp only))

theorem State.sweepComplete_kept {a s} (h : Kept a s) (results) : Kept a (State.sweepComplete s results) := by
  unfold State.sweepComplete; try dsimp only
  repeat' (
    first
    | (with_reducible first
       | assumption | apply State.setBlob_kept | apply State.applyRate_kept | refine Kept.ite ?_ (fun _ => ?_))
    | simp only [Kept.upd]
    | (split <;> try dsimp only))

theorem State.dramRateSet_kept {a s} (h : Kept a s) (v) : Kept a (State.dramRateSet s v).1 := by
  unfold State.dramRateSet; try dsimp only
  repeat' (
    first
    | (with_reducible first
       | assumption | apply State.applyRate_kept | refine Kept.ite ?_ (fun _ => ?_) | refine Kept.iteOf Prod.fst ?_ ?_)
    | simp only [Kept.upd]
    | (split <;> try dsimp only))

theorem State.dramDrift_kept {a s} (h : Kept a s) (c) (r) (taps) : Kept a (State.dramDrift s c r taps) := by
  unfold State.dramDrift; try dsimp only
  repeat' (
    first
    | (with_reducible first
       | assumption | apply State.setCalState_kept | apply State.event_kept | refine Kept.ite ?_ (fun _ => ?_))
    | (split <;> try dsimp only))

theorem State.rowClose_kept {a s} (h : Kept a s) (bank) : Kept a (State.rowClose s bank) := by
  unfold State.rowClose; try dsimp only
  repeat' (
    first
    | (with_reducible first
       | assumption | refine Kept.ite ?_ (fun _ => ?_))
    | simp only [Kept.upd]
    | (split <;> try dsimp only))

theorem State.powerDown_kept {a s} (h : Kept a s) (c) (r) : Kept a (State.powerDown s c r) := by
  unfold State.powerDown; try dsimp only
  repeat' (
    first
    | (with_reducible first
       | assumption | apply State.setRank_kept | refine Kept.ite ?_ (fun _ => ?_))
    | simp only [Kept.upd]
    | (split <;> try dsimp only))

theorem State.selfRefresh_kept {a s} (h : Kept a s) (on) : Kept a (State.selfRefresh s on) := by
  unfold State.selfRefresh; try dsimp only
  repeat' (
    first
    | (with_reducible first
       | assumption | apply State.setRank_kept | apply State.setObj_kept | refine Kept.ite ?_ (fun _ => ?_) | apply Kept.fold
       | apply Kept.foldOf Prod.fst)
    | simp only [Kept.upd]
    | (intro _; try dsimp only)
    | (split <;> try dsimp only))

theorem State.dramInit_kept {a s} (h : Kept a s) (ok) (gib) : Kept a (State.dramInit s ok gib) := by
  unfold State.dramInit; try dsimp only
  repeat' (
    first
    | (with_reducible first
       | assumption | apply State.setObj_kept | apply State.latch_kept | refine Kept.ite ?_ (fun _ => ?_))
    | simp only [Kept.upd]
    | (split <;> try dsimp only))

theorem State.restoreWaitEnd_kept {a s} (h : Kept a s) : Kept a (State.restoreWaitEnd s) := by
  unfold State.restoreWaitEnd; try dsimp only
  repeat' (
    first
    | (with_reducible first
       | assumption | apply State.calDue_kept | apply State.setCalState_kept | refine Kept.ite ?_ (fun _ => ?_)
       | apply Kept.fold | apply Kept.foldOf Prod.fst)
    | (intro _; try dsimp only)
    | (split <;> try dsimp only))

theorem State.setEngine_kept {a s} (h : Kept a s) (r) (j) : Kept a (State.setEngine s r j) := by
  unfold State.setEngine; try dsimp only
  repeat' (first | (with_reducible first | assumption) | simp only [Kept.upd])

theorem State.setStrStream_kept {a s} (h : Kept a s) (i) (x) : Kept a (State.setStrStream s i x) := by
  unfold State.setStrStream; try dsimp only
  repeat' (first | (with_reducible first | assumption | apply State.setBit_kept) | simp only [Kept.upd])

theorem State.strPowerOff_kept {a s} (h : Kept a s) : Kept a (State.strPowerOff s) := by
  unfold State.strPowerOff; try dsimp only
  repeat' (first | (with_reducible first | assumption | apply State.setObj_kept) | simp only [Kept.upd])

theorem State.strFail_kept {a s} (h : Kept a s) (d) (reason) (reach) : Kept a (State.strFail s d reason reach).2 := by
  unfold State.strFail; try dsimp only
  repeat' (
    first
    | (with_reducible first
       | assumption | apply State.drawNat_kept | apply State.draw_kept | apply State.setStrStream_kept
       | refine Kept.ite ?_ (fun _ => ?_))
    | simp only [Kept.upd]
    | (split <;> try dsimp only))

theorem State.runBlocks_kept {a s} (h : Kept a s) (d) (source) : Kept a (State.runBlocks s d source).2 := by
  unfold State.runBlocks; try dsimp only
  repeat' (
    first
    | (with_reducible first
       | assumption | apply State.strFail_kept | refine Kept.ite ?_ (fun _ => ?_))
    | simp only [Kept.upd]
    | (split <;> try dsimp only))

theorem State.runStream_kept {a s} (h : Kept a s) (r) (d) (source) : Kept a (State.runStream s r d source).2 := by
  unfold State.runStream; try dsimp only
  repeat' (
    first
    | (with_reducible first
       | assumption | apply State.strFail_kept | apply State.setStrStream_kept | refine Kept.ite ?_ (fun _ => ?_))
    | simp only [Kept.upd]
    | (split <;> try dsimp only))

theorem State.runUnz_kept {a s} (h : Kept a s) (d) (source) : Kept a (State.runUnz s d source).2 := by
  unfold State.runUnz; try dsimp only
  repeat' (first | (with_reducible first | assumption | apply State.strFail_kept) | (split <;> try dsimp only))

theorem State.strRun_kept {a s} (h : Kept a s) (r) (ty) (source) : Kept a (State.strRun s r ty source) := by
  unfold State.strRun; try dsimp only
  repeat' (
    first
    | (with_reducible first
       | assumption | apply State.consume_kept | apply State.setStrStream_kept | apply State.setEngine_kept
       | apply State.runBlocks_kept | apply State.runStream_kept | apply State.runUnz_kept | refine Kept.ite ?_ (fun _ => ?_))
    | simp only [Kept.upd]
    | (split <;> try dsimp only))

theorem State.strCount_kept {a s} (h : Kept a s) (j) : Kept a (State.strCount s j) := by
  unfold State.strCount; try dsimp only
  repeat' (
    first
    | (with_reducible first
       | assumption | apply State.count_kept | refine Kept.ite ?_ (fun _ => ?_))
    | (split <;> try dsimp only))

theorem State.strComplete_kept {a s} (h : Kept a s) (r) : Kept a (State.strComplete s r) := by
  unfold State.strComplete; try dsimp only
  repeat' (
    first
    | (with_reducible first
       | assumption | apply State.dramPut_kept | apply State.emit_kept | apply State.strCount_kept
       | apply State.setEngine_kept | apply State.push_kept | refine Kept.ite ?_ (fun _ => ?_))
    | simp only [Kept.upd]
    | (split <;> try dsimp only))

theorem State.strStop_kept {a s} (h : Kept a s) (r) (j) : Kept a (State.strStop s r j) := by
  unfold State.strStop; try dsimp only
  repeat' (
    first
    | (with_reducible first
       | assumption | apply State.drawNat_kept | apply State.draw_kept | apply State.setStrStream_kept
       | apply State.setEngine_kept)
    | (split <;> try dsimp only))

theorem State.strAbortSet_kept {a s} (h : Kept a s) (tag) : Kept a (State.strAbortSet s tag).1 := by
  unfold State.strAbortSet; try dsimp only
  repeat' (
    first
    | (with_reducible first
       | assumption | apply State.strStop_kept | refine Kept.ite ?_ (fun _ => ?_) | refine Kept.iteOf Prod.fst ?_ ?_)
    | simp only [Kept.upd]
    | (split <;> try dsimp only))

theorem State.chainCheck_kept {a s} (h : Kept a s) : Kept a (State.chainCheck s) := by
  unfold State.chainCheck; try dsimp only
  repeat' (
    first
    | (with_reducible first
       | assumption | apply State.latch_kept | refine Kept.ite ?_ (fun _ => ?_))
    | (split <;> try dsimp only))

theorem State.faultLatch_kept {a s} (h : Kept a s) (code) (inst) (detail) : Kept a (State.faultLatch s code inst detail) := by
  unfold State.faultLatch; try dsimp only
  repeat' (first | (with_reducible first | assumption | apply State.latch_kept) | (split <;> try dsimp only))

theorem State.fltClearSet_kept {a s} (h : Kept a s) (v) (sess) (super) : Kept a (State.fltClearSet s v sess super).1 := by
  unfold State.fltClearSet; try dsimp only
  repeat' (with_reducible first | assumption | apply State.fltClear_kept | apply State.chainCheck_kept)

theorem State.fecClearSet_kept {a s} (h : Kept a s) (v) : Kept a (State.fecClearSet s v) := by
  unfold State.fecClearSet; try dsimp only
  repeat' (first | (with_reducible first | assumption) | simp only [Kept.upd])

theorem State.alertRise_kept {a s} (h : Kept a s) (t) : Kept a (State.alertRise s t) := by
  unfold State.alertRise; try dsimp only
  repeat' (
    first
    | (with_reducible first
       | assumption | apply State.alertStart_kept | refine Kept.ite ?_ (fun _ => ?_))
    | simp only [Kept.upd]
    | (split <;> try dsimp only))

theorem State.alertEnd_kept {a s} (h : Kept a s) : Kept a (State.alertEnd s) := by
  unfold State.alertEnd; try dsimp only
  repeat' (
    first
    | (with_reducible first
       | assumption | apply State.alertRise_kept | refine Kept.ite ?_ (fun _ => ?_))
    | (split <;> try dsimp only))

theorem State.injectSet_kept {a s} (h : Kept a s) (v) : Kept a (State.injectSet s v).1 := by
  unfold State.injectSet; try dsimp only
  repeat' (
    first
    | (with_reducible first
       | assumption | apply State.latch_kept | refine Kept.ite ?_ (fun _ => ?_) | refine Kept.iteOf Prod.fst ?_ ?_)
    | (split <;> try dsimp only))

theorem State.chainFalls_kept {a s} (h : Kept a s) : Kept a (State.chainFalls s) := by
  unfold State.chainFalls; try dsimp only
  repeat' (first | (with_reducible first | assumption | apply State.chainCheck_kept) | simp only [Kept.upd])

theorem State.chainRises_kept {a s} (h : Kept a s) : Kept a (State.chainRises s) := by
  unfold State.chainRises; try dsimp only
  repeat' (first | (with_reducible first | assumption | apply State.condEnd_kept) | simp only [Kept.upd])

theorem State.readback_kept {a s} (h : Kept a s) (o) : Kept a (State.readback s o) := by
  unfold State.readback; try dsimp only
  repeat' (
    first
    | (with_reducible first
       | assumption | apply State.latch_kept | refine Kept.ite ?_ (fun _ => ?_))
    | (split <;> try dsimp only))

theorem State.webLoss_kept {a s} (h : Kept a s) (w) : Kept a (State.webLoss s w) := by
  unfold State.webLoss; try dsimp only
  repeat' (
    first
    | (with_reducible first
       | assumption | apply State.latch_kept | refine Kept.ite ?_ (fun _ => ?_))
    | (split <;> try dsimp only))

theorem State.supplyOut_kept {a s} (h : Kept a s) (n) (mv) : Kept a (State.supplyOut s n mv) := by
  unfold State.supplyOut; try dsimp only
  repeat' (
    first
    | (with_reducible first
       | assumption | apply State.latch_kept | refine Kept.ite ?_ (fun _ => ?_))
    | (split <;> try dsimp only))

theorem State.pairSilentF_kept {a s} (h : Kept a s) (pair) : Kept a (State.pairSilentF s pair) := by
  unfold State.pairSilentF; try dsimp only
  repeat' (with_reducible first | assumption | apply State.latch_kept)

theorem State.presWinF_kept {a s} (h : Kept a s) (ch) (v) : Kept a (State.presWinF s ch v) := by
  unfold State.presWinF; try dsimp only
  repeat' (
    first
    | (with_reducible first
       | assumption | apply State.latch_kept | refine Kept.ite ?_ (fun _ => ?_))
    | (split <;> try dsimp only))

theorem State.setTwin_kept {a s} (h : Kept a s) (f) : Kept a (State.setTwin s f) := by
  unfold State.setTwin; try dsimp only
  repeat' (first | (with_reducible first | assumption) | simp only [Kept.upd])

theorem State.twinTrained_kept {a s} (h : Kept a s) : Kept a (State.twinTrained s) := by
  unfold State.twinTrained; try dsimp only
  repeat' (
    first
    | (with_reducible first
       | assumption | apply State.setTwin_kept | apply State.setBit_kept | apply State.setObj_kept | apply State.twinSend_kept
       | refine Kept.ite ?_ (fun _ => ?_))
    | simp only [Kept.upd]
    | (split <;> try dsimp only))

theorem State.twinDown_kept {a s} (h : Kept a s) : Kept a (State.twinDown s) := by
  unfold State.twinDown; try dsimp only
  repeat' (first | (with_reducible first | assumption | apply State.setTwin_kept | apply State.setObj_kept) | simp only [Kept.upd])

theorem State.twinBeat_kept {a s} (h : Kept a s) : Kept a (State.twinBeat s) := by
  unfold State.twinBeat; try dsimp only
  repeat' (
    first
    | (with_reducible first
       | assumption | apply State.emit_kept | apply State.setTwin_kept | refine Kept.ite ?_ (fun _ => ?_))
    | simp only [Kept.upd]
    | (split <;> try dsimp only))

theorem State.twinAgain_kept {a s} (h : Kept a s) : Kept a (State.twinAgain s) := by
  unfold State.twinAgain; try dsimp only
  repeat' (
    first
    | (with_reducible first
       | assumption | apply State.setTwin_kept | apply State.count_kept | apply State.emit_kept
       | refine Kept.ite ?_ (fun _ => ?_) | apply Kept.fold | apply Kept.foldOf Prod.fst)
    | (intro _; try dsimp only)
    | (split <;> try dsimp only))

theorem State.twinLaneFail_kept {a s} (h : Kept a s) (l) : Kept a (State.twinLaneFail s l) := by
  unfold State.twinLaneFail; try dsimp only
  repeat' (with_reducible first | assumption | apply State.calInterrupt_kept | apply State.twinLaneDown_kept)

theorem State.giveSnapshot_kept {a s} (h : Kept a s) : Kept a (State.giveSnapshot s) := by
  unfold State.giveSnapshot; try dsimp only
  repeat' (
    first
    | (with_reducible first
       | assumption | apply State.twinSend_kept | refine Kept.ite ?_ (fun _ => ?_) | apply Kept.fold
       | apply Kept.foldOf Prod.fst)
    | (intro _; try dsimp only)
    | (split <;> try dsimp only))

theorem State.authAll_kept {a s} (h : Kept a s) : Kept a (State.authAll s) := by
  unfold State.authAll; try dsimp only
  repeat' (
    first
    | (with_reducible first
       | assumption | apply State.sendAuth_kept | apply Kept.fold | apply Kept.foldOf Prod.fst)
    | (intro _; try dsimp only))

theorem State.electActive_kept {a s} (h : Kept a s) : Kept a (State.electActive s) := by
  unfold State.electActive; try dsimp only
  repeat' (
    with_reducible first
    | assumption
    | apply State.setObj_kept
    | apply State.giveSnapshot_kept
    | apply State.authAll_kept
    | apply State.setTwinState_kept)

theorem State.election_kept {a s} (h : Kept a s) (linkTrained) : Kept a (State.election s linkTrained) := by
  unfold State.election; try dsimp only
  repeat' (
    first
    | (with_reducible first
       | assumption | apply State.twinTrained_kept | apply State.setTwinState_kept | apply State.electActive_kept
       | refine Kept.ite ?_ (fun _ => ?_))
    | (split <;> try dsimp only))

theorem State.electTimeout_kept {a s} (h : Kept a s) : Kept a (State.electTimeout s) := by
  unfold State.electTimeout; try dsimp only
  repeat' (
    first
    | (with_reducible first
       | assumption | apply State.setTwinState_kept | apply State.electActive_kept | refine Kept.ite ?_ (fun _ => ?_))
    | (split <;> try dsimp only))

theorem State.presFall_kept {a s} (h : Kept a s) : Kept a (State.presFall s) := by
  unfold State.presFall; try dsimp only
  repeat' (
    first
    | (with_reducible first
       | assumption | apply State.setBit_kept | apply State.setTwin_kept | apply State.setTwinState_kept
       | refine Kept.ite ?_ (fun _ => ?_))
    | simp only [Kept.upd]
    | (split <;> try dsimp only))

theorem State.adoptHeads_kept {a s} (h : Kept a s) : Kept a (State.adoptHeads s) := by
  unfold State.adoptHeads; try dsimp only
  repeat' (
    first
    | (with_reducible first
       | assumption | apply State.setHeadDev_kept | apply State.setObj_kept | refine Kept.ite ?_ (fun _ => ?_)
       | apply Kept.fold | apply Kept.foldOf Prod.fst)
    | simp only [Kept.upd]
    | (intro _; try dsimp only)
    | (split <;> try dsimp only))

theorem State.resendLines_kept {a s} (h : Kept a s) : Kept a (State.resendLines s) := by
  unfold State.resendLines; try dsimp only
  repeat' (
    first
    | (with_reducible first
       | assumption | apply State.sendLine_kept | refine Kept.ite ?_ (fun _ => ?_) | apply Kept.fold
       | apply Kept.foldOf Prod.fst)
    | (intro _; try dsimp only)
    | (split <;> try dsimp only))

theorem State.stopRings_kept {a s} (h : Kept a s) : Kept a (State.stopRings s) := by
  unfold State.stopRings; try dsimp only
  repeat' (
    first
    | (with_reducible first
       | assumption | apply State.ringDisable_kept | apply State.setRing_kept | refine Kept.ite ?_ (fun _ => ?_)
       | apply Kept.fold | apply Kept.foldOf Prod.fst)
    | simp only [Kept.upd]
    | (intro _; try dsimp only)
    | (split <;> try dsimp only))

theorem State.markTwinFrames_kept {a s} (h : Kept a s) : Kept a (State.markTwinFrames s) := by
  unfold State.markTwinFrames; try dsimp only
  repeat' (
    first
    | (with_reducible first
       | assumption | apply State.event_kept | apply State.setCam_kept | refine Kept.ite ?_ (fun _ => ?_) | apply Kept.fold
       | apply Kept.foldOf Prod.fst)
    | simp only [Kept.upd]
    | (intro _; try dsimp only)
    | (split <;> try dsimp only))

theorem State.adoptCams_kept {a s} (h : Kept a s) : Kept a (State.adoptCams s) := by
  unfold State.adoptCams; try dsimp only
  repeat' (
    first
    | (with_reducible first
       | assumption | apply State.setCam_kept | apply State.setObj_kept | refine Kept.ite ?_ (fun _ => ?_) | apply Kept.fold
       | apply Kept.foldOf Prod.fst)
    | simp only [Kept.upd]
    | (intro _; try dsimp only)
    | (split <;> try dsimp only))

theorem State.takeover_kept {a s} (h : Kept a s) (epoch) (cause) : Kept a (State.takeover s epoch cause) := by
  unfold State.takeover; try dsimp only
  repeat' (
    first
    | (with_reducible first
       | assumption | apply State.setTwin_kept | apply State.setTwinState_kept | apply State.setObj_kept
       | apply State.adoptCams_kept | apply State.markTwinFrames_kept | apply State.stopRings_kept
       | apply State.resendLines_kept | apply State.adoptHeads_kept | apply State.authAll_kept | apply State.eventJ_kept
       | apply State.refreshSets_kept | apply State.startLoads_kept | apply State.count_kept)
    | simp only [Kept.upd])

theorem State.takeHeads_kept {a s} (h : Kept a s) (cause) : Kept a (State.takeHeads s cause) := by
  unfold State.takeHeads; try dsimp only
  repeat' (
    first
    | (with_reducible first
       | assumption | apply State.takeover_kept | refine Kept.ite ?_ (fun _ => ?_))
    | (split <;> try dsimp only))

theorem State.partnerFault_kept {a s} (h : Kept a s) : Kept a (State.partnerFault s) := by
  unfold State.partnerFault; try dsimp only
  repeat' (with_reducible first | assumption | apply State.latch_kept)

theorem State.twinSilence_kept {a s} (h : Kept a s) : Kept a (State.twinSilence s) := by
  unfold State.twinSilence; try dsimp only
  repeat' (
    first
    | (with_reducible first
       | assumption | apply State.partnerFault_kept | apply State.takeHeads_kept | apply State.twinDown_kept
       | refine Kept.ite ?_ (fun _ => ?_))
    | (split <;> try dsimp only))

theorem State.loseStandby_kept {a s} (h : Kept a s) : Kept a (State.loseStandby s) := by
  unfold State.loseStandby; try dsimp only
  repeat' (
    first
    | (with_reducible first
       | assumption | apply State.setTwin_kept | apply State.eventJ_kept | apply State.partnerFault_kept)
    | simp only [Kept.upd])

theorem State.twinPartnerLost_kept {a s} (h : Kept a s) : Kept a (State.twinPartnerLost s) := by
  unfold State.twinPartnerLost; try dsimp only
  repeat' (
    first
    | (with_reducible first
       | assumption | apply State.twinDown_kept | apply State.loseStandby_kept | refine Kept.ite ?_ (fun _ => ?_))
    | (split <;> try dsimp only))

theorem State.twinPlanned_kept {a s} (h : Kept a s) : Kept a (State.twinPlanned s) := by
  unfold State.twinPlanned; try dsimp only
  repeat' (
    first
    | (with_reducible first
       | assumption | apply State.plannedStop_kept | refine Kept.ite ?_ (fun _ => ?_))
    | (split <;> try dsimp only))

theorem State.snapshotDone_kept {a s} (h : Kept a s) : Kept a (State.snapshotDone s) := by
  unfold State.snapshotDone; try dsimp only
  repeat' (
    first
    | (with_reducible first
       | assumption | apply State.setTwinState_kept | refine Kept.ite ?_ (fun _ => ?_))
    | (split <;> try dsimp only))

theorem State.standbyReady_kept {a s} (h : Kept a s) : Kept a (State.standbyReady s) := by
  unfold State.standbyReady; try dsimp only
  repeat' (
    first
    | (with_reducible first
       | assumption | apply State.setTwinState_kept | refine Kept.ite ?_ (fun _ => ?_))
    | (split <;> try dsimp only))

theorem State.twinEnableSet_kept {a s} (h : Kept a s) (v) : Kept a (State.twinEnableSet s v) := by
  unfold State.twinEnableSet; try dsimp only
  repeat' (
    first
    | (with_reducible first
       | assumption | apply State.setObj_kept | apply State.twinDown_kept | apply State.setTwin_kept
       | apply State.setTwinState_kept | refine Kept.ite ?_ (fun _ => ?_))
    | simp only [Kept.upd]
    | (split <;> try dsimp only))

theorem State.handOver_kept {a s} (h : Kept a s) : Kept a (State.handOver s).1 := by
  unfold State.handOver; try dsimp only
  repeat' (
    first
    | (with_reducible first
       | assumption | apply State.twinSend_kept | apply State.setTwin_kept | refine Kept.ite ?_ (fun _ => ?_)
       | refine Kept.iteOf Prod.fst ?_ ?_)
    | simp only [Kept.upd]
    | (split <;> try dsimp only))

theorem State.forceActive_kept {a s} (h : Kept a s) : Kept a (State.forceActive s).1 := by
  unfold State.forceActive; try dsimp only
  repeat' (
    first
    | (with_reducible first
       | assumption | apply State.takeover_kept | refine Kept.ite ?_ (fun _ => ?_) | refine Kept.iteOf Prod.fst ?_ ?_)
    | (split <;> try dsimp only))

theorem State.twinCmd_kept {a s} (h : Kept a s) (v) : Kept a (State.twinCmd s v).1 := by
  unfold State.twinCmd; try dsimp only
  repeat' (
    first
    | (with_reducible first
       | assumption | apply State.handOver_kept | apply State.forceActive_kept | refine Kept.ite ?_ (fun _ => ?_)
       | refine Kept.iteOf Prod.fst ?_ ?_)
    | (split <;> try dsimp only))

theorem State.fragPost_kept {a s} (h : Kept a s) (i) : Kept a (State.fragPost s i) := by
  unfold State.fragPost; try dsimp only
  repeat' (
    first
    | (with_reducible first
       | assumption | apply State.writeRecord_kept | apply State.setRing_kept | refine Kept.ite ?_ (fun _ => ?_))
    | simp only [Kept.upd]
    | (split <;> try dsimp only))

theorem State.secJournal_kept {a s} (h : Kept a s) (action) (old) (new) (slot) : Kept a
    (State.secJournal s action old new slot) := by
  unfold State.secJournal; try dsimp only
  repeat' (with_reducible first | assumption | apply State.journal_kept)

theorem State.svnCommit_kept {a s} (h : Kept a s) : Kept a (State.svnCommit s) := by
  unfold State.svnCommit; try dsimp only
  repeat' (
    first
    | (with_reducible first
       | assumption | apply State.secJournal_kept | refine Kept.ite ?_ (fun _ => ?_))
    | simp only [Kept.upd]
    | (split <;> try dsimp only))

theorem State.lifecycleSet_kept {a s} (h : Kept a s) (v) (super) (mailbox) : Kept a (State.lifecycleSet s v super mailbox).1 := by
  unfold State.lifecycleSet; try dsimp only
  repeat' (
    first
    | (with_reducible first
       | assumption | apply State.secJournal_kept | refine Kept.ite ?_ (fun _ => ?_) | refine Kept.iteOf Prod.fst ?_ ?_)
    | simp only [Kept.upd]
    | (split <;> try dsimp only))

theorem State.keyProvision_kept {a s} (h : Kept a s) (d) (super) (mailbox) : Kept a (State.keyProvision s d super mailbox).1 := by
  unfold State.keyProvision; try dsimp only
  repeat' (
    first
    | (with_reducible first
       | assumption | apply State.secJournal_kept | apply State.setBit_kept | refine Kept.ite ?_ (fun _ => ?_)
       | refine Kept.iteOf Prod.fst ?_ ?_)
    | simp only [Kept.upd]
    | (split <;> try dsimp only))

theorem State.makerKeySet_kept {a s} (h : Kept a s) (d) (super) (mailbox) : Kept a (State.makerKeySet s d super mailbox).1 := by
  unfold State.makerKeySet; try dsimp only
  repeat' (
    first
    | (with_reducible first
       | assumption | refine Kept.ite ?_ (fun _ => ?_) | refine Kept.iteOf Prod.fst ?_ ?_)
    | simp only [Kept.upd]
    | (split <;> try dsimp only))

theorem State.debugKeySet_kept {a s} (h : Kept a s) (d) (super) (mailbox) : Kept a (State.debugKeySet s d super mailbox).1 := by
  unfold State.debugKeySet; try dsimp only
  repeat' (
    first
    | (with_reducible first
       | assumption | refine Kept.ite ?_ (fun _ => ?_) | refine Kept.iteOf Prod.fst ?_ ?_)
    | simp only [Kept.upd]
    | (split <;> try dsimp only))

theorem State.keyRevoke_kept {a s} (h : Kept a s) (slot) (own) : Kept a (State.keyRevoke s slot own).1 := by
  unfold State.keyRevoke; try dsimp only
  repeat' (
    first
    | (with_reducible first
       | assumption | apply State.secJournal_kept | apply State.setObj_kept | apply State.setBit_kept
       | refine Kept.ite ?_ (fun _ => ?_) | refine Kept.iteOf Prod.fst ?_ ?_)
    | (split <;> try dsimp only))

theorem State.debugChallenge_kept {a s} (h : Kept a s) (super) : Kept a (State.debugChallenge s super).1 := by
  unfold State.debugChallenge; try dsimp only
  repeat' (
    first
    | (with_reducible first
       | assumption | apply State.draw_kept | refine Kept.ite ?_ (fun _ => ?_) | refine Kept.iteOf Prod.fst ?_ ?_)
    | simp only [Kept.upd]
    | (split <;> try dsimp only))

theorem State.debugResponse_kept {a s} (h : Kept a s) (d) (super) : Kept a (State.debugResponse s d super).1 := by
  unfold State.debugResponse; try dsimp only
  repeat' (
    first
    | (with_reducible first
       | assumption | apply State.secJournal_kept | apply State.setObj_kept | refine Kept.ite ?_ (fun _ => ?_)
       | refine Kept.iteOf Prod.fst ?_ ?_)
    | simp only [Kept.upd]
    | (split <;> try dsimp only))

theorem State.debugClose_kept {a s} (h : Kept a s) : Kept a (State.debugClose s) := by
  unfold State.debugClose; try dsimp only
  repeat' (
    first
    | (with_reducible first
       | assumption | apply State.secJournal_kept | apply State.setObj_kept | refine Kept.ite ?_ (fun _ => ?_))
    | simp only [Kept.upd]
    | (split <;> try dsimp only))

theorem State.setPwr_kept {a s} (h : Kept a s) (f) : Kept a (State.setPwr s f) := by
  unfold State.setPwr; try dsimp only
  repeat' (first | (with_reducible first | assumption) | simp only [Kept.upd])

theorem State.flushDomain_kept {a s} (h : Kept a s) (d) : Kept a (State.flushDomain s d) := by
  unfold State.flushDomain; try dsimp only
  repeat' (
    first
    | (with_reducible first
       | assumption | apply State.flushWear_kept | apply Kept.fold | apply Kept.foldOf Prod.fst)
    | (intro _; try dsimp only))

theorem State.headsOff_kept {a s} (h : Kept a s) (d) : Kept a (State.headsOff s d) := by
  unfold State.headsOff; try dsimp only
  repeat' (
    first
    | (with_reducible first
       | assumption | apply State.setHeadDev_kept | apply State.releaseHead_kept | apply State.hlDown_kept
       | apply State.setObj_kept | refine Kept.ite ?_ (fun _ => ?_) | apply Kept.fold | apply Kept.foldOf Prod.fst)
    | simp only [Kept.upd]
    | (intro _; try dsimp only)
    | (split <;> try dsimp only))

theorem State.lanesOff_kept {a s} (h : Kept a s) (d) : Kept a (State.lanesOff s d) := by
  unfold State.lanesOff; try dsimp only
  repeat' (
    first
    | (with_reducible first
       | assumption | apply State.laneBits_kept | apply State.calInterrupt_kept | apply State.eyeAbort_kept
       | refine Kept.ite ?_ (fun _ => ?_) | apply Kept.fold | apply Kept.foldOf Prod.fst)
    | (intro _; try dsimp only)
    | (split <;> try dsimp only))

theorem State.closeDomain_kept {a s} (h : Kept a s) (d) : Kept a (State.closeDomain s d) := by
  unfold State.closeDomain; try dsimp only
  repeat' (
    first
    | (with_reducible first
       | assumption | apply State.headsOff_kept | apply State.flushDomain_kept | apply State.lanesOff_kept
       | apply State.camIsLost_kept | apply State.strPowerOff_kept | apply State.twinDown_kept | apply State.linkDown_kept
       | apply State.setObj_kept | apply State.selfRefresh_kept | apply State.sweepAbort_kept
       | refine Kept.ite ?_ (fun _ => ?_) | apply Kept.fold | apply Kept.foldOf Prod.fst)
    | (intro _; try dsimp only)
    | (split <;> try dsimp only))

theorem State.loseDomain_kept {a s} (h : Kept a s) (d) : Kept a (State.loseDomain s d) := by
  have k : ∀ p q (u : State), u.pending = s.pending → u.objs = s.objs.filter p → u.blobs = s.blobs.filter q → u.dram = s.dram →
      u.out = s.out → u.free = s.free → Kept a u := fun p q u h1 h2 h3 h4 h5 h6 =>
    h.filter p q (fun _ => true) h1 h2 h3 (h4.trans (List.filter_true _).symm) h5 h6.ge
  unfold State.loseDomain; try dsimp only
  repeat' (
    first
    | (with_reducible first
       | assumption | refine Kept.ite ?_ (fun _ => ?_))
    | exact k _ _ _ rfl rfl rfl rfl rfl rfl
    | simp only [Kept.upd]
    | (split <;> try dsimp only))

theorem State.setDomains_kept {a s} (h : Kept a s) (mode) : Kept a (State.setDomains s mode) := by
  unfold State.setDomains; try dsimp only
  repeat' (
    first
    | (with_reducible first
       | assumption | apply State.loseDomain_kept | apply State.setDomain_kept | refine Kept.ite ?_ (fun _ => ?_)
       | apply Kept.fold | apply Kept.foldOf Prod.fst)
    | (intro _; try dsimp only)
    | (split <;> try dsimp only))

theorem State.stoAll_kept {a s} (h : Kept a s) : Kept a (State.stoAll s) := by
  unfold State.stoAll; try dsimp only
  repeat' (
    first
    | (with_reducible first
       | assumption | apply State.stoAxis_kept | refine Kept.ite ?_ (fun _ => ?_) | apply Kept.fold
       | apply Kept.foldOf Prod.fst)
    | (intro _; try dsimp only)
    | (split <;> try dsimp only))

theorem State.avsGoal_kept {a s} (h : Kept a s) (mode) : Kept a (State.avsGoal s mode) := by
  unfold State.avsGoal; try dsimp only
  repeat' (
    first
    | (with_reducible first
       | assumption | apply State.setPwr_kept | apply State.drawNat_kept | refine Kept.ite ?_ (fun _ => ?_))
    | simp only [Kept.upd]
    | (split <;> try dsimp only))

theorem State.ctrlResult_kept {a s} (h : Kept a s) (result) (dom) (reason) : Kept a (State.ctrlResult s result dom reason) := by
  unfold State.ctrlResult; try dsimp only
  repeat' (first | (with_reducible first | assumption | apply State.setPwr_kept) | simp only [Kept.upd])

theorem State.enterDormant_kept {a s} (h : Kept a s) : Kept a (State.enterDormant s) := by
  unfold State.enterDormant; try dsimp only
  repeat' (first | (with_reducible first | assumption | apply State.setBit_kept) | simp only [Kept.upd])

theorem State.fallDone_kept {a s} (h : Kept a s) (mode) (cause) : Kept a (State.fallDone s mode cause) := by
  unfold State.fallDone; try dsimp only
  repeat' (
    first
    | (with_reducible first
       | assumption | apply State.setDomains_kept | apply State.avsGoal_kept | apply State.enterDormant_kept
       | apply State.stoAll_kept | apply State.setBit_kept | apply State.setPwr_kept | apply State.powerReached_kept
       | refine Kept.ite ?_ (fun _ => ?_))
    | simp only [Kept.upd]
    | (split <;> try dsimp only))

theorem State.sleepRefused_kept {a s} (h : Kept a s) (mode) (d) (why) : Kept a (State.sleepRefused s mode d why) := by
  unfold State.sleepRefused; try dsimp only
  repeat' (
    with_reducible first
    | assumption
    | apply State.setBit_kept
    | apply State.setObj_kept
    | apply State.event_kept
    | apply State.ctrlResult_kept
    | apply State.count_kept)

theorem fallStep_kept {a} {acc} (h : Kept a acc.1) (mode) (late) (d) : Kept a (fallStep mode late acc d).1 := by
  unfold fallStep; try dsimp only
  repeat' (
    first
    | (with_reducible first
       | assumption | apply State.sleepRefused_kept | apply State.closeDomain_kept | refine Kept.ite ?_ (fun _ => ?_)
       | refine Kept.iteOf Prod.fst ?_ ?_)
    | (split <;> try dsimp only))

theorem State.fall_kept {a s} (h : Kept a s) (mode) (late) : Kept a (State.fall s mode late) := by
  unfold State.fall; try dsimp only
  repeat' (
    first
    | (with_reducible first
       | assumption | apply fallStep_kept | apply State.fallDone_kept | apply State.ctrlResult_kept
       | apply State.selfRefresh_kept | refine Kept.ite ?_ (fun _ => ?_) | apply Kept.fold | apply Kept.foldOf Prod.fst)
    | (intro _; try dsimp only)
    | (split <;> try dsimp only))

theorem State.forcedOff_kept {a s} (h : Kept a s) : Kept a (State.forcedOff s) := by
  refine State.fallDone_kept (State.ctrlResult_kept ?_ 1 0 0) pwOff 4
  exact ⟨h.1, h.2, h.3, fun _ => rfl, h.5, h.6⟩

theorem State.riseDone_kept {a s} (h : Kept a s) (mode) (cause) : Kept a (State.riseDone s mode cause) := by
  unfold State.riseDone; try dsimp only
  repeat' (
    first
    | (with_reducible first
       | assumption | apply State.setPwr_kept | apply State.setDomains_kept | apply State.setBit_kept
       | apply State.resumeTime_kept | apply State.selfRefresh_kept | apply State.powerReached_kept
       | apply State.ctrlResult_kept | refine Kept.ite ?_ (fun _ => ?_))
    | simp only [Kept.upd]
    | (split <;> try dsimp only))

theorem State.rise_kept {a s} (h : Kept a s) (mode) (cause) : Kept a (State.rise s mode cause) := by
  unfold State.rise; try dsimp only
  repeat' (
    first
    | (with_reducible first
       | assumption | apply State.avsGoal_kept | apply State.setPwr_kept | apply State.riseDone_kept
       | refine Kept.ite ?_ (fun _ => ?_))
    | simp only [Kept.upd]
    | (split <;> try dsimp only))

theorem State.pwrTargetSet_kept {a s} (h : Kept a s) (v) : Kept a (State.pwrTargetSet s v).1 := by
  unfold State.pwrTargetSet; try dsimp only
  repeat' (
    first
    | (with_reducible first
       | assumption | apply State.setObj_kept | apply State.setBit_kept | apply State.setPwr_kept
       | refine Kept.ite ?_ (fun _ => ?_) | refine Kept.iteOf Prod.fst ?_ ?_)
    | simp only [Kept.upd]
    | (split <;> try dsimp only))

theorem State.transition_kept {a s} (h : Kept a s) (late) : Kept a (State.transition s late) := by
  unfold State.transition; try dsimp only
  repeat' (
    first
    | (with_reducible first
       | assumption | apply State.forcedOff_kept | apply State.fall_kept | apply State.rise_kept
       | refine Kept.ite ?_ (fun _ => ?_))
    | (split <;> try dsimp only))

theorem State.avsStep_kept {a s} (h : Kept a s) : Kept a (State.avsStep s) := by
  unfold State.avsStep; try dsimp only
  repeat' (
    first
    | (with_reducible first
       | assumption | apply State.setPwr_kept | apply State.emit_kept | apply State.setObj_kept | apply State.riseDone_kept
       | refine Kept.ite ?_ (fun _ => ?_))
    | simp only [Kept.upd]
    | (split <;> try dsimp only))

theorem State.pmbAlerts_kept {a s} (h : Kept a s) : Kept a (State.pmbAlerts s) := by
  unfold State.pmbAlerts; try dsimp only
  repeat' (with_reducible first | assumption | apply State.drawNat_kept | apply State.event_kept | apply State.latch_kept)

theorem State.setCic_kept {a s} (h : Kept a s) (f) : Kept a (State.setCic s f) := by
  unfold State.setCic; try dsimp only
  repeat' (first | (with_reducible first | assumption) | simp only [Kept.upd])

theorem State.endSpit_kept {a s} (h : Kept a s) : Kept a (State.endSpit s) := by
  unfold State.endSpit; try dsimp only
  repeat' (
    first
    | (with_reducible first
       | assumption | apply State.setCic_kept | apply State.headsOff_kept | apply State.setBit_kept
       | apply State.setDomain_kept | refine Kept.ite ?_ (fun _ => ?_))
    | simp only [Kept.upd]
    | (split <;> try dsimp only))

theorem State.fullWake_kept {a s} (h : Kept a s) (cause) (ch) (reading) : Kept a (State.fullWake s cause ch reading) := by
  unfold State.fullWake; try dsimp only
  repeat' (
    first
    | (with_reducible first
       | assumption | apply State.riseDone_kept | apply State.setObj_kept | apply State.endSpit_kept | apply State.event_kept
       | refine Kept.ite ?_ (fun _ => ?_))
    | (split <;> try dsimp only))

theorem State.cicReadings_kept {a s} (h : Kept a s) (adc) : Kept a (State.cicReadings s adc) := by
  unfold State.cicReadings; try dsimp only
  repeat' (
    first
    | (with_reducible first
       | assumption | apply State.setBlob_kept | refine Kept.ite ?_ (fun _ => ?_))
    | (split <;> try dsimp only))

theorem State.startSpit_kept {a s} (h : Kept a s) : Kept a (State.startSpit s) := by
  unfold State.startSpit; try dsimp only
  repeat' (
    first
    | (with_reducible first
       | assumption | apply State.setObj_kept | apply State.setBit_kept | apply State.setDomain_kept
       | apply State.setCic_kept)
    | simp only [Kept.upd]
    | (split <;> try dsimp only))

theorem State.cicadaWake_kept {a s} (h : Kept a s) (adc) (pins) : Kept a (State.cicadaWake s adc pins) := by
  unfold State.cicadaWake; try dsimp only
  repeat' (
    first
    | (with_reducible first
       | assumption | apply State.setCic_kept | apply State.count_kept | apply State.cicReadings_kept
       | apply State.fullWake_kept | apply State.startSpit_kept | refine Kept.ite ?_ (fun _ => ?_))
    | simp only [Kept.upd]
    | (split <;> try dsimp only))

theorem State.skipBars_kept {a s} (h : Kept a s) (l) : Kept a (State.skipBars s l) := by
  unfold State.skipBars; try dsimp only
  repeat' (
    first
    | (with_reducible first
       | assumption | apply State.countElem_kept | apply Kept.fold | apply Kept.foldOf Prod.fst)
    | (intro _; try dsimp only))

theorem State.spitFails_kept {a s} (h : Kept a s) (p) (lost) : Kept a (State.spitFails s p lost) := by
  unfold State.spitFails; try dsimp only
  repeat' (
    first
    | (with_reducible first
       | assumption | apply State.skipBars_kept | apply State.fullWake_kept | apply State.endSpit_kept
       | apply State.setCic_kept | refine Kept.ite ?_ (fun _ => ?_))
    | simp only [Kept.upd]
    | (split <;> try dsimp only))

theorem State.spitTimeout_kept {a s} (h : Kept a s) : Kept a (State.spitTimeout s) := by
  unfold State.spitTimeout; try dsimp only
  repeat' (
    first
    | (with_reducible first
       | assumption | apply State.spitFails_kept | refine Kept.ite ?_ (fun _ => ?_))
    | (split <;> try dsimp only))

theorem State.prepareSpit_kept {a s} (h : Kept a s) (p) : Kept a (State.prepareSpit s p) := by
  unfold State.prepareSpit; try dsimp only
  repeat' (
    first
    | (with_reducible first
       | assumption | apply State.setBlob_kept | apply State.loadWave_kept | apply State.sendAuth_kept
       | apply State.ctlSend_kept | apply State.skipBars_kept | apply State.setCic_kept | apply Kept.fold
       | apply Kept.foldOf Prod.fst)
    | simp only [Kept.upd]
    | (intro _; try dsimp only))

theorem State.spitHead_kept {a s} (h : Kept a s) (line) (ft) (dot) (h') : Kept a (State.spitHead s line ft dot h') := by
  unfold State.spitHead; try dsimp only
  repeat' (with_reducible first | assumption | apply State.hlTx_kept)

theorem State.spitLine_kept {a s} (h : Kept a s) : Kept a (State.spitLine s) := by
  unfold State.spitLine; try dsimp only
  repeat' (
    first
    | (with_reducible first
       | assumption | apply State.spitFails_kept | apply State.prepareSpit_kept | apply State.fullWake_kept
       | apply State.endSpit_kept | apply State.drawNat_kept | apply State.spitHead_kept | apply State.setCic_kept
       | apply State.countElem_kept | refine Kept.ite ?_ (fun _ => ?_) | apply Kept.fold | apply Kept.foldOf Prod.fst)
    | simp only [Kept.upd]
    | (intro _; try dsimp only)
    | (split <;> try dsimp only))

theorem State.wakePin_kept {a s} (h : Kept a s) : Kept a (State.wakePin s) := by
  unfold State.wakePin; try dsimp only
  repeat' (
    first
    | (with_reducible first
       | assumption | apply State.fullWake_kept | refine Kept.ite ?_ (fun _ => ?_))
    | (split <;> try dsimp only))

theorem State.faultWakes_kept {a} {before} {after} (_h : Kept a before) (h1 : Kept a after) : Kept a
    (State.faultWakes before after) := by
  unfold State.faultWakes; try dsimp only
  repeat' (
    first
    | (with_reducible first
       | assumption | apply State.fullWake_kept | refine Kept.ite ?_ (fun _ => ?_))
    | (split <;> try dsimp only))

theorem State.pllLock_kept {a s} (h : Kept a s) : Kept a (State.pllLock s) := by
  unfold State.pllLock; try dsimp only
  repeat' (
    first
    | (with_reducible first
       | assumption | apply State.setBit_kept | apply State.condEnd_kept | refine Kept.ite ?_ (fun _ => ?_))
    | (split <;> try dsimp only))

theorem State.pllRetry_kept {a s} (h : Kept a s) (refclk) : Kept a (State.pllRetry s refclk) := by
  unfold State.pllRetry; try dsimp only
  repeat' (
    first
    | (with_reducible first
       | assumption | apply State.setBit_kept | apply State.latch_kept | refine Kept.ite ?_ (fun _ => ?_))
    | (split <;> try dsimp only))

theorem State.pllLoss_kept {a s} (h : Kept a s) : Kept a (State.pllLoss s) := by
  unfold State.pllLoss; try dsimp only
  repeat' (
    first
    | (with_reducible first
       | assumption | apply State.count_kept | apply State.latch_kept | apply State.setPwr_kept | apply State.setBit_kept
       | refine Kept.ite ?_ (fun _ => ?_))
    | simp only [Kept.upd]
    | (split <;> try dsimp only))

theorem State.cleared_kept {a s} (h : Kept a s) (source) : Kept a (State.cleared s source) := by
  unfold State.cleared; try dsimp only
  repeat' (
    first
    | (with_reducible first
       | assumption | apply State.draw_kept | apply State.headPortDown_kept | apply State.setBlob_kept
       | apply State.setObj_kept | apply State.setBit_kept | apply Kept.fold | apply Kept.foldOf Prod.fst)
    | (intro _; try dsimp only))
  exact ⟨h.1, fun _ => rfl, fun _ => List.Pairwise.nil, fun _ => rfl, h.5, h.6.trans (Nat.le_succ _)⟩

theorem State.fullReset_kept {a s} (h : Kept a s) (source) : Kept a (State.fullReset s source) := by
  unfold State.fullReset; try dsimp only
  repeat' (with_reducible first | assumption | apply State.latch_kept | apply State.count_kept | apply State.cleared_kept)

theorem State.resetBy_kept {a s} (h : Kept a s) (source) : Kept a (State.resetBy s source) := by
  unfold State.resetBy; try dsimp only
  repeat' (
    first
    | (with_reducible first
       | assumption | apply State.fullReset_kept | refine Kept.ite ?_ (fun _ => ?_))
    | (split <;> try dsimp only))

theorem State.rstRequestSet_kept {a s} (h : Kept a s) (v) : Kept a (State.rstRequestSet s v).1 := by
  unfold State.rstRequestSet; try dsimp only
  repeat' (
    first
    | (with_reducible first
       | assumption | apply State.setPwr_kept | apply State.secJournal_kept | refine Kept.ite ?_ (fun _ => ?_)
       | refine Kept.iteOf Prod.fst ?_ ?_)
    | simp only [Kept.upd]
    | (split <;> try dsimp only))

theorem State.bootDone_kept {a s} (h : Kept a s) : Kept a (State.bootDone s) := by
  unfold State.bootDone; try dsimp only
  repeat' (
    first
    | (with_reducible first
       | assumption | apply State.journal_kept | apply State.condEnd_kept | apply State.drawNat_kept | apply State.setObj_kept
       | apply State.setTwinState_kept | apply State.setTwin_kept | refine Kept.ite ?_ (fun _ => ?_) | apply Kept.fold
       | apply Kept.foldOf Prod.fst)
    | simp only [Kept.upd]
    | (intro _; try dsimp only)
    | (split <;> try dsimp only))

theorem State.enCount_kept {a s} (h : Kept a s) (p) (ok) : Kept a (State.enCount s p ok) := by
  unfold State.enCount; try dsimp only
  repeat' (
    first
    | (with_reducible first
       | assumption | apply State.count_kept | refine Kept.ite ?_ (fun _ => ?_))
    | (split <;> try dsimp only))

theorem State.ethFrame_kept {a s} (h : Kept a s) (p) (f) (ok) : Kept a (State.ethFrame s p f ok) := by
  unfold State.ethFrame; try dsimp only
  repeat' (
    first
    | (with_reducible first
       | assumption | apply State.enCount_kept | apply State.emit_kept | refine Kept.ite ?_ (fun _ => ?_))
    | (split <;> try dsimp only))

theorem State.enLink_kept {a s} (h : Kept a s) (p) (up) : Kept a (State.enLink s p up) := by
  unfold State.enLink; try dsimp only
  repeat' (
    first
    | (with_reducible first
       | assumption | apply State.setObj_kept | refine Kept.ite ?_ (fun _ => ?_))
    | (split <;> try dsimp only))

theorem State.mapSession_kept {a s} (h : Kept a s) (id) (f) : Kept a (State.mapSession s id f) := by
  unfold State.mapSession; try dsimp only
  repeat' (
    first
    | (with_reducible first
       | assumption | refine Kept.ite ?_ (fun _ => ?_))
    | simp only [Kept.upd]
    | (split <;> try dsimp only))

theorem State.readObj_kept {a s} (h : Kept a s) (sess) (k) (staged) : Kept a (State.readObj s sess k staged).st := by
  unfold State.readObj; try dsimp only
  repeat' (
    first
    | (with_reducible first
       | assumption | apply State.offAccess_kept | apply State.debugChallenge_kept | refine Kept.ite ?_ (fun _ => ?_))
    | (split <;> try dsimp only))

theorem State.writeEn_kept {a s} (h : Kept a s) (p) (k) (v) (d) : Kept a (State.writeEn s p k v d).1 := by
  unfold State.writeEn; try dsimp only
  repeat' (
    first
    | (with_reducible first
       | assumption | apply State.setValue_kept | apply State.journal_kept | refine Kept.ite ?_ (fun _ => ?_)
       | refine Kept.iteOf Prod.fst ?_ ?_)
    | (split <;> try dsimp only))

theorem State.regionSet_kept {a s} (h : Kept a s) (k) (r) (v) : Kept a (State.regionSet s k r v).1 := by
  unfold State.regionSet; try dsimp only
  repeat' (
    first
    | (with_reducible first
       | assumption | apply State.setObj_kept | refine Kept.ite ?_ (fun _ => ?_) | refine Kept.iteOf Prod.fst ?_ ?_)
    | simp only [Kept.upd]
    | (split <;> try dsimp only))
  exact (State.setObj_kept h k v).filter (fun _ => true) (fun _ => true) _ rfl (List.filter_true _).symm
    (List.filter_true _).symm rfl rfl (Nat.le_refl _)

theorem State.plain_kept {a s} (h : Kept a s) (k) (d) : Kept a (State.plain s k d).1 := by
  unfold State.plain; try dsimp only
  repeat' (with_reducible first | assumption | apply State.setValue_kept)

theorem State.writeSec_kept {a s} (h : Kept a s) (c) (k) (v) (d) : Kept a (State.writeSec s c k v d).1 := by
  unfold State.writeSec; try dsimp only
  repeat' (
    first
    | (with_reducible first
       | assumption | apply State.lifecycleSet_kept | apply State.svnCommit_kept | apply State.keyProvision_kept
       | apply State.keyRevoke_kept | apply State.makerKeySet_kept | apply State.debugKeySet_kept
       | apply State.debugResponse_kept | apply State.debugClose_kept | refine Kept.ite ?_ (fun _ => ?_)
       | refine Kept.iteOf Prod.fst ?_ ?_)
    | (split <;> try dsimp only))

theorem State.ptpDomainSet_kept {a s} (h : Kept a s) (i) (v) : Kept a (State.ptpDomainSet s i v).1 := by
  unfold State.ptpDomainSet; try dsimp only
  repeat' (
    first
    | (with_reducible first
       | assumption | apply State.setObj_kept | refine Kept.ite ?_ (fun _ => ?_) | refine Kept.iteOf Prod.fst ?_ ?_)
    | (split <;> try dsimp only))

theorem State.writeEngine_kept {a s} (h : Kept a s) (c) (k) (v) (d) : Kept a (State.writeEngine s c k v d).1 := by
  unfold State.writeEngine; try dsimp only
  repeat' (
    first
    | (with_reducible first
       | assumption | apply State.writeEn_kept | apply State.regionSet_kept | apply State.jnlRelease_kept
       | apply State.setValue_kept | apply State.writeSec_kept | apply State.abortJob_kept | apply State.writePsn_kept
       | apply State.cancelSet_kept | apply State.resume_kept | apply State.calAcceptSet_kept | apply State.calRejectSet_kept
       | apply State.calRunSet_kept | apply State.calRestoreSet_kept | apply State.timePrefSet_kept
       | apply State.hostStep_kept | apply State.ptpEnableSet_kept | apply State.ptpDomainSet_kept
       | apply State.chooseSource_kept | apply State.pwrTargetSet_kept | apply State.plain_kept
       | apply State.rstRequestSet_kept | refine Kept.ite ?_ (fun _ => ?_) | refine Kept.iteOf Prod.fst ?_ ?_)
    | (split <;> try dsimp only))

theorem State.writeBar_kept {a s} (h : Kept a s) (k) (d) : Kept a (State.writeBar s k d).1 := by
  unfold State.writeBar; try dsimp only
  repeat' (
    first
    | (with_reducible first
       | assumption | apply State.setObj_kept | apply State.plain_kept | refine Kept.ite ?_ (fun _ => ?_)
       | refine Kept.iteOf Prod.fst ?_ ?_)
    | (split <;> try dsimp only))

theorem State.writeHead_kept {a s} (h : Kept a s) (k) (v) (d) : Kept a (State.writeHead s k v d).1 := by
  unfold State.writeHead; try dsimp only
  repeat' (
    first
    | (with_reducible first
       | assumption | apply State.hlEnable_kept | apply State.sendHotLimit_kept | apply State.setValue_kept
       | apply State.plain_kept | refine Kept.ite ?_ (fun _ => ?_) | refine Kept.iteOf Prod.fst ?_ ?_)
    | (split <;> try dsimp only))

theorem State.axLimits_kept {a s} (h : Kept a s) (x) (k) (d) : Kept a (State.axLimits s x k d).1 := by
  unfold State.axLimits; try dsimp only
  repeat' (first | (with_reducible first | assumption | apply State.setAx_kept | apply State.setValue_kept) | simp only [Kept.upd])

theorem State.whileOff_kept {a s} (h : Kept a s) (busy) (k) (d) : Kept a (State.whileOff s busy k d).1 := by
  unfold State.whileOff; try dsimp only
  repeat' (
    first
    | (with_reducible first
       | assumption | apply State.plain_kept | refine Kept.ite ?_ (fun _ => ?_) | refine Kept.iteOf Prod.fst ?_ ?_)
    | (split <;> try dsimp only))

theorem State.curPwmSet_kept {a s} (h : Kept a s) (x) (k) (v) (d) : Kept a (State.curPwmSet s x k v d).1 := by
  unfold State.curPwmSet; try dsimp only
  repeat' (
    first
    | (with_reducible first
       | assumption | apply State.curRefresh_kept | apply State.setValue_kept | refine Kept.ite ?_ (fun _ => ?_)
       | refine Kept.iteOf Prod.fst ?_ ?_)
    | (split <;> try dsimp only))

theorem State.writeAxis_kept {a s} (h : Kept a s) (k) (v) (d) : Kept a (State.writeAxis s k v d).1 := by
  unfold State.writeAxis; try dsimp only
  repeat' (
    first
    | (with_reducible first
       | assumption | apply State.axTargetSet_kept | apply State.axLimits_kept | apply State.axStopSet_kept
       | apply State.axHomeSet_kept | apply State.whileOff_kept | apply State.axEnableSet_kept | apply State.plain_kept
       | apply State.axModeSet_kept | apply State.curPwmSet_kept | apply State.curRefresh_kept | apply State.setValue_kept
       | apply State.camEngageSet_kept | apply State.setObj_kept | refine Kept.ite ?_ (fun _ => ?_)
       | refine Kept.iteOf Prod.fst ?_ ?_)
    | (split <;> try dsimp only))

theorem State.writeIo_kept {a s} (h : Kept a s) (k) (v) (d) : Kept a (State.writeIo s k v d).1 := by
  unfold State.writeIo; try dsimp only
  repeat' (
    first
    | (with_reducible first
       | assumption | apply State.dutySet_kept | apply State.plain_kept | apply State.gpioDirSet_kept
       | apply State.gpioReadback_kept | apply State.setValue_kept | apply State.adcSet_kept
       | refine Kept.ite ?_ (fun _ => ?_) | refine Kept.iteOf Prod.fst ?_ ?_)
    | (split <;> try dsimp only))

theorem State.writeLoop_kept {a s} (h : Kept a s) (k) (v) (d) : Kept a (State.writeLoop s k v d).1 := by
  unfold State.writeLoop; try dsimp only
  repeat' (
    first
    | (with_reducible first
       | assumption | apply State.lpEnableSet_kept | apply State.lpModeSet_kept | apply State.whileOff_kept
       | apply State.lpLawWritten_kept | apply State.setValue_kept | apply State.setObj_kept | apply State.trArmSet_kept
       | apply State.trForceSet_kept | apply State.plain_kept | refine Kept.ite ?_ (fun _ => ?_)
       | refine Kept.iteOf Prod.fst ?_ ?_)
    | (split <;> try dsimp only))

theorem State.clearBits_kept {a s} (h : Kept a s) (k) (mask) (v) : Kept a (State.clearBits s k mask v).1 := by
  unfold State.clearBits; try dsimp only
  repeat' (with_reducible first | assumption | apply State.setObj_kept)

theorem State.ssiSet_kept {a s} (h : Kept a s) (x) (k) (d) : Kept a (State.ssiSet s x k d).1 := by
  unfold State.ssiSet; try dsimp only
  repeat' (
    first
    | (with_reducible first
       | assumption | apply State.setValue_kept | refine Kept.ite ?_ (fun _ => ?_) | refine Kept.iteOf Prod.fst ?_ ?_)
    | (split <;> try dsimp only))

theorem State.writeWeb_kept {a s} (h : Kept a s) (k) (v) (d) : Kept a (State.writeWeb s k v d).1 := by
  unfold State.writeWeb; try dsimp only
  repeat' (
    first
    | (with_reducible first
       | assumption | apply State.encEnable_kept | apply State.whileOff_kept | apply State.clearBits_kept
       | apply State.plain_kept | apply State.selectWeb_kept | apply State.setAxeMode_kept | apply State.ssiSet_kept
       | apply State.cmpArm_kept | refine Kept.ite ?_ (fun _ => ?_) | refine Kept.iteOf Prod.fst ?_ ?_)
    | (split <;> try dsimp only))

theorem State.writeCam_kept {a s} (h : Kept a s) (k) (v) (d) : Kept a (State.writeCam s k v d).1 := by
  unfold State.writeCam; try dsimp only
  repeat' (
    first
    | (with_reducible first
       | assumption | apply State.regionSet_kept | apply State.evidFree_kept | apply State.plain_kept
       | apply State.camEnableSet_kept | apply State.flushStats_kept | apply State.whileOff_kept
       | apply State.camAcquireSet_kept | apply State.camRegOp_kept | refine Kept.ite ?_ (fun _ => ?_)
       | refine Kept.iteOf Prod.fst ?_ ?_)
    | (split <;> try dsimp only))

theorem State.writeLane_kept {a s} (h : Kept a s) (c) (k) (v) (d) : Kept a (State.writeLane s c k v d).1 := by
  unfold State.writeLane; try dsimp only
  repeat' (
    first
    | (with_reducible first
       | assumption | apply State.laneRateSet_kept | apply State.laneModeSet_kept | apply State.laneLoopSet_kept
       | apply State.laneSlip_kept | apply State.laneRetrain_kept | apply State.eyeStart_kept | apply State.lanePat_kept
       | apply State.laneInjectSet_kept | apply State.plain_kept | refine Kept.ite ?_ (fun _ => ?_)
       | refine Kept.iteOf Prod.fst ?_ ?_)
    | (split <;> try dsimp only))

theorem State.writeTwin_kept {a s} (h : Kept a s) (k) (v) (d) : Kept a (State.writeTwin s k v d).1 := by
  unfold State.writeTwin; try dsimp only
  repeat' (
    first
    | (with_reducible first
       | assumption | apply State.twinEnableSet_kept | apply State.twinCmd_kept | apply State.plain_kept
       | refine Kept.ite ?_ (fun _ => ?_) | refine Kept.iteOf Prod.fst ?_ ?_)
    | (split <;> try dsimp only))

theorem State.writeTable_kept {a s} (h : Kept a s) (k) (d) (l) : Kept a (State.writeTable s k d l).1 := by
  unfold State.writeTable; try dsimp only
  repeat' (
    first
    | (with_reducible first
       | assumption | apply State.camTableSet_kept | apply State.clearWear_kept | apply State.restoreWear_kept
       | refine Kept.ite ?_ (fun _ => ?_) | refine Kept.iteOf Prod.fst ?_ ?_ | apply Kept.fold | apply Kept.foldOf Prod.fst)
    | (intro _; try dsimp only)
    | (split <;> try dsimp only))

theorem State.writeLast_kept {a s} (h : Kept a s) (c) (k) (v) (d) : Kept a (State.writeLast s c k v d).1 := by
  unfold State.writeLast; try dsimp only
  repeat' (
    first
    | (with_reducible first
       | assumption | apply State.dramRateSet_kept | apply State.regionSet_kept | apply State.strAbortSet_kept
       | apply State.fltClearSet_kept | apply State.fecClearSet_kept | apply State.injectSet_kept | apply State.plain_kept
       | refine Kept.ite ?_ (fun _ => ?_) | refine Kept.iteOf Prod.fst ?_ ?_)
    | (split <;> try dsimp only))

theorem State.clearElems_kept {a s} (h : Kept a s) (k) (r) (l) : Kept a (State.clearElems s k r l) := by
  unfold State.clearElems; try dsimp only
  repeat' (
    first
    | (with_reducible first
       | assumption | apply State.clearOvf_kept | apply State.setBlob_kept | apply State.setBit_kept
       | refine Kept.ite ?_ (fun _ => ?_) | apply Kept.fold | apply Kept.foldOf Prod.fst)
    | (intro _; try dsimp only)
    | (split <;> try dsimp only))

theorem State.writeCounter_kept {a s} (h : Kept a s) (k) (r) (d) (l) : Kept a (State.writeCounter s k r d l) := by
  unfold State.writeCounter; try dsimp only
  repeat' (
    first
    | (with_reducible first
       | assumption | apply State.writeTable_kept | apply State.clearElems_kept | apply State.clearCounter_kept
       | apply State.prbsSync_kept | refine Kept.ite ?_ (fun _ => ?_))
    | (split <;> try dsimp only))

theorem State.writeRule_kept {a s} (h : Kept a s) (c) (k) (v) (d) (l) : Kept a (State.writeRule s c k v d l).1 := by
  unfold State.writeRule; try dsimp only
  repeat' (
    first
    | (with_reducible first
       | assumption | apply State.writeEngine_kept | apply State.writeBar_kept | apply State.writeHead_kept
       | apply State.writeAxis_kept | apply State.writeIo_kept | apply State.writeLoop_kept | apply State.writeWeb_kept
       | apply State.writeCam_kept | apply State.writeLane_kept | apply State.writeTwin_kept | apply State.writeTable_kept
       | apply State.writeLast_kept | refine Kept.ite ?_ (fun _ => ?_) | refine Kept.iteOf Prod.fst ?_ ?_)
    | (split <;> try dsimp only))

theorem State.stage_kept {a s} (h : Kept a s) (sess) (k) (b) : Kept a (State.stage s sess k b).st := by
  unfold State.stage; try dsimp only
  repeat' (
    first
    | (with_reducible first
       | assumption | apply State.mapSession_kept | refine Kept.ite ?_ (fun _ => ?_))
    | simp only [Kept.upd]
    | (split <;> try dsimp only))

theorem State.writeValue_kept {a s} (h : Kept a s) (c) (k) (r) (d) (l) : Kept a (State.writeValue s c k r d l).st := by
  unfold State.writeValue; try dsimp only
  repeat' (
    first
    | (with_reducible first
       | assumption | apply State.stage_kept | apply State.writeCounter_kept | apply State.forward_kept
       | apply State.writeRule_kept | refine Kept.ite ?_ (fun _ => ?_))
    | simp only [Kept.upd]
    | (split <;> try dsimp only))

theorem State.dropTransfer_kept {a s} (h : Kept a s) (sess) : Kept a (State.dropTransfer s sess) := by
  unfold State.dropTransfer; try dsimp only
  repeat' (first | (with_reducible first | assumption | apply State.mapSession_kept) | simp only [Kept.upd])

theorem State.objWrite_kept {a s} (h : Kept a s) (c) (k) (ty) (d) : Kept a (State.objWrite s c k ty d).st := by
  unfold State.objWrite; try dsimp only
  repeat' (
    first
    | (with_reducible first
       | assumption | apply State.offAccess_kept | apply State.writeValue_kept | apply State.dropTransfer_kept
       | refine Kept.ite ?_ (fun _ => ?_))
    | (split <;> try dsimp only))

theorem State.blockWrite1_kept {a s} (h : Kept a s) (c) (k) (ty) (d) : Kept a (State.blockWrite1 s c k ty d).st := by
  unfold State.blockWrite1; try dsimp only
  repeat' (
    first
    | (with_reducible first
       | assumption | apply State.dropTransfer_kept | apply State.offAccess_kept | apply State.writeValue_kept
       | apply State.mapSession_kept | refine Kept.ite ?_ (fun _ => ?_))
    | simp only [Kept.upd]
    | (split <;> try dsimp only))

theorem State.blockRead1_kept {a s} (h : Kept a s) (sess) (k) (d) (room) : Kept a (State.blockRead1 s sess k d room).st := by
  unfold State.blockRead1; try dsimp only
  repeat' (
    first
    | (with_reducible first
       | assumption | apply State.readObj_kept | refine Kept.ite ?_ (fun _ => ?_))
    | (split <;> try dsimp only))

theorem State.rxAck_kept {a s} (h : Kept a s) (n) : Kept a (State.rxAck s n) := by
  unfold State.rxAck; try dsimp only
  repeat' (with_reducible first | assumption | apply State.setTwin_kept)

theorem State.rxState_kept {a s} (h : Kept a s) (st) (id) : Kept a (State.rxState s st id) := by
  unfold State.rxState; try dsimp only
  repeat' (
    first
    | (with_reducible first
       | assumption | apply State.setObj_kept | apply State.setTwin_kept | apply State.giveSnapshot_kept
       | apply State.condEnd_kept | apply State.loseStandby_kept | refine Kept.ite ?_ (fun _ => ?_))
    | simp only [Kept.upd]
    | (split <;> try dsimp only))

theorem State.rxEat_kept {a s} (h : Kept a s) (q) (cons) : Kept a (State.rxEat q cons s) := by
  unfold State.rxEat; try dsimp only
  repeat' (
    first
    | (with_reducible first
       | assumption | apply State.psnWatch_kept | apply State.setRing_kept)
    | simp only [Kept.upd])

theorem State.rxDescriptor_kept {a s} (h : Kept a s) (q) (cons) (d) : Kept a (State.rxDescriptor s q cons d) := by
  unfold State.rxDescriptor; try dsimp only
  repeat' (
    first
    | (with_reducible first
       | assumption | apply State.rxEat_kept | apply State.takeJob_kept | apply State.takeBaseRegister_kept
       | apply State.takeBaseRetire_kept | refine Kept.ite ?_ (fun _ => ?_))
    | (intro _; try dsimp only)
    | (split <;> try dsimp only))

theorem State.rxChunk_kept {a s} (h : Kept a s) (b) (isBase) (id) (idx) (last) (data) : Kept a
    (State.rxChunk s b isBase id idx last data) := by
  unfold State.rxChunk; try dsimp only
  repeat' (with_reducible first | assumption | apply State.mapStream_kept)

theorem State.rxPosted_kept {a s} (h : Kept a s) (q) : Kept a (State.rxPosted s q) := by
  unfold State.rxPosted; try dsimp only
  repeat' (
    first
    | (with_reducible first
       | assumption | apply State.setRing_kept | refine Kept.ite ?_ (fun _ => ?_))
    | simp only [Kept.upd]
    | (split <;> try dsimp only))

theorem State.rxWrite_kept {a s} (h : Kept a s) (k) (d) : Kept a (State.rxWrite s k d) := by
  unfold State.rxWrite; try dsimp only
  repeat' (
    first
    | (with_reducible first
       | assumption | apply State.writeCounter_kept | apply State.writeRule_kept | refine Kept.ite ?_ (fun _ => ?_))
    | (split <;> try dsimp only))

theorem State.rxSet_kept {a s} (h : Kept a s) (number) (cls) (l) : Kept a (State.rxSet s number cls l) := by
  unfold State.rxSet; try dsimp only
  repeat' (
    first
    | (with_reducible first
       | assumption | apply State.refreshSets_kept | refine Kept.ite ?_ (fun _ => ?_))
    | simp only [Kept.upd]
    | (split <;> try dsimp only))

theorem State.rxTook_kept {a s} (h : Kept a s) (number) (job) : Kept a (State.rxTook s number job) := by
  unfold State.rxTook; try dsimp only
  repeat' (
    first
    | (with_reducible first
       | assumption | apply State.applyParams_kept | apply State.setValue_kept | apply State.mapPending_kept
       | apply State.finishSet_kept | refine Kept.ite ?_ (fun _ => ?_) | apply Kept.fold | apply Kept.foldOf Prod.fst)
    | simp only [Kept.upd]
    | (intro _; try dsimp only)
    | (split <;> try dsimp only))

theorem State.rxLag_kept {a s} (h : Kept a s) : Kept a (State.rxLag s) := by
  unfold State.rxLag; try dsimp only
  repeat' (with_reducible first | assumption | apply State.drawNat_kept | apply State.setObj_kept)

theorem State.departSnap_kept {a s} (h : Kept a s) (b) (lseq) (j) (line) : Kept a (State.departSnap s b lseq j line) := by
  unfold State.departSnap; try dsimp only
  repeat' (
    first
    | (with_reducible first
       | assumption | apply State.departPage_kept | apply State.setDeparted_kept | apply State.mapJob_kept
       | refine Kept.ite ?_ (fun _ => ?_))
    | simp only [Kept.upd]
    | (split <;> try dsimp only))

theorem State.rxMarker_kept {a s} (h : Kept a s) (b) (lseq) (job) (line) : Kept a (State.rxMarker s b lseq job line) := by
  unfold State.rxMarker; try dsimp only
  repeat' (
    first
    | (with_reducible first
       | assumption | apply State.syncLost_kept | apply State.rxLag_kept | apply State.departSnap_kept
       | apply State.stageJob_kept | apply State.departLine_kept | refine Kept.ite ?_ (fun _ => ?_))
    | (split <;> try dsimp only))

theorem State.rxVerdict_kept {a s} (h : Kept a s) (job) (status) (reg) (regAcross) : Kept a
    (State.rxVerdict s job status reg regAcross) := by
  unfold State.rxVerdict; try dsimp only
  repeat' (
    first
    | (with_reducible first
       | assumption | apply State.mapJob_kept | apply State.forgetPage_kept)
    | simp only [Kept.upd])

theorem State.rxFrame_kept {a s} (h : Kept a s) (c) (job) (number) (epoch) : Kept a (State.rxFrame s c job number epoch) := by
  unfold State.rxFrame; try dsimp only
  repeat' (
    with_reducible first
    | assumption
    | apply State.openPage_kept
    | apply State.bindFrame_kept
    | apply State.setCam_kept
    | apply State.setObj_kept)

theorem State.rxSummary_kept {a s} (h : Kept a s) (job) (b) (blanked) (errs) : Kept a (State.rxSummary s job b blanked errs) := by
  unfold State.rxSummary; try dsimp only
  repeat' (
    first
    | (with_reducible first
       | assumption | apply State.summaryCheck_kept | apply State.setTwin_kept)
    | simp only [Kept.upd])

theorem State.snapStart_kept {a s} (h : Kept a s) (psn) (lseq) : Kept a (State.snapStart s psn lseq) := by
  unfold State.snapStart; try dsimp only
  repeat' (
    first
    | (with_reducible first
       | assumption | apply Kept.fold | apply Kept.foldOf Prod.fst)
    | simp only [Kept.upd]
    | (intro _; try dsimp only))
  exact h.filter _ _ (fun _ => true) rfl rfl rfl (List.filter_true _).symm rfl (Nat.le_refl _)

theorem State.snapBase_kept {a s} (h : Kept a s) (x) : Kept a (State.snapBase s x) := by
  unfold State.snapBase; try dsimp only
  repeat' (first | (with_reducible first | assumption) | simp only [Kept.upd])

theorem State.snapJob_kept {a s} (h : Kept a s) (j) : Kept a (State.snapJob s j) := by
  unfold State.snapJob; try dsimp only
  repeat' (
    first
    | (with_reducible first
       | assumption | refine Kept.ite ?_ (fun _ => ?_))
    | simp only [Kept.upd]
    | (split <;> try dsimp only))

theorem State.snapBar_kept {a s} (h : Kept a s) (job) (b) (departed) (passed) (fired) (st) (start) : Kept a
    (State.snapBar s job b departed passed fired st start) := by
  unfold State.snapBar; try dsimp only
  repeat' (
    first
    | (with_reducible first
       | assumption | apply State.mapJob_kept | refine Kept.ite ?_ (fun _ => ?_))
    | (split <;> try dsimp only))

theorem State.rxTime_kept {a s} (h : Kept a s) (ps) : Kept a (State.rxTime s ps) := by
  unfold State.rxTime; try dsimp only
  repeat' (
    first
    | (with_reducible first
       | assumption | apply State.setObj_kept | apply State.drawNat_kept | apply State.servo_kept
       | refine Kept.ite ?_ (fun _ => ?_))
    | (split <;> try dsimp only))

theorem State.rxItem_kept {a s} (h : Kept a s) (i) : Kept a (State.rxItem s i) := by
  unfold State.rxItem; try dsimp only
  repeat' (
    first
    | (with_reducible first
       | assumption | apply State.rxDescriptor_kept | apply State.rxChunk_kept | apply State.rxPosted_kept
       | apply State.rxWrite_kept | apply State.rxSet_kept | apply State.rxTook_kept | apply State.rxMarker_kept
       | apply State.setAx_kept | apply State.setLoop_kept | apply State.setCmp_kept | apply State.rxVerdict_kept
       | apply State.mapPage_kept | apply State.setPair_kept | apply State.deviceStatus_kept | apply State.deadDue_kept
       | apply State.rxFrame_kept | apply State.rxSummary_kept | apply State.setObj_kept | apply State.calRestoreSet_kept
       | apply State.snapStart_kept | apply State.snapBase_kept | apply State.snapJob_kept | apply State.snapBar_kept
       | apply State.setTwin_kept)
    | simp only [Kept.upd]
    | (split <;> try dsimp only))
  exact ⟨h.1, h.2, fun x => Tab.rising_set _ _ _ _ (h.3 x), h.4, h.5, h.6⟩

theorem State.rxApply_kept {a s} (h : Kept a s) (i) : Kept a (State.rxApply s i) := by
  unfold State.rxApply; try dsimp only
  repeat' (
    first
    | (with_reducible first
       | assumption | apply State.rxState_kept | apply State.takeHeads_kept | apply State.rxTime_kept
       | apply State.rxItem_kept | refine Kept.ite ?_ (fun _ => ?_))
    | (split <;> try dsimp only))

theorem State.twinReceive_kept {a s} (h : Kept a s) (seq) (crcOk) (i) : Kept a (State.twinReceive s seq crcOk i) := by
  unfold State.twinReceive; try dsimp only
  repeat' (
    first
    | (with_reducible first
       | assumption | apply State.twinTrained_kept | apply State.setTwin_kept | apply State.rxAck_kept
       | apply State.rxApply_kept | apply State.emit_kept | refine Kept.ite ?_ (fun _ => ?_))
    | simp only [Kept.upd]
    | (split <;> try dsimp only))

theorem State.setToa_kept {a s} (h : Kept a s) (f) : Kept a (State.setToa s f) := by
  unfold State.setToa; try dsimp only
  repeat' (first | (with_reducible first | assumption) | simp only [Kept.upd])

theorem State.superEvent_kept {a s} (h : Kept a s) (why) (x) : Kept a (State.superEvent s why x) := by
  unfold State.superEvent; try dsimp only
  repeat' (with_reducible first | assumption | apply State.journal_kept | apply State.push_kept)

theorem State.authFailEvent_kept {a s} (h : Kept a s) (x) (slot) (transport) (n) : Kept a
    (State.authFailEvent s x slot transport n) := by
  unfold State.authFailEvent; try dsimp only
  repeat' (with_reducible first | assumption | apply State.journal_kept | apply State.push_kept)

theorem State.dropRights_kept {a s} (h : Kept a s) (id) (why) : Kept a (State.dropRights s id why) := by
  unfold State.dropRights; try dsimp only
  repeat' (
    first
    | (with_reducible first
       | assumption | apply State.superEvent_kept | apply State.mapSession_kept | refine Kept.ite ?_ (fun _ => ?_))
    | simp only [Kept.upd]
    | (split <;> try dsimp only))

theorem State.closeSession_kept {a s} (h : Kept a s) (id) (why) : Kept a (State.closeSession s id why) := by
  unfold State.closeSession; try dsimp only
  repeat' (
    first
    | (with_reducible first
       | assumption | apply State.setToa_kept | apply State.dropRights_kept | refine Kept.ite ?_ (fun _ => ?_))
    | (split <;> try dsimp only))

theorem State.lapseDue_kept {a s} (h : Kept a s) : Kept a (State.lapseDue s) := by
  unfold State.lapseDue; try dsimp only
  repeat' (first | (with_reducible first | assumption | apply State.dropRights_kept) | (split <;> try dsimp only))

theorem State.expire_kept {a s} (h : Kept a s) : Kept a (State.expire s) := by
  unfold State.expire; try dsimp only
  repeat' (
    first
    | (with_reducible first
       | assumption | apply State.lapseDue_kept | apply State.closeSession_kept | apply Kept.fold
       | apply Kept.foldOf Prod.fst)
    | (intro _; try dsimp only))

theorem State.touch_kept {a s} (h : Kept a s) (c) : Kept a (State.touch s c) := by
  unfold State.touch; try dsimp only
  repeat' (
    first
    | (with_reducible first
       | assumption | apply State.mapSession_kept | refine Kept.ite ?_ (fun _ => ?_))
    | (split <;> try dsimp only))

theorem State.openCmd_kept {a s} (h : Kept a s) (transport) (seq) (nonce) : Kept a (State.openCmd s transport seq nonce).st := by
  unfold State.openCmd; try dsimp only
  repeat' (
    first
    | (with_reducible first
       | assumption | apply State.setToa_kept | apply State.drawNat_kept | refine Kept.ite ?_ (fun _ => ?_))
    | simp only [Kept.upd]
    | (split <;> try dsimp only))

theorem State.closeCmd_kept {a s} (h : Kept a s) (c) : Kept a (State.closeCmd s c).st := by
  unfold State.closeCmd; try dsimp only
  repeat' (with_reducible first | assumption | apply State.closeSession_kept)

theorem State.authBeginCmd_kept {a s} (h : Kept a s) (c) (slot) (nonce) : Kept a (State.authBeginCmd s c slot nonce).st := by
  unfold State.authBeginCmd; try dsimp only
  repeat' (
    first
    | (with_reducible first
       | assumption | apply State.draw_kept | apply State.mapSession_kept | refine Kept.ite ?_ (fun _ => ?_))
    | simp only [Kept.upd]
    | (split <;> try dsimp only))

theorem State.authFinishCmd_kept {a s} (h : Kept a s) (c) (proof) : Kept a (State.authFinishCmd s c proof).st := by
  unfold State.authFinishCmd; try dsimp only
  repeat' (
    first
    | (with_reducible first
       | assumption | apply State.mapSession_kept | apply State.authFailEvent_kept | apply State.closeSession_kept
       | apply State.superEvent_kept | refine Kept.ite ?_ (fun _ => ?_))
    | simp only [Kept.upd]
    | (split <;> try dsimp only))

theorem readItem_kept {a s} (h : Kept a s) (sess) (whole) (staged) (i) : Kept a (readItem s sess whole staged i).1 := by
  unfold readItem; try dsimp only
  repeat' (
    first
    | (with_reducible first
       | assumption | apply State.readObj_kept | refine Kept.ite ?_ (fun _ => ?_) | refine Kept.iteOf Prod.fst ?_ ?_)
    | (split <;> try dsimp only))

theorem writtenItem_kept {a} {w} (h : Kept a w.st) (i) : Kept a (writtenItem i w).1 := by
  unfold writtenItem; try dsimp only
  repeat' (with_reducible first | assumption)

theorem blockReadItem_kept {a s} (h : Kept a s) (sess) (room) (i) : Kept a (blockReadItem s sess room i).1 := by
  unfold blockReadItem; try dsimp only
  repeat' (
    first
    | (with_reducible first
       | assumption | apply State.blockRead1_kept | refine Kept.ite ?_ (fun _ => ?_) | refine Kept.iteOf Prod.fst ?_ ?_)
    | (split <;> try dsimp only))

theorem runItem_kept {a s} (h : Kept a s) (cmd) (c) (whole) (room) (i) : Kept a (runItem cmd c whole room s i).1 := by
  unfold runItem; try dsimp only
  repeat' (
    first
    | (with_reducible first
       | assumption | apply readItem_kept | apply blockReadItem_kept | apply writtenItem_kept | apply State.objWrite_kept
       | apply State.blockWrite1_kept | refine Kept.ite ?_ (fun _ => ?_) | refine Kept.iteOf Prod.fst ?_ ?_)
    | (split <;> try dsimp only))

theorem runItems_kept {a} {v3} (h : Kept a v3) (cmd) (c) (whole) (v4) (v5) (v6) (v7) : Kept a
    (runItems cmd c whole v3 v4 v5 v6 v7).st := by
  induction v7 generalizing v3 v4 v5 v6 with
  | nil => exact h
  | cons i t ih =>
    unfold runItems; try dsimp only
    repeat' (
      first
      | (with_reducible first
         | assumption | apply ih | apply runItem_kept | refine Kept.ite ?_ (fun _ => ?_))
      | (split <;> try dsimp only))

theorem State.itemCmd_kept {a s} (h : Kept a s) (cmd) (c) (limit) (l) : Kept a (State.itemCmd s cmd c limit l).st := by
  unfold State.itemCmd; try dsimp only
  repeat' (
    first
    | (with_reducible first
       | assumption | apply runItems_kept | refine Kept.ite ?_ (fun _ => ?_))
    | (split <;> try dsimp only))

theorem State.unstage_kept {a s} (h : Kept a s) (sess) : Kept a (State.unstage s sess) := by
  unfold State.unstage; try dsimp only
  repeat' (first | (with_reducible first | assumption | apply State.mapSession_kept) | simp only [Kept.upd])

theorem State.commitCmd_kept {a s} (h : Kept a s) (c) : Kept a (State.commitCmd s c).st := by
  unfold State.commitCmd; try dsimp only
  repeat' (
    first
    | (with_reducible first
       | assumption | apply State.unstage_kept | apply State.setToa_kept | apply State.startLoads_kept
       | apply State.forward_kept | refine Kept.ite ?_ (fun _ => ?_))
    | simp only [Kept.upd]
    | (split <;> try dsimp only))

theorem State.discardCmd_kept {a s} (h : Kept a s) (c) : Kept a (State.discardCmd s c).st := by
  unfold State.discardCmd; try dsimp only
  repeat' (with_reducible first | assumption | apply State.unstage_kept)

theorem State.plainCmd_kept {a s} (h : Kept a s) (cmd) (c) (seq) (body) : Kept a (State.plainCmd s cmd c seq body).st := by
  unfold State.plainCmd; try dsimp only
  repeat' (
    first
    | (with_reducible first
       | assumption | apply State.openCmd_kept | apply State.closeCmd_kept | apply State.authBeginCmd_kept
       | apply State.authFinishCmd_kept | apply State.commitCmd_kept | apply State.discardCmd_kept
       | refine Kept.ite ?_ (fun _ => ?_))
    | (split <;> try dsimp only))

theorem State.runFrame_kept {a s} (h : Kept a s) (c) (seq) (reqMax) (limit) (f) : Kept a
    (State.runFrame s c seq reqMax limit f).st := by
  unfold State.runFrame; try dsimp only
  repeat' (
    first
    | (with_reducible first
       | assumption | apply State.itemCmd_kept | apply State.touch_kept | apply State.plainCmd_kept
       | refine Kept.ite ?_ (fun _ => ?_))
    | (split <;> try dsimp only))

theorem State.cacheRsp_kept {a s} (h : Kept a s) (sess) (seq) (f) : Kept a (State.cacheRsp s sess seq f) := by
  unfold State.cacheRsp; try dsimp only
  repeat' (first | (with_reducible first | assumption | apply State.mapSession_kept) | simp only [Kept.upd])

theorem State.runNew_kept {a s} (h : Kept a s) (c) (seq) (reqMax) (limit) (f) : Kept a
    (State.runNew s c seq reqMax limit f).st := by
  unfold State.runNew
  have k2 := State.runFrame_kept h c seq reqMax limit f
  extract_lets o cmd
  change Kept a o.st at k2
  clear_value o
  cases o.pos with
  | some p => exact State.setToa_kept k2 (fun t => { t with owed := some _ })
  | none => exact Kept.iteOf Reply.st (State.cacheRsp_kept h _ _ _) (State.cacheRsp_kept k2 _ _ _)

theorem State.runSeen_kept {a s} (h : Kept a s) (c) (seq) (limit) (x) : Kept a (State.runSeen s c seq limit x).st := by
  unfold State.runSeen; try dsimp only
  repeat' (
    first
    | (with_reducible first
       | assumption | apply State.count_kept | refine Kept.ite ?_ (fun _ => ?_))
    | (split <;> try dsimp only))

theorem State.runSeq_kept {a s} (h : Kept a s) (c) (seq) (reqMax) (limit) (f) (x) (v7) : Kept a
    (State.runSeq s c seq reqMax limit f x v7).st := by
  unfold State.runSeq; try dsimp only
  repeat' (
    first
    | (with_reducible first
       | assumption | apply State.count_kept | apply State.runSeen_kept | apply State.runNew_kept
       | apply State.mapSession_kept)
    | simp only [Kept.upd]
    | (split <;> try dsimp only))

theorem State.inSession_kept {a s} (h : Kept a s) (c) (seq) (reqMax) (limit) (f) : Kept a
    (State.inSession s c seq reqMax limit f).st := by
  unfold State.inSession; try dsimp only
  repeat' (first | (with_reducible first | assumption | apply State.runSeq_kept) | (split <;> try dsimp only))

theorem State.request_kept {a s} (h : Kept a s) (transport) (reqMax) (limit) (f) : Kept a
    (State.request s transport reqMax limit f).st := by
  unfold State.request; try dsimp only
  repeat' (
    first
    | (with_reducible first
       | assumption | apply State.count_kept | apply State.expire_kept | apply State.runFrame_kept
       | apply State.mapSession_kept | apply State.closeSession_kept | apply State.inSession_kept
       | refine Kept.ite ?_ (fun _ => ?_))
    | simp only [Kept.upd]
    | (split <;> try dsimp only))

theorem State.respond_kept {a s} (h : Kept a s) (d) (frame) (cause) : Kept a (State.respond s d frame cause) := by
  unfold State.respond; try dsimp only
  repeat' (
    first
    | (with_reducible first
       | assumption | apply State.emit_kept | apply State.push_kept | refine Kept.ite ?_ (fun _ => ?_))
    | simp only [Kept.upd]
    | (split <;> try dsimp only))

theorem State.serve_kept {a s} (h : Kept a s) (d) (reqMax) (f) : Kept a (State.serve s d reqMax f) := by
  unfold State.serve; try dsimp only
  repeat' (
    first
    | (with_reducible first
       | assumption | apply State.request_kept | apply State.setToa_kept | apply State.respond_kept
       | refine Kept.ite ?_ (fun _ => ?_))
    | simp only [Kept.upd]
    | (split <;> try dsimp only))

theorem State.toaReceive_kept {a s} (h : Kept a s) (t) (f) : Kept a (State.toaReceive s t f) := by
  unfold State.toaReceive; try dsimp only
  repeat' (
    first
    | (with_reducible first
       | assumption | apply State.serve_kept | apply State.enCount_kept | refine Kept.ite ?_ (fun _ => ?_))
    | (split <;> try dsimp only))

theorem State.mailbox_kept {a s} (h : Kept a s) (r) (request) : Kept a (State.mailbox s r request) := by
  unfold State.mailbox; try dsimp only
  repeat' (
    first
    | (with_reducible first
       | assumption | apply State.consume_kept | apply State.respond_kept | apply State.serve_kept
       | refine Kept.ite ?_ (fun _ => ?_))
    | (split <;> try dsimp only))

theorem State.windowBell_kept {a s} (h : Kept a s) (len) : Kept a (State.windowBell s len) := by
  unfold State.windowBell; try dsimp only
  repeat' (
    first
    | (with_reducible first
       | assumption | apply State.countBadAccess_kept | apply State.serve_kept | refine Kept.ite ?_ (fun _ => ?_))
    | simp only [Kept.upd]
    | (split <;> try dsimp only))

theorem State.writeWindow_kept {a s} (h : Kept a s) (off) (d) : Kept a (State.writeWindow s off d) := by
  unfold State.writeWindow; try dsimp only
  repeat' (
    first
    | (with_reducible first
       | assumption | apply State.windowBell_kept | refine Kept.ite ?_ (fun _ => ?_) | apply Kept.fold
       | apply Kept.foldOf Prod.fst)
    | simp only [Kept.upd]
    | (intro _; try dsimp only)
    | (split <;> try dsimp only))

theorem State.answerOwed_kept {a s} (h : Kept a s) (st) : Kept a (State.answerOwed s st) := by
  unfold State.answerOwed; try dsimp only
  repeat' (
    first
    | (with_reducible first
       | assumption | apply State.setToa_kept | apply State.setPwr_kept | apply State.cacheRsp_kept | apply State.respond_kept
       | refine Kept.ite ?_ (fun _ => ?_) | apply Kept.fold | apply Kept.foldOf Prod.fst)
    | simp only [Kept.upd]
    | (intro _; try dsimp only)
    | (split <;> try dsimp only))

theorem State.transitionAnswered_kept {a s} (h : Kept a s) (late) : Kept a (State.transitionAnswered s late) := by
  unfold State.transitionAnswered; try dsimp only
  repeat' (
    first
    | (with_reducible first
       | assumption | apply State.transition_kept | apply State.answerOwed_kept | refine Kept.ite ?_ (fun _ => ?_))
    | (split <;> try dsimp only))

theorem State.pairReset_kept {a s} (h : Kept a s) (pair) : Kept a (State.pairReset s pair) := by
  unfold State.pairReset; try dsimp only
  repeat' (
    first
    | (with_reducible first
       | assumption | apply State.closeSession_kept | apply State.count_kept | apply State.setObj_kept
       | apply State.latch_kept | refine Kept.ite ?_ (fun _ => ?_) | apply Kept.fold | apply Kept.foldOf Prod.fst)
    | (intro _; try dsimp only)
    | (split <;> try dsimp only))

theorem State.noteCmd_kept {a} {o} (h : Kept a o.st) : Kept a (State.noteCmd o) := by
  unfold State.noteCmd; try dsimp only
  repeat' (first | (with_reducible first | assumption | apply State.setToa_kept) | simp only [Kept.upd])

theorem State.inCmd_kept {a} {s} {f} (h : Kept a s) (h1 : ∀ y0, Kept a y0 → Kept a (f y0).st) (c) : Kept a (State.inCmd s c f) := by
  unfold State.inCmd; try dsimp only
  repeat' (
    first
    | (with_reducible first
       | assumption | apply h1 | apply State.noteCmd_kept | apply State.touch_kept | refine Kept.ite ?_ (fun _ => ?_))
    | (split <;> try dsimp only))

theorem State.itemRow_kept {a s} (h : Kept a s) (cmd) (c) (l) : Kept a (State.itemRow s cmd c l) := by
  unfold State.itemRow; try dsimp only
  repeat' (
    first
    | (with_reducible first
       | assumption | apply State.inCmd_kept | apply State.itemCmd_kept)
    | (intro _; try dsimp only))

theorem State.objCmd_kept {a s} (h : Kept a s) (c) (k) (ty) (d) : Kept a (State.objCmd s c k ty d) := by
  unfold State.objCmd; try dsimp only
  repeat' (
    first
    | (with_reducible first
       | assumption | apply State.inCmd_kept | apply State.objWrite_kept | refine Kept.ite ?_ (fun _ => ?_))
    | (intro _; try dsimp only)
    | (split <;> try dsimp only))

theorem State.numCmd_kept {a s} (h : Kept a s) (c) (k) (v) : Kept a (State.numCmd s c k v) := by
  unfold State.numCmd; try dsimp only
  repeat' (
    first
    | (with_reducible first
       | assumption | apply State.objCmd_kept | refine Kept.ite ?_ (fun _ => ?_))
    | (split <;> try dsimp only))

theorem State.tableCmd_kept {a s} (h : Kept a s) (c) (k) (d) : Kept a (State.tableCmd s c k d) := by
  unfold State.tableCmd; try dsimp only
  repeat' (with_reducible first | assumption | apply State.objCmd_kept)

theorem State.writeBar0_kept {a s} (h : Kept a s) (off) (v) : Kept a (State.writeBar0 s off v) := by
  unfold State.writeBar0; try dsimp only
  repeat' (
    first
    | (with_reducible first
       | assumption | apply State.hqAbort_kept | apply State.writeBar0w_kept | refine Kept.ite ?_ (fun _ => ?_))
    | (split <;> try dsimp only))

theorem State.hostWrite_kept {a s} (h : Kept a s) (off) (size) (v) : Kept a (State.hostWrite s off size v) := by
  unfold State.hostWrite; try dsimp only
  repeat' (
    first
    | (with_reducible first
       | assumption | apply State.countBadAccess_kept | apply State.writeBar0_kept | refine Kept.ite ?_ (fun _ => ?_))
    | (split <;> try dsimp only))

theorem State.targetWrite_kept {a s} (h : Kept a s) (t) : Kept a (State.targetWrite s t) := by
  unfold State.targetWrite; try dsimp only
  repeat' (
    first
    | (with_reducible first
       | assumption | apply State.onBar_kept | apply State.hostWrite_kept | apply State.writeWindow_kept
       | apply State.objCmd_kept)
    | (intro _; try dsimp only)
    | (split <;> try dsimp only))

theorem State.bar4Discard_kept {a s} (h : Kept a s) (off) : Kept a (State.bar4Discard s off) := by
  unfold State.bar4Discard; try dsimp only
  repeat' (with_reducible first | assumption | apply State.latch_kept | apply State.countBadAccess_kept)

end Sys2Proof.Machine
end

