-- ==== Sys2Proof/Laws/State.lean ====
section
/-! SUPPORT. What each update of one part of the state leaves alone: one lemma per update and field, true by unfolding. -/

namespace Sys2Proof.Machine

/-! ### setObj -/

@[simp] theorem State.setObj_pending (s : State) (k : Nat) (v : Int) : (s.setObj k v).pending = s.pending := rfl
@[simp] theorem State.setObj_blobs (s : State) (k : Nat) (v : Int) : (s.setObj k v).blobs = s.blobs := rfl
@[simp] theorem State.setObj_out (s : State) (k : Nat) (v : Int) : (s.setObj k v).out = s.out := rfl
@[simp] theorem State.setObj_free (s : State) (k : Nat) (v : Int) : (s.setObj k v).free = s.free := rfl
@[simp] theorem State.setObj_hq (s : State) (k : Nat) (v : Int) : (s.setObj k v).hq = s.hq := rfl
@[simp] theorem State.setObj_time (s : State) (k : Nat) (v : Int) : (s.setObj k v).time = s.time := rfl
@[simp] theorem State.setObj_halo (s : State) (k : Nat) (v : Int) : (s.setObj k v).halo = s.halo := rfl
@[simp] theorem State.setObj_jnl (s : State) (k : Nat) (v : Int) : (s.setObj k v).jnl = s.jnl := rfl
@[simp] theorem State.setObj_toa (s : State) (k : Nat) (v : Int) : (s.setObj k v).toa = s.toa := rfl
@[simp] theorem State.setObj_scarab (s : State) (k : Nat) (v : Int) : (s.setObj k v).scarab = s.scarab := rfl
@[simp] theorem State.setObj_web (s : State) (k : Nat) (v : Int) : (s.setObj k v).web = s.web := rfl
@[simp] theorem State.setObj_ffy (s : State) (k : Nat) (v : Int) : (s.setObj k v).ffy = s.ffy := rfl
@[simp] theorem State.setObj_lcw (s : State) (k : Nat) (v : Int) : (s.setObj k v).lcw = s.lcw := rfl
@[simp] theorem State.setObj_heads (s : State) (k : Nat) (v : Int) : (s.setObj k v).heads = s.heads := rfl
@[simp] theorem State.setObj_headSides (s : State) (k : Nat) (v : Int) : (s.setObj k v).headSides = s.headSides := rfl
@[simp] theorem State.setObj_lanes (s : State) (k : Nat) (v : Int) : (s.setObj k v).lanes = s.lanes := rfl
@[simp] theorem State.setObj_cams (s : State) (k : Nat) (v : Int) : (s.setObj k v).cams = s.cams := rfl
@[simp] theorem State.setObj_nim (s : State) (k : Nat) (v : Int) : (s.setObj k v).nim = s.nim := rfl
@[simp] theorem State.setObj_cal (s : State) (k : Nat) (v : Int) : (s.setObj k v).cal = s.cal := rfl
@[simp] theorem State.setObj_dram (s : State) (k : Nat) (v : Int) : (s.setObj k v).dram = s.dram := rfl
@[simp] theorem State.setObj_twin (s : State) (k : Nat) (v : Int) : (s.setObj k v).twin = s.twin := rfl
@[simp] theorem State.setObj_axes (s : State) (k : Nat) (v : Int) : (s.setObj k v).axes = s.axes := rfl
@[simp] theorem State.setObj_loops (s : State) (k : Nat) (v : Int) : (s.setObj k v).loops = s.loops := rfl
@[simp] theorem State.setObj_io (s : State) (k : Nat) (v : Int) : (s.setObj k v).io = s.io := rfl
@[simp] theorem State.setObj_dramSt (s : State) (k : Nat) (v : Int) : (s.setObj k v).dramSt = s.dramSt := rfl
@[simp] theorem State.setObj_str (s : State) (k : Nat) (v : Int) : (s.setObj k v).str = s.str := rfl
@[simp] theorem State.setObj_pwr (s : State) (k : Nat) (v : Int) : (s.setObj k v).pwr = s.pwr := rfl
@[simp] theorem State.setObj_cic (s : State) (k : Nat) (v : Int) : (s.setObj k v).cic = s.cic := rfl
@[simp] theorem State.setObj_now (s : State) (k : Nat) (v : Int) : (s.setObj k v).now = s.now := rfl

/-! ### setBit -/

@[simp] theorem State.setBit_pending (s : State) (k i : Nat) (b : Bool) : (s.setBit k i b).pending = s.pending := rfl
@[simp] theorem State.setBit_blobs (s : State) (k i : Nat) (b : Bool) : (s.setBit k i b).blobs = s.blobs := rfl
@[simp] theorem State.setBit_out (s : State) (k i : Nat) (b : Bool) : (s.setBit k i b).out = s.out := rfl
@[simp] theorem State.setBit_free (s : State) (k i : Nat) (b : Bool) : (s.setBit k i b).free = s.free := rfl
@[simp] theorem State.setBit_hq (s : State) (k i : Nat) (b : Bool) : (s.setBit k i b).hq = s.hq := rfl
@[simp] theorem State.setBit_time (s : State) (k i : Nat) (b : Bool) : (s.setBit k i b).time = s.time := rfl
@[simp] theorem State.setBit_halo (s : State) (k i : Nat) (b : Bool) : (s.setBit k i b).halo = s.halo := rfl
@[simp] theorem State.setBit_jnl (s : State) (k i : Nat) (b : Bool) : (s.setBit k i b).jnl = s.jnl := rfl
@[simp] theorem State.setBit_toa (s : State) (k i : Nat) (b : Bool) : (s.setBit k i b).toa = s.toa := rfl
@[simp] theorem State.setBit_scarab (s : State) (k i : Nat) (b : Bool) : (s.setBit k i b).scarab = s.scarab := rfl
@[simp] theorem State.setBit_web (s : State) (k i : Nat) (b : Bool) : (s.setBit k i b).web = s.web := rfl
@[simp] theorem State.setBit_ffy (s : State) (k i : Nat) (b : Bool) : (s.setBit k i b).ffy = s.ffy := rfl
@[simp] theorem State.setBit_lcw (s : State) (k i : Nat) (b : Bool) : (s.setBit k i b).lcw = s.lcw := rfl
@[simp] theorem State.setBit_heads (s : State) (k i : Nat) (b : Bool) : (s.setBit k i b).heads = s.heads := rfl
@[simp] theorem State.setBit_headSides (s : State) (k i : Nat) (b : Bool) : (s.setBit k i b).headSides = s.headSides := rfl
@[simp] theorem State.setBit_lanes (s : State) (k i : Nat) (b : Bool) : (s.setBit k i b).lanes = s.lanes := rfl
@[simp] theorem State.setBit_cams (s : State) (k i : Nat) (b : Bool) : (s.setBit k i b).cams = s.cams := rfl
@[simp] theorem State.setBit_nim (s : State) (k i : Nat) (b : Bool) : (s.setBit k i b).nim = s.nim := rfl
@[simp] theorem State.setBit_cal (s : State) (k i : Nat) (b : Bool) : (s.setBit k i b).cal = s.cal := rfl
@[simp] theorem State.setBit_dram (s : State) (k i : Nat) (b : Bool) : (s.setBit k i b).dram = s.dram := rfl
@[simp] theorem State.setBit_twin (s : State) (k i : Nat) (b : Bool) : (s.setBit k i b).twin = s.twin := rfl
@[simp] theorem State.setBit_axes (s : State) (k i : Nat) (b : Bool) : (s.setBit k i b).axes = s.axes := rfl
@[simp] theorem State.setBit_loops (s : State) (k i : Nat) (b : Bool) : (s.setBit k i b).loops = s.loops := rfl
@[simp] theorem State.setBit_io (s : State) (k i : Nat) (b : Bool) : (s.setBit k i b).io = s.io := rfl
@[simp] theorem State.setBit_dramSt (s : State) (k i : Nat) (b : Bool) : (s.setBit k i b).dramSt = s.dramSt := rfl
@[simp] theorem State.setBit_str (s : State) (k i : Nat) (b : Bool) : (s.setBit k i b).str = s.str := rfl
@[simp] theorem State.setBit_pwr (s : State) (k i : Nat) (b : Bool) : (s.setBit k i b).pwr = s.pwr := rfl
@[simp] theorem State.setBit_cic (s : State) (k i : Nat) (b : Bool) : (s.setBit k i b).cic = s.cic := rfl
@[simp] theorem State.setBit_now (s : State) (k i : Nat) (b : Bool) : (s.setBit k i b).now = s.now := rfl

/-! ### setByte -/

@[simp] theorem State.setByte_pending (s : State) (k off : Nat) (v : Byte) : (s.setByte k off v).pending = s.pending := rfl
@[simp] theorem State.setByte_objs (s : State) (k off : Nat) (v : Byte) : (s.setByte k off v).objs = s.objs := rfl
@[simp] theorem State.setByte_out (s : State) (k off : Nat) (v : Byte) : (s.setByte k off v).out = s.out := rfl
@[simp] theorem State.setByte_free (s : State) (k off : Nat) (v : Byte) : (s.setByte k off v).free = s.free := rfl
@[simp] theorem State.setByte_hq (s : State) (k off : Nat) (v : Byte) : (s.setByte k off v).hq = s.hq := rfl
@[simp] theorem State.setByte_time (s : State) (k off : Nat) (v : Byte) : (s.setByte k off v).time = s.time := rfl
@[simp] theorem State.setByte_halo (s : State) (k off : Nat) (v : Byte) : (s.setByte k off v).halo = s.halo := rfl
@[simp] theorem State.setByte_jnl (s : State) (k off : Nat) (v : Byte) : (s.setByte k off v).jnl = s.jnl := rfl
@[simp] theorem State.setByte_toa (s : State) (k off : Nat) (v : Byte) : (s.setByte k off v).toa = s.toa := rfl
@[simp] theorem State.setByte_scarab (s : State) (k off : Nat) (v : Byte) : (s.setByte k off v).scarab = s.scarab := rfl
@[simp] theorem State.setByte_web (s : State) (k off : Nat) (v : Byte) : (s.setByte k off v).web = s.web := rfl
@[simp] theorem State.setByte_ffy (s : State) (k off : Nat) (v : Byte) : (s.setByte k off v).ffy = s.ffy := rfl
@[simp] theorem State.setByte_lcw (s : State) (k off : Nat) (v : Byte) : (s.setByte k off v).lcw = s.lcw := rfl
@[simp] theorem State.setByte_heads (s : State) (k off : Nat) (v : Byte) : (s.setByte k off v).heads = s.heads := rfl
@[simp] theorem State.setByte_headSides (s : State) (k off : Nat) (v : Byte) : (s.setByte k off v).headSides = s.headSides := rfl
@[simp] theorem State.setByte_lanes (s : State) (k off : Nat) (v : Byte) : (s.setByte k off v).lanes = s.lanes := rfl
@[simp] theorem State.setByte_cams (s : State) (k off : Nat) (v : Byte) : (s.setByte k off v).cams = s.cams := rfl
@[simp] theorem State.setByte_nim (s : State) (k off : Nat) (v : Byte) : (s.setByte k off v).nim = s.nim := rfl
@[simp] theorem State.setByte_cal (s : State) (k off : Nat) (v : Byte) : (s.setByte k off v).cal = s.cal := rfl
@[simp] theorem State.setByte_dram (s : State) (k off : Nat) (v : Byte) : (s.setByte k off v).dram = s.dram := rfl
@[simp] theorem State.setByte_twin (s : State) (k off : Nat) (v : Byte) : (s.setByte k off v).twin = s.twin := rfl
@[simp] theorem State.setByte_axes (s : State) (k off : Nat) (v : Byte) : (s.setByte k off v).axes = s.axes := rfl
@[simp] theorem State.setByte_loops (s : State) (k off : Nat) (v : Byte) : (s.setByte k off v).loops = s.loops := rfl
@[simp] theorem State.setByte_io (s : State) (k off : Nat) (v : Byte) : (s.setByte k off v).io = s.io := rfl
@[simp] theorem State.setByte_dramSt (s : State) (k off : Nat) (v : Byte) : (s.setByte k off v).dramSt = s.dramSt := rfl
@[simp] theorem State.setByte_str (s : State) (k off : Nat) (v : Byte) : (s.setByte k off v).str = s.str := rfl
@[simp] theorem State.setByte_pwr (s : State) (k off : Nat) (v : Byte) : (s.setByte k off v).pwr = s.pwr := rfl
@[simp] theorem State.setByte_cic (s : State) (k off : Nat) (v : Byte) : (s.setByte k off v).cic = s.cic := rfl
@[simp] theorem State.setByte_obj (s : State) (k off : Nat) (v : Byte) (j : Nat) : (s.setByte k off v).obj j = s.obj j := rfl
@[simp] theorem State.setByte_objN (s : State) (k off : Nat) (v : Byte) (j : Nat) : (s.setByte k off v).objN j = s.objN j := rfl
@[simp] theorem State.setByte_objBit (s : State) (k off : Nat) (v : Byte) (j m : Nat) : (s.setByte k off v).objBit j m = s.objBit j m := rfl
@[simp] theorem State.setByte_ready (s : State) (k off : Nat) (v : Byte) (p : Nat) : (s.setByte k off v).ready p = s.ready p := rfl
@[simp] theorem State.setByte_now (s : State) (k off : Nat) (v : Byte) : (s.setByte k off v).now = s.now := rfl

/-! ### setRing -/

@[simp] theorem State.setRing_pending (s : State) (q : Nat) (r : Ring) : (s.setRing q r).pending = s.pending := rfl
@[simp] theorem State.setRing_objs (s : State) (q : Nat) (r : Ring) : (s.setRing q r).objs = s.objs := rfl
@[simp] theorem State.setRing_blobs (s : State) (q : Nat) (r : Ring) : (s.setRing q r).blobs = s.blobs := rfl
@[simp] theorem State.setRing_out (s : State) (q : Nat) (r : Ring) : (s.setRing q r).out = s.out := rfl
@[simp] theorem State.setRing_free (s : State) (q : Nat) (r : Ring) : (s.setRing q r).free = s.free := rfl
@[simp] theorem State.setRing_time (s : State) (q : Nat) (r : Ring) : (s.setRing q r).time = s.time := rfl
@[simp] theorem State.setRing_halo (s : State) (q : Nat) (r : Ring) : (s.setRing q r).halo = s.halo := rfl
@[simp] theorem State.setRing_jnl (s : State) (q : Nat) (r : Ring) : (s.setRing q r).jnl = s.jnl := rfl
@[simp] theorem State.setRing_toa (s : State) (q : Nat) (r : Ring) : (s.setRing q r).toa = s.toa := rfl
@[simp] theorem State.setRing_scarab (s : State) (q : Nat) (r : Ring) : (s.setRing q r).scarab = s.scarab := rfl
@[simp] theorem State.setRing_web (s : State) (q : Nat) (r : Ring) : (s.setRing q r).web = s.web := rfl
@[simp] theorem State.setRing_ffy (s : State) (q : Nat) (r : Ring) : (s.setRing q r).ffy = s.ffy := rfl
@[simp] theorem State.setRing_lcw (s : State) (q : Nat) (r : Ring) : (s.setRing q r).lcw = s.lcw := rfl
@[simp] theorem State.setRing_heads (s : State) (q : Nat) (r : Ring) : (s.setRing q r).heads = s.heads := rfl
@[simp] theorem State.setRing_headSides (s : State) (q : Nat) (r : Ring) : (s.setRing q r).headSides = s.headSides := rfl
@[simp] theorem State.setRing_lanes (s : State) (q : Nat) (r : Ring) : (s.setRing q r).lanes = s.lanes := rfl
@[simp] theorem State.setRing_cams (s : State) (q : Nat) (r : Ring) : (s.setRing q r).cams = s.cams := rfl
@[simp] theorem State.setRing_nim (s : State) (q : Nat) (r : Ring) : (s.setRing q r).nim = s.nim := rfl
@[simp] theorem State.setRing_cal (s : State) (q : Nat) (r : Ring) : (s.setRing q r).cal = s.cal := rfl
@[simp] theorem State.setRing_dram (s : State) (q : Nat) (r : Ring) : (s.setRing q r).dram = s.dram := rfl
@[simp] theorem State.setRing_twin (s : State) (q : Nat) (r : Ring) : (s.setRing q r).twin = s.twin := rfl
@[simp] theorem State.setRing_axes (s : State) (q : Nat) (r : Ring) : (s.setRing q r).axes = s.axes := rfl
@[simp] theorem State.setRing_loops (s : State) (q : Nat) (r : Ring) : (s.setRing q r).loops = s.loops := rfl
@[simp] theorem State.setRing_io (s : State) (q : Nat) (r : Ring) : (s.setRing q r).io = s.io := rfl
@[simp] theorem State.setRing_dramSt (s : State) (q : Nat) (r : Ring) : (s.setRing q r).dramSt = s.dramSt := rfl
@[simp] theorem State.setRing_str (s : State) (q : Nat) (r : Ring) : (s.setRing q r).str = s.str := rfl
@[simp] theorem State.setRing_pwr (s : State) (q : Nat) (r : Ring) : (s.setRing q r).pwr = s.pwr := rfl
@[simp] theorem State.setRing_cic (s : State) (q : Nat) (r : Ring) : (s.setRing q r).cic = s.cic := rfl
@[simp] theorem State.setRing_obj (s : State) (q : Nat) (r : Ring) (j : Nat) : (s.setRing q r).obj j = s.obj j := rfl
@[simp] theorem State.setRing_objN (s : State) (q : Nat) (r : Ring) (j : Nat) : (s.setRing q r).objN j = s.objN j := rfl
@[simp] theorem State.setRing_objBit (s : State) (q : Nat) (r : Ring) (j m : Nat) : (s.setRing q r).objBit j m = s.objBit j m := rfl
@[simp] theorem State.setRing_ready (s : State) (q : Nat) (r : Ring) (p : Nat) : (s.setRing q r).ready p = s.ready p := rfl
@[simp] theorem State.setRing_now (s : State) (q : Nat) (r : Ring) : (s.setRing q r).now = s.now := rfl

/-! ### emit -/

@[simp] theorem State.emit_pending (s : State) (o : Out) : (s.emit o).pending = s.pending := rfl
@[simp] theorem State.emit_objs (s : State) (o : Out) : (s.emit o).objs = s.objs := rfl
@[simp] theorem State.emit_blobs (s : State) (o : Out) : (s.emit o).blobs = s.blobs := rfl
@[simp] theorem State.emit_free (s : State) (o : Out) : (s.emit o).free = s.free := rfl
@[simp] theorem State.emit_hq (s : State) (o : Out) : (s.emit o).hq = s.hq := rfl
@[simp] theorem State.emit_time (s : State) (o : Out) : (s.emit o).time = s.time := rfl
@[simp] theorem State.emit_halo (s : State) (o : Out) : (s.emit o).halo = s.halo := rfl
@[simp] theorem State.emit_jnl (s : State) (o : Out) : (s.emit o).jnl = s.jnl := rfl
@[simp] theorem State.emit_toa (s : State) (o : Out) : (s.emit o).toa = s.toa := rfl
@[simp] theorem State.emit_scarab (s : State) (o : Out) : (s.emit o).scarab = s.scarab := rfl
@[simp] theorem State.emit_web (s : State) (o : Out) : (s.emit o).web = s.web := rfl
@[simp] theorem State.emit_ffy (s : State) (o : Out) : (s.emit o).ffy = s.ffy := rfl
@[simp] theorem State.emit_lcw (s : State) (o : Out) : (s.emit o).lcw = s.lcw := rfl
@[simp] theorem State.emit_heads (s : State) (o : Out) : (s.emit o).heads = s.heads := rfl
@[simp] theorem State.emit_headSides (s : State) (o : Out) : (s.emit o).headSides = s.headSides := rfl
@[simp] theorem State.emit_lanes (s : State) (o : Out) : (s.emit o).lanes = s.lanes := rfl
@[simp] theorem State.emit_cams (s : State) (o : Out) : (s.emit o).cams = s.cams := rfl
@[simp] theorem State.emit_nim (s : State) (o : Out) : (s.emit o).nim = s.nim := rfl
@[simp] theorem State.emit_cal (s : State) (o : Out) : (s.emit o).cal = s.cal := rfl
@[simp] theorem State.emit_dram (s : State) (o : Out) : (s.emit o).dram = s.dram := rfl
@[simp] theorem State.emit_twin (s : State) (o : Out) : (s.emit o).twin = s.twin := rfl
@[simp] theorem State.emit_axes (s : State) (o : Out) : (s.emit o).axes = s.axes := rfl
@[simp] theorem State.emit_loops (s : State) (o : Out) : (s.emit o).loops = s.loops := rfl
@[simp] theorem State.emit_io (s : State) (o : Out) : (s.emit o).io = s.io := rfl
@[simp] theorem State.emit_dramSt (s : State) (o : Out) : (s.emit o).dramSt = s.dramSt := rfl
@[simp] theorem State.emit_str (s : State) (o : Out) : (s.emit o).str = s.str := rfl
@[simp] theorem State.emit_pwr (s : State) (o : Out) : (s.emit o).pwr = s.pwr := rfl
@[simp] theorem State.emit_cic (s : State) (o : Out) : (s.emit o).cic = s.cic := rfl
@[simp] theorem State.emit_obj (s : State) (o : Out) (j : Nat) : (s.emit o).obj j = s.obj j := rfl
@[simp] theorem State.emit_objN (s : State) (o : Out) (j : Nat) : (s.emit o).objN j = s.objN j := rfl
@[simp] theorem State.emit_objBit (s : State) (o : Out) (j m : Nat) : (s.emit o).objBit j m = s.objBit j m := rfl
@[simp] theorem State.emit_ready (s : State) (o : Out) (p : Nat) : (s.emit o).ready p = s.ready p := rfl
@[simp] theorem State.emit_now (s : State) (o : Out) : (s.emit o).now = s.now := rfl

/-! ### mapJob -/

@[simp] theorem State.mapJob_pending (s : State) (id : Nat) (f : Job → Job) : (s.mapJob id f).pending = s.pending := rfl
@[simp] theorem State.mapJob_objs (s : State) (id : Nat) (f : Job → Job) : (s.mapJob id f).objs = s.objs := rfl
@[simp] theorem State.mapJob_blobs (s : State) (id : Nat) (f : Job → Job) : (s.mapJob id f).blobs = s.blobs := rfl
@[simp] theorem State.mapJob_out (s : State) (id : Nat) (f : Job → Job) : (s.mapJob id f).out = s.out := rfl
@[simp] theorem State.mapJob_free (s : State) (id : Nat) (f : Job → Job) : (s.mapJob id f).free = s.free := rfl
@[simp] theorem State.mapJob_time (s : State) (id : Nat) (f : Job → Job) : (s.mapJob id f).time = s.time := rfl
@[simp] theorem State.mapJob_halo (s : State) (id : Nat) (f : Job → Job) : (s.mapJob id f).halo = s.halo := rfl
@[simp] theorem State.mapJob_jnl (s : State) (id : Nat) (f : Job → Job) : (s.mapJob id f).jnl = s.jnl := rfl
@[simp] theorem State.mapJob_toa (s : State) (id : Nat) (f : Job → Job) : (s.mapJob id f).toa = s.toa := rfl
@[simp] theorem State.mapJob_scarab (s : State) (id : Nat) (f : Job → Job) : (s.mapJob id f).scarab = s.scarab := rfl
@[simp] theorem State.mapJob_web (s : State) (id : Nat) (f : Job → Job) : (s.mapJob id f).web = s.web := rfl
@[simp] theorem State.mapJob_ffy (s : State) (id : Nat) (f : Job → Job) : (s.mapJob id f).ffy = s.ffy := rfl
@[simp] theorem State.mapJob_lcw (s : State) (id : Nat) (f : Job → Job) : (s.mapJob id f).lcw = s.lcw := rfl
@[simp] theorem State.mapJob_heads (s : State) (id : Nat) (f : Job → Job) : (s.mapJob id f).heads = s.heads := rfl
@[simp] theorem State.mapJob_headSides (s : State) (id : Nat) (f : Job → Job) : (s.mapJob id f).headSides = s.headSides := rfl
@[simp] theorem State.mapJob_lanes (s : State) (id : Nat) (f : Job → Job) : (s.mapJob id f).lanes = s.lanes := rfl
@[simp] theorem State.mapJob_cams (s : State) (id : Nat) (f : Job → Job) : (s.mapJob id f).cams = s.cams := rfl
@[simp] theorem State.mapJob_nim (s : State) (id : Nat) (f : Job → Job) : (s.mapJob id f).nim = s.nim := rfl
@[simp] theorem State.mapJob_cal (s : State) (id : Nat) (f : Job → Job) : (s.mapJob id f).cal = s.cal := rfl
@[simp] theorem State.mapJob_dram (s : State) (id : Nat) (f : Job → Job) : (s.mapJob id f).dram = s.dram := rfl
@[simp] theorem State.mapJob_twin (s : State) (id : Nat) (f : Job → Job) : (s.mapJob id f).twin = s.twin := rfl
@[simp] theorem State.mapJob_axes (s : State) (id : Nat) (f : Job → Job) : (s.mapJob id f).axes = s.axes := rfl
@[simp] theorem State.mapJob_loops (s : State) (id : Nat) (f : Job → Job) : (s.mapJob id f).loops = s.loops := rfl
@[simp] theorem State.mapJob_io (s : State) (id : Nat) (f : Job → Job) : (s.mapJob id f).io = s.io := rfl
@[simp] theorem State.mapJob_dramSt (s : State) (id : Nat) (f : Job → Job) : (s.mapJob id f).dramSt = s.dramSt := rfl
@[simp] theorem State.mapJob_str (s : State) (id : Nat) (f : Job → Job) : (s.mapJob id f).str = s.str := rfl
@[simp] theorem State.mapJob_pwr (s : State) (id : Nat) (f : Job → Job) : (s.mapJob id f).pwr = s.pwr := rfl
@[simp] theorem State.mapJob_cic (s : State) (id : Nat) (f : Job → Job) : (s.mapJob id f).cic = s.cic := rfl
@[simp] theorem State.mapJob_obj (s : State) (id : Nat) (f : Job → Job) (j : Nat) : (s.mapJob id f).obj j = s.obj j := rfl
@[simp] theorem State.mapJob_objN (s : State) (id : Nat) (f : Job → Job) (j : Nat) : (s.mapJob id f).objN j = s.objN j := rfl
@[simp] theorem State.mapJob_objBit (s : State) (id : Nat) (f : Job → Job) (j m : Nat) : (s.mapJob id f).objBit j m = s.objBit j m := rfl
@[simp] theorem State.mapJob_ready (s : State) (id : Nat) (f : Job → Job) (p : Nat) : (s.mapJob id f).ready p = s.ready p := rfl
@[simp] theorem State.mapJob_now (s : State) (id : Nat) (f : Job → Job) : (s.mapJob id f).now = s.now := rfl

/-! ### mapBase -/

@[simp] theorem State.mapBase_pending (s : State) (id : Nat) (f : Base → Base) : (s.mapBase id f).pending = s.pending := rfl
@[simp] theorem State.mapBase_objs (s : State) (id : Nat) (f : Base → Base) : (s.mapBase id f).objs = s.objs := rfl
@[simp] theorem State.mapBase_blobs (s : State) (id : Nat) (f : Base → Base) : (s.mapBase id f).blobs = s.blobs := rfl
@[simp] theorem State.mapBase_out (s : State) (id : Nat) (f : Base → Base) : (s.mapBase id f).out = s.out := rfl
@[simp] theorem State.mapBase_free (s : State) (id : Nat) (f : Base → Base) : (s.mapBase id f).free = s.free := rfl
@[simp] theorem State.mapBase_time (s : State) (id : Nat) (f : Base → Base) : (s.mapBase id f).time = s.time := rfl
@[simp] theorem State.mapBase_halo (s : State) (id : Nat) (f : Base → Base) : (s.mapBase id f).halo = s.halo := rfl
@[simp] theorem State.mapBase_jnl (s : State) (id : Nat) (f : Base → Base) : (s.mapBase id f).jnl = s.jnl := rfl
@[simp] theorem State.mapBase_toa (s : State) (id : Nat) (f : Base → Base) : (s.mapBase id f).toa = s.toa := rfl
@[simp] theorem State.mapBase_scarab (s : State) (id : Nat) (f : Base → Base) : (s.mapBase id f).scarab = s.scarab := rfl
@[simp] theorem State.mapBase_web (s : State) (id : Nat) (f : Base → Base) : (s.mapBase id f).web = s.web := rfl
@[simp] theorem State.mapBase_ffy (s : State) (id : Nat) (f : Base → Base) : (s.mapBase id f).ffy = s.ffy := rfl
@[simp] theorem State.mapBase_lcw (s : State) (id : Nat) (f : Base → Base) : (s.mapBase id f).lcw = s.lcw := rfl
@[simp] theorem State.mapBase_heads (s : State) (id : Nat) (f : Base → Base) : (s.mapBase id f).heads = s.heads := rfl
@[simp] theorem State.mapBase_headSides (s : State) (id : Nat) (f : Base → Base) : (s.mapBase id f).headSides = s.headSides := rfl
@[simp] theorem State.mapBase_lanes (s : State) (id : Nat) (f : Base → Base) : (s.mapBase id f).lanes = s.lanes := rfl
@[simp] theorem State.mapBase_cams (s : State) (id : Nat) (f : Base → Base) : (s.mapBase id f).cams = s.cams := rfl
@[simp] theorem State.mapBase_nim (s : State) (id : Nat) (f : Base → Base) : (s.mapBase id f).nim = s.nim := rfl
@[simp] theorem State.mapBase_cal (s : State) (id : Nat) (f : Base → Base) : (s.mapBase id f).cal = s.cal := rfl
@[simp] theorem State.mapBase_dram (s : State) (id : Nat) (f : Base → Base) : (s.mapBase id f).dram = s.dram := rfl
@[simp] theorem State.mapBase_twin (s : State) (id : Nat) (f : Base → Base) : (s.mapBase id f).twin = s.twin := rfl
@[simp] theorem State.mapBase_axes (s : State) (id : Nat) (f : Base → Base) : (s.mapBase id f).axes = s.axes := rfl
@[simp] theorem State.mapBase_loops (s : State) (id : Nat) (f : Base → Base) : (s.mapBase id f).loops = s.loops := rfl
@[simp] theorem State.mapBase_io (s : State) (id : Nat) (f : Base → Base) : (s.mapBase id f).io = s.io := rfl
@[simp] theorem State.mapBase_dramSt (s : State) (id : Nat) (f : Base → Base) : (s.mapBase id f).dramSt = s.dramSt := rfl
@[simp] theorem State.mapBase_str (s : State) (id : Nat) (f : Base → Base) : (s.mapBase id f).str = s.str := rfl
@[simp] theorem State.mapBase_pwr (s : State) (id : Nat) (f : Base → Base) : (s.mapBase id f).pwr = s.pwr := rfl
@[simp] theorem State.mapBase_cic (s : State) (id : Nat) (f : Base → Base) : (s.mapBase id f).cic = s.cic := rfl
@[simp] theorem State.mapBase_obj (s : State) (id : Nat) (f : Base → Base) (j : Nat) : (s.mapBase id f).obj j = s.obj j := rfl
@[simp] theorem State.mapBase_objN (s : State) (id : Nat) (f : Base → Base) (j : Nat) : (s.mapBase id f).objN j = s.objN j := rfl
@[simp] theorem State.mapBase_objBit (s : State) (id : Nat) (f : Base → Base) (j m : Nat) : (s.mapBase id f).objBit j m = s.objBit j m := rfl
@[simp] theorem State.mapBase_ready (s : State) (id : Nat) (f : Base → Base) (p : Nat) : (s.mapBase id f).ready p = s.ready p := rfl
@[simp] theorem State.mapBase_now (s : State) (id : Nat) (f : Base → Base) : (s.mapBase id f).now = s.now := rfl

/-! ### setHeadDev -/

@[simp] theorem State.setHeadDev_pending (s : State) (h : Nat) (d : HeadDev) : (s.setHeadDev h d).pending = s.pending := rfl
@[simp] theorem State.setHeadDev_objs (s : State) (h : Nat) (d : HeadDev) : (s.setHeadDev h d).objs = s.objs := rfl
@[simp] theorem State.setHeadDev_blobs (s : State) (h : Nat) (d : HeadDev) : (s.setHeadDev h d).blobs = s.blobs := rfl
@[simp] theorem State.setHeadDev_out (s : State) (h : Nat) (d : HeadDev) : (s.setHeadDev h d).out = s.out := rfl
@[simp] theorem State.setHeadDev_free (s : State) (h : Nat) (d : HeadDev) : (s.setHeadDev h d).free = s.free := rfl
@[simp] theorem State.setHeadDev_hq (s : State) (h : Nat) (d : HeadDev) : (s.setHeadDev h d).hq = s.hq := rfl
@[simp] theorem State.setHeadDev_time (s : State) (h : Nat) (d : HeadDev) : (s.setHeadDev h d).time = s.time := rfl
@[simp] theorem State.setHeadDev_halo (s : State) (h : Nat) (d : HeadDev) : (s.setHeadDev h d).halo = s.halo := rfl
@[simp] theorem State.setHeadDev_jnl (s : State) (h : Nat) (d : HeadDev) : (s.setHeadDev h d).jnl = s.jnl := rfl
@[simp] theorem State.setHeadDev_toa (s : State) (h : Nat) (d : HeadDev) : (s.setHeadDev h d).toa = s.toa := rfl
@[simp] theorem State.setHeadDev_scarab (s : State) (h : Nat) (d : HeadDev) : (s.setHeadDev h d).scarab = s.scarab := rfl
@[simp] theorem State.setHeadDev_web (s : State) (h : Nat) (d : HeadDev) : (s.setHeadDev h d).web = s.web := rfl
@[simp] theorem State.setHeadDev_ffy (s : State) (h : Nat) (d : HeadDev) : (s.setHeadDev h d).ffy = s.ffy := rfl
@[simp] theorem State.setHeadDev_lcw (s : State) (h : Nat) (d : HeadDev) : (s.setHeadDev h d).lcw = s.lcw := rfl
@[simp] theorem State.setHeadDev_headSides (s : State) (h : Nat) (d : HeadDev) : (s.setHeadDev h d).headSides = s.headSides := rfl
@[simp] theorem State.setHeadDev_lanes (s : State) (h : Nat) (d : HeadDev) : (s.setHeadDev h d).lanes = s.lanes := rfl
@[simp] theorem State.setHeadDev_cams (s : State) (h : Nat) (d : HeadDev) : (s.setHeadDev h d).cams = s.cams := rfl
@[simp] theorem State.setHeadDev_nim (s : State) (h : Nat) (d : HeadDev) : (s.setHeadDev h d).nim = s.nim := rfl
@[simp] theorem State.setHeadDev_cal (s : State) (h : Nat) (d : HeadDev) : (s.setHeadDev h d).cal = s.cal := rfl
@[simp] theorem State.setHeadDev_dram (s : State) (h : Nat) (d : HeadDev) : (s.setHeadDev h d).dram = s.dram := rfl
@[simp] theorem State.setHeadDev_twin (s : State) (h : Nat) (d : HeadDev) : (s.setHeadDev h d).twin = s.twin := rfl
@[simp] theorem State.setHeadDev_axes (s : State) (h : Nat) (d : HeadDev) : (s.setHeadDev h d).axes = s.axes := rfl
@[simp] theorem State.setHeadDev_loops (s : State) (h : Nat) (d : HeadDev) : (s.setHeadDev h d).loops = s.loops := rfl
@[simp] theorem State.setHeadDev_io (s : State) (h : Nat) (d : HeadDev) : (s.setHeadDev h d).io = s.io := rfl
@[simp] theorem State.setHeadDev_dramSt (s : State) (h : Nat) (d : HeadDev) : (s.setHeadDev h d).dramSt = s.dramSt := rfl
@[simp] theorem State.setHeadDev_str (s : State) (h : Nat) (d : HeadDev) : (s.setHeadDev h d).str = s.str := rfl
@[simp] theorem State.setHeadDev_pwr (s : State) (h : Nat) (d : HeadDev) : (s.setHeadDev h d).pwr = s.pwr := rfl
@[simp] theorem State.setHeadDev_cic (s : State) (h : Nat) (d : HeadDev) : (s.setHeadDev h d).cic = s.cic := rfl
@[simp] theorem State.setHeadDev_obj (s : State) (h : Nat) (d : HeadDev) (j : Nat) : (s.setHeadDev h d).obj j = s.obj j := rfl
@[simp] theorem State.setHeadDev_objN (s : State) (h : Nat) (d : HeadDev) (j : Nat) : (s.setHeadDev h d).objN j = s.objN j := rfl
@[simp] theorem State.setHeadDev_objBit (s : State) (h : Nat) (d : HeadDev) (j m : Nat) : (s.setHeadDev h d).objBit j m = s.objBit j m := rfl
@[simp] theorem State.setHeadDev_ready (s : State) (h : Nat) (d : HeadDev) (p : Nat) : (s.setHeadDev h d).ready p = s.ready p := rfl
@[simp] theorem State.setHeadDev_now (s : State) (h : Nat) (d : HeadDev) : (s.setHeadDev h d).now = s.now := rfl

/-! ### setHeadSide -/

@[simp] theorem State.setHeadSide_pending (s : State) (h : Nat) (x : HeadSide) : (s.setHeadSide h x).pending = s.pending := rfl
@[simp] theorem State.setHeadSide_objs (s : State) (h : Nat) (x : HeadSide) : (s.setHeadSide h x).objs = s.objs := rfl
@[simp] theorem State.setHeadSide_blobs (s : State) (h : Nat) (x : HeadSide) : (s.setHeadSide h x).blobs = s.blobs := rfl
@[simp] theorem State.setHeadSide_out (s : State) (h : Nat) (x : HeadSide) : (s.setHeadSide h x).out = s.out := rfl
@[simp] theorem State.setHeadSide_free (s : State) (h : Nat) (x : HeadSide) : (s.setHeadSide h x).free = s.free := rfl
@[simp] theorem State.setHeadSide_hq (s : State) (h : Nat) (x : HeadSide) : (s.setHeadSide h x).hq = s.hq := rfl
@[simp] theorem State.setHeadSide_time (s : State) (h : Nat) (x : HeadSide) : (s.setHeadSide h x).time = s.time := rfl
@[simp] theorem State.setHeadSide_halo (s : State) (h : Nat) (x : HeadSide) : (s.setHeadSide h x).halo = s.halo := rfl
@[simp] theorem State.setHeadSide_jnl (s : State) (h : Nat) (x : HeadSide) : (s.setHeadSide h x).jnl = s.jnl := rfl
@[simp] theorem State.setHeadSide_toa (s : State) (h : Nat) (x : HeadSide) : (s.setHeadSide h x).toa = s.toa := rfl
@[simp] theorem State.setHeadSide_scarab (s : State) (h : Nat) (x : HeadSide) : (s.setHeadSide h x).scarab = s.scarab := rfl
@[simp] theorem State.setHeadSide_web (s : State) (h : Nat) (x : HeadSide) : (s.setHeadSide h x).web = s.web := rfl
@[simp] theorem State.setHeadSide_ffy (s : State) (h : Nat) (x : HeadSide) : (s.setHeadSide h x).ffy = s.ffy := rfl
@[simp] theorem State.setHeadSide_lcw (s : State) (h : Nat) (x : HeadSide) : (s.setHeadSide h x).lcw = s.lcw := rfl
@[simp] theorem State.setHeadSide_heads (s : State) (h : Nat) (x : HeadSide) : (s.setHeadSide h x).heads = s.heads := rfl
@[simp] theorem State.setHeadSide_lanes (s : State) (h : Nat) (x : HeadSide) : (s.setHeadSide h x).lanes = s.lanes := rfl
@[simp] theorem State.setHeadSide_cams (s : State) (h : Nat) (x : HeadSide) : (s.setHeadSide h x).cams = s.cams := rfl
@[simp] theorem State.setHeadSide_nim (s : State) (h : Nat) (x : HeadSide) : (s.setHeadSide h x).nim = s.nim := rfl
@[simp] theorem State.setHeadSide_cal (s : State) (h : Nat) (x : HeadSide) : (s.setHeadSide h x).cal = s.cal := rfl
@[simp] theorem State.setHeadSide_dram (s : State) (h : Nat) (x : HeadSide) : (s.setHeadSide h x).dram = s.dram := rfl
@[simp] theorem State.setHeadSide_twin (s : State) (h : Nat) (x : HeadSide) : (s.setHeadSide h x).twin = s.twin := rfl
@[simp] theorem State.setHeadSide_axes (s : State) (h : Nat) (x : HeadSide) : (s.setHeadSide h x).axes = s.axes := rfl
@[simp] theorem State.setHeadSide_loops (s : State) (h : Nat) (x : HeadSide) : (s.setHeadSide h x).loops = s.loops := rfl
@[simp] theorem State.setHeadSide_io (s : State) (h : Nat) (x : HeadSide) : (s.setHeadSide h x).io = s.io := rfl
@[simp] theorem State.setHeadSide_dramSt (s : State) (h : Nat) (x : HeadSide) : (s.setHeadSide h x).dramSt = s.dramSt := rfl
@[simp] theorem State.setHeadSide_str (s : State) (h : Nat) (x : HeadSide) : (s.setHeadSide h x).str = s.str := rfl
@[simp] theorem State.setHeadSide_pwr (s : State) (h : Nat) (x : HeadSide) : (s.setHeadSide h x).pwr = s.pwr := rfl
@[simp] theorem State.setHeadSide_cic (s : State) (h : Nat) (x : HeadSide) : (s.setHeadSide h x).cic = s.cic := rfl
@[simp] theorem State.setHeadSide_obj (s : State) (h : Nat) (x : HeadSide) (j : Nat) : (s.setHeadSide h x).obj j = s.obj j := rfl
@[simp] theorem State.setHeadSide_objN (s : State) (h : Nat) (x : HeadSide) (j : Nat) : (s.setHeadSide h x).objN j = s.objN j := rfl
@[simp] theorem State.setHeadSide_objBit (s : State) (h : Nat) (x : HeadSide) (j m : Nat) : (s.setHeadSide h x).objBit j m = s.objBit j m := rfl
@[simp] theorem State.setHeadSide_ready (s : State) (h : Nat) (x : HeadSide) (p : Nat) : (s.setHeadSide h x).ready p = s.ready p := rfl
@[simp] theorem State.setHeadSide_now (s : State) (h : Nat) (x : HeadSide) : (s.setHeadSide h x).now = s.now := rfl

/-! ### setLane -/

@[simp] theorem State.setLane_pending (s : State) (n : Nat) (x : LaneSt) : (s.setLane n x).pending = s.pending := rfl
@[simp] theorem State.setLane_objs (s : State) (n : Nat) (x : LaneSt) : (s.setLane n x).objs = s.objs := rfl
@[simp] theorem State.setLane_blobs (s : State) (n : Nat) (x : LaneSt) : (s.setLane n x).blobs = s.blobs := rfl
@[simp] theorem State.setLane_out (s : State) (n : Nat) (x : LaneSt) : (s.setLane n x).out = s.out := rfl
@[simp] theorem State.setLane_free (s : State) (n : Nat) (x : LaneSt) : (s.setLane n x).free = s.free := rfl
@[simp] theorem State.setLane_hq (s : State) (n : Nat) (x : LaneSt) : (s.setLane n x).hq = s.hq := rfl
@[simp] theorem State.setLane_time (s : State) (n : Nat) (x : LaneSt) : (s.setLane n x).time = s.time := rfl
@[simp] theorem State.setLane_halo (s : State) (n : Nat) (x : LaneSt) : (s.setLane n x).halo = s.halo := rfl
@[simp] theorem State.setLane_jnl (s : State) (n : Nat) (x : LaneSt) : (s.setLane n x).jnl = s.jnl := rfl
@[simp] theorem State.setLane_toa (s : State) (n : Nat) (x : LaneSt) : (s.setLane n x).toa = s.toa := rfl
@[simp] theorem State.setLane_scarab (s : State) (n : Nat) (x : LaneSt) : (s.setLane n x).scarab = s.scarab := rfl
@[simp] theorem State.setLane_web (s : State) (n : Nat) (x : LaneSt) : (s.setLane n x).web = s.web := rfl
@[simp] theorem State.setLane_ffy (s : State) (n : Nat) (x : LaneSt) : (s.setLane n x).ffy = s.ffy := rfl
@[simp] theorem State.setLane_lcw (s : State) (n : Nat) (x : LaneSt) : (s.setLane n x).lcw = s.lcw := rfl
@[simp] theorem State.setLane_heads (s : State) (n : Nat) (x : LaneSt) : (s.setLane n x).heads = s.heads := rfl
@[simp] theorem State.setLane_headSides (s : State) (n : Nat) (x : LaneSt) : (s.setLane n x).headSides = s.headSides := rfl
@[simp] theorem State.setLane_cams (s : State) (n : Nat) (x : LaneSt) : (s.setLane n x).cams = s.cams := rfl
@[simp] theorem State.setLane_nim (s : State) (n : Nat) (x : LaneSt) : (s.setLane n x).nim = s.nim := rfl
@[simp] theorem State.setLane_cal (s : State) (n : Nat) (x : LaneSt) : (s.setLane n x).cal = s.cal := rfl
@[simp] theorem State.setLane_dram (s : State) (n : Nat) (x : LaneSt) : (s.setLane n x).dram = s.dram := rfl
@[simp] theorem State.setLane_twin (s : State) (n : Nat) (x : LaneSt) : (s.setLane n x).twin = s.twin := rfl
@[simp] theorem State.setLane_axes (s : State) (n : Nat) (x : LaneSt) : (s.setLane n x).axes = s.axes := rfl
@[simp] theorem State.setLane_loops (s : State) (n : Nat) (x : LaneSt) : (s.setLane n x).loops = s.loops := rfl
@[simp] theorem State.setLane_io (s : State) (n : Nat) (x : LaneSt) : (s.setLane n x).io = s.io := rfl
@[simp] theorem State.setLane_dramSt (s : State) (n : Nat) (x : LaneSt) : (s.setLane n x).dramSt = s.dramSt := rfl
@[simp] theorem State.setLane_str (s : State) (n : Nat) (x : LaneSt) : (s.setLane n x).str = s.str := rfl
@[simp] theorem State.setLane_pwr (s : State) (n : Nat) (x : LaneSt) : (s.setLane n x).pwr = s.pwr := rfl
@[simp] theorem State.setLane_cic (s : State) (n : Nat) (x : LaneSt) : (s.setLane n x).cic = s.cic := rfl
@[simp] theorem State.setLane_obj (s : State) (n : Nat) (x : LaneSt) (j : Nat) : (s.setLane n x).obj j = s.obj j := rfl
@[simp] theorem State.setLane_objN (s : State) (n : Nat) (x : LaneSt) (j : Nat) : (s.setLane n x).objN j = s.objN j := rfl
@[simp] theorem State.setLane_objBit (s : State) (n : Nat) (x : LaneSt) (j m : Nat) : (s.setLane n x).objBit j m = s.objBit j m := rfl
@[simp] theorem State.setLane_ready (s : State) (n : Nat) (x : LaneSt) (p : Nat) : (s.setLane n x).ready p = s.ready p := rfl
@[simp] theorem State.setLane_now (s : State) (n : Nat) (x : LaneSt) : (s.setLane n x).now = s.now := rfl

/-! ### setAx -/

@[simp] theorem State.setAx_pending (s : State) (x : Nat) (f : AxisSt → AxisSt) : (s.setAx x f).pending = s.pending := rfl
@[simp] theorem State.setAx_objs (s : State) (x : Nat) (f : AxisSt → AxisSt) : (s.setAx x f).objs = s.objs := rfl
@[simp] theorem State.setAx_blobs (s : State) (x : Nat) (f : AxisSt → AxisSt) : (s.setAx x f).blobs = s.blobs := rfl
@[simp] theorem State.setAx_out (s : State) (x : Nat) (f : AxisSt → AxisSt) : (s.setAx x f).out = s.out := rfl
@[simp] theorem State.setAx_free (s : State) (x : Nat) (f : AxisSt → AxisSt) : (s.setAx x f).free = s.free := rfl
@[simp] theorem State.setAx_hq (s : State) (x : Nat) (f : AxisSt → AxisSt) : (s.setAx x f).hq = s.hq := rfl
@[simp] theorem State.setAx_time (s : State) (x : Nat) (f : AxisSt → AxisSt) : (s.setAx x f).time = s.time := rfl
@[simp] theorem State.setAx_halo (s : State) (x : Nat) (f : AxisSt → AxisSt) : (s.setAx x f).halo = s.halo := rfl
@[simp] theorem State.setAx_jnl (s : State) (x : Nat) (f : AxisSt → AxisSt) : (s.setAx x f).jnl = s.jnl := rfl
@[simp] theorem State.setAx_toa (s : State) (x : Nat) (f : AxisSt → AxisSt) : (s.setAx x f).toa = s.toa := rfl
@[simp] theorem State.setAx_scarab (s : State) (x : Nat) (f : AxisSt → AxisSt) : (s.setAx x f).scarab = s.scarab := rfl
@[simp] theorem State.setAx_web (s : State) (x : Nat) (f : AxisSt → AxisSt) : (s.setAx x f).web = s.web := rfl
@[simp] theorem State.setAx_ffy (s : State) (x : Nat) (f : AxisSt → AxisSt) : (s.setAx x f).ffy = s.ffy := rfl
@[simp] theorem State.setAx_lcw (s : State) (x : Nat) (f : AxisSt → AxisSt) : (s.setAx x f).lcw = s.lcw := rfl
@[simp] theorem State.setAx_heads (s : State) (x : Nat) (f : AxisSt → AxisSt) : (s.setAx x f).heads = s.heads := rfl
@[simp] theorem State.setAx_headSides (s : State) (x : Nat) (f : AxisSt → AxisSt) : (s.setAx x f).headSides = s.headSides := rfl
@[simp] theorem State.setAx_lanes (s : State) (x : Nat) (f : AxisSt → AxisSt) : (s.setAx x f).lanes = s.lanes := rfl
@[simp] theorem State.setAx_cams (s : State) (x : Nat) (f : AxisSt → AxisSt) : (s.setAx x f).cams = s.cams := rfl
@[simp] theorem State.setAx_nim (s : State) (x : Nat) (f : AxisSt → AxisSt) : (s.setAx x f).nim = s.nim := rfl
@[simp] theorem State.setAx_cal (s : State) (x : Nat) (f : AxisSt → AxisSt) : (s.setAx x f).cal = s.cal := rfl
@[simp] theorem State.setAx_dram (s : State) (x : Nat) (f : AxisSt → AxisSt) : (s.setAx x f).dram = s.dram := rfl
@[simp] theorem State.setAx_twin (s : State) (x : Nat) (f : AxisSt → AxisSt) : (s.setAx x f).twin = s.twin := rfl
@[simp] theorem State.setAx_loops (s : State) (x : Nat) (f : AxisSt → AxisSt) : (s.setAx x f).loops = s.loops := rfl
@[simp] theorem State.setAx_io (s : State) (x : Nat) (f : AxisSt → AxisSt) : (s.setAx x f).io = s.io := rfl
@[simp] theorem State.setAx_dramSt (s : State) (x : Nat) (f : AxisSt → AxisSt) : (s.setAx x f).dramSt = s.dramSt := rfl
@[simp] theorem State.setAx_str (s : State) (x : Nat) (f : AxisSt → AxisSt) : (s.setAx x f).str = s.str := rfl
@[simp] theorem State.setAx_pwr (s : State) (x : Nat) (f : AxisSt → AxisSt) : (s.setAx x f).pwr = s.pwr := rfl
@[simp] theorem State.setAx_cic (s : State) (x : Nat) (f : AxisSt → AxisSt) : (s.setAx x f).cic = s.cic := rfl
@[simp] theorem State.setAx_obj (s : State) (x : Nat) (f : AxisSt → AxisSt) (j : Nat) : (s.setAx x f).obj j = s.obj j := rfl
@[simp] theorem State.setAx_objN (s : State) (x : Nat) (f : AxisSt → AxisSt) (j : Nat) : (s.setAx x f).objN j = s.objN j := rfl
@[simp] theorem State.setAx_objBit (s : State) (x : Nat) (f : AxisSt → AxisSt) (j m : Nat) : (s.setAx x f).objBit j m = s.objBit j m := rfl
@[simp] theorem State.setAx_ready (s : State) (x : Nat) (f : AxisSt → AxisSt) (p : Nat) : (s.setAx x f).ready p = s.ready p := rfl
@[simp] theorem State.setAx_now (s : State) (x : Nat) (f : AxisSt → AxisSt) : (s.setAx x f).now = s.now := rfl

/-! ### setCalBar -/

@[simp] theorem State.setCalBar_pending (s : State) (b : Nat) (x : CalBar) : (s.setCalBar b x).pending = s.pending := rfl
@[simp] theorem State.setCalBar_objs (s : State) (b : Nat) (x : CalBar) : (s.setCalBar b x).objs = s.objs := rfl
@[simp] theorem State.setCalBar_blobs (s : State) (b : Nat) (x : CalBar) : (s.setCalBar b x).blobs = s.blobs := rfl
@[simp] theorem State.setCalBar_out (s : State) (b : Nat) (x : CalBar) : (s.setCalBar b x).out = s.out := rfl
@[simp] theorem State.setCalBar_free (s : State) (b : Nat) (x : CalBar) : (s.setCalBar b x).free = s.free := rfl
@[simp] theorem State.setCalBar_hq (s : State) (b : Nat) (x : CalBar) : (s.setCalBar b x).hq = s.hq := rfl
@[simp] theorem State.setCalBar_time (s : State) (b : Nat) (x : CalBar) : (s.setCalBar b x).time = s.time := rfl
@[simp] theorem State.setCalBar_halo (s : State) (b : Nat) (x : CalBar) : (s.setCalBar b x).halo = s.halo := rfl
@[simp] theorem State.setCalBar_jnl (s : State) (b : Nat) (x : CalBar) : (s.setCalBar b x).jnl = s.jnl := rfl
@[simp] theorem State.setCalBar_toa (s : State) (b : Nat) (x : CalBar) : (s.setCalBar b x).toa = s.toa := rfl
@[simp] theorem State.setCalBar_scarab (s : State) (b : Nat) (x : CalBar) : (s.setCalBar b x).scarab = s.scarab := rfl
@[simp] theorem State.setCalBar_web (s : State) (b : Nat) (x : CalBar) : (s.setCalBar b x).web = s.web := rfl
@[simp] theorem State.setCalBar_ffy (s : State) (b : Nat) (x : CalBar) : (s.setCalBar b x).ffy = s.ffy := rfl
@[simp] theorem State.setCalBar_lcw (s : State) (b : Nat) (x : CalBar) : (s.setCalBar b x).lcw = s.lcw := rfl
@[simp] theorem State.setCalBar_heads (s : State) (b : Nat) (x : CalBar) : (s.setCalBar b x).heads = s.heads := rfl
@[simp] theorem State.setCalBar_headSides (s : State) (b : Nat) (x : CalBar) : (s.setCalBar b x).headSides = s.headSides := rfl
@[simp] theorem State.setCalBar_lanes (s : State) (b : Nat) (x : CalBar) : (s.setCalBar b x).lanes = s.lanes := rfl
@[simp] theorem State.setCalBar_cams (s : State) (b : Nat) (x : CalBar) : (s.setCalBar b x).cams = s.cams := rfl
@[simp] theorem State.setCalBar_nim (s : State) (b : Nat) (x : CalBar) : (s.setCalBar b x).nim = s.nim := rfl
@[simp] theorem State.setCalBar_dram (s : State) (b : Nat) (x : CalBar) : (s.setCalBar b x).dram = s.dram := rfl
@[simp] theorem State.setCalBar_twin (s : State) (b : Nat) (x : CalBar) : (s.setCalBar b x).twin = s.twin := rfl
@[simp] theorem State.setCalBar_axes (s : State) (b : Nat) (x : CalBar) : (s.setCalBar b x).axes = s.axes := rfl
@[simp] theorem State.setCalBar_loops (s : State) (b : Nat) (x : CalBar) : (s.setCalBar b x).loops = s.loops := rfl
@[simp] theorem State.setCalBar_io (s : State) (b : Nat) (x : CalBar) : (s.setCalBar b x).io = s.io := rfl
@[simp] theorem State.setCalBar_dramSt (s : State) (b : Nat) (x : CalBar) : (s.setCalBar b x).dramSt = s.dramSt := rfl
@[simp] theorem State.setCalBar_str (s : State) (b : Nat) (x : CalBar) : (s.setCalBar b x).str = s.str := rfl
@[simp] theorem State.setCalBar_pwr (s : State) (b : Nat) (x : CalBar) : (s.setCalBar b x).pwr = s.pwr := rfl
@[simp] theorem State.setCalBar_cic (s : State) (b : Nat) (x : CalBar) : (s.setCalBar b x).cic = s.cic := rfl
@[simp] theorem State.setCalBar_obj (s : State) (b : Nat) (x : CalBar) (j : Nat) : (s.setCalBar b x).obj j = s.obj j := rfl
@[simp] theorem State.setCalBar_objN (s : State) (b : Nat) (x : CalBar) (j : Nat) : (s.setCalBar b x).objN j = s.objN j := rfl
@[simp] theorem State.setCalBar_objBit (s : State) (b : Nat) (x : CalBar) (j m : Nat) : (s.setCalBar b x).objBit j m = s.objBit j m := rfl
@[simp] theorem State.setCalBar_ready (s : State) (b : Nat) (x : CalBar) (p : Nat) : (s.setCalBar b x).ready p = s.ready p := rfl
@[simp] theorem State.setCalBar_now (s : State) (b : Nat) (x : CalBar) : (s.setCalBar b x).now = s.now := rfl

/-! ### setCam -/

@[simp] theorem State.setCam_pending (s : State) (c : Nat) (x : Cam) : (s.setCam c x).pending = s.pending := rfl
@[simp] theorem State.setCam_objs (s : State) (c : Nat) (x : Cam) : (s.setCam c x).objs = s.objs := rfl
@[simp] theorem State.setCam_blobs (s : State) (c : Nat) (x : Cam) : (s.setCam c x).blobs = s.blobs := rfl
@[simp] theorem State.setCam_out (s : State) (c : Nat) (x : Cam) : (s.setCam c x).out = s.out := rfl
@[simp] theorem State.setCam_free (s : State) (c : Nat) (x : Cam) : (s.setCam c x).free = s.free := rfl
@[simp] theorem State.setCam_hq (s : State) (c : Nat) (x : Cam) : (s.setCam c x).hq = s.hq := rfl
@[simp] theorem State.setCam_time (s : State) (c : Nat) (x : Cam) : (s.setCam c x).time = s.time := rfl
@[simp] theorem State.setCam_halo (s : State) (c : Nat) (x : Cam) : (s.setCam c x).halo = s.halo := rfl
@[simp] theorem State.setCam_jnl (s : State) (c : Nat) (x : Cam) : (s.setCam c x).jnl = s.jnl := rfl
@[simp] theorem State.setCam_toa (s : State) (c : Nat) (x : Cam) : (s.setCam c x).toa = s.toa := rfl
@[simp] theorem State.setCam_scarab (s : State) (c : Nat) (x : Cam) : (s.setCam c x).scarab = s.scarab := rfl
@[simp] theorem State.setCam_web (s : State) (c : Nat) (x : Cam) : (s.setCam c x).web = s.web := rfl
@[simp] theorem State.setCam_ffy (s : State) (c : Nat) (x : Cam) : (s.setCam c x).ffy = s.ffy := rfl
@[simp] theorem State.setCam_lcw (s : State) (c : Nat) (x : Cam) : (s.setCam c x).lcw = s.lcw := rfl
@[simp] theorem State.setCam_heads (s : State) (c : Nat) (x : Cam) : (s.setCam c x).heads = s.heads := rfl
@[simp] theorem State.setCam_headSides (s : State) (c : Nat) (x : Cam) : (s.setCam c x).headSides = s.headSides := rfl
@[simp] theorem State.setCam_lanes (s : State) (c : Nat) (x : Cam) : (s.setCam c x).lanes = s.lanes := rfl
@[simp] theorem State.setCam_nim (s : State) (c : Nat) (x : Cam) : (s.setCam c x).nim = s.nim := rfl
@[simp] theorem State.setCam_cal (s : State) (c : Nat) (x : Cam) : (s.setCam c x).cal = s.cal := rfl
@[simp] theorem State.setCam_dram (s : State) (c : Nat) (x : Cam) : (s.setCam c x).dram = s.dram := rfl
@[simp] theorem State.setCam_twin (s : State) (c : Nat) (x : Cam) : (s.setCam c x).twin = s.twin := rfl
@[simp] theorem State.setCam_axes (s : State) (c : Nat) (x : Cam) : (s.setCam c x).axes = s.axes := rfl
@[simp] theorem State.setCam_loops (s : State) (c : Nat) (x : Cam) : (s.setCam c x).loops = s.loops := rfl
@[simp] theorem State.setCam_io (s : State) (c : Nat) (x : Cam) : (s.setCam c x).io = s.io := rfl
@[simp] theorem State.setCam_dramSt (s : State) (c : Nat) (x : Cam) : (s.setCam c x).dramSt = s.dramSt := rfl
@[simp] theorem State.setCam_str (s : State) (c : Nat) (x : Cam) : (s.setCam c x).str = s.str := rfl
@[simp] theorem State.setCam_pwr (s : State) (c : Nat) (x : Cam) : (s.setCam c x).pwr = s.pwr := rfl
@[simp] theorem State.setCam_cic (s : State) (c : Nat) (x : Cam) : (s.setCam c x).cic = s.cic := rfl
@[simp] theorem State.setCam_obj (s : State) (c : Nat) (x : Cam) (j : Nat) : (s.setCam c x).obj j = s.obj j := rfl
@[simp] theorem State.setCam_objN (s : State) (c : Nat) (x : Cam) (j : Nat) : (s.setCam c x).objN j = s.objN j := rfl
@[simp] theorem State.setCam_objBit (s : State) (c : Nat) (x : Cam) (j m : Nat) : (s.setCam c x).objBit j m = s.objBit j m := rfl
@[simp] theorem State.setCam_ready (s : State) (c : Nat) (x : Cam) (p : Nat) : (s.setCam c x).ready p = s.ready p := rfl
@[simp] theorem State.setCam_now (s : State) (c : Nat) (x : Cam) : (s.setCam c x).now = s.now := rfl

/-! ### setFaults -/

@[simp] theorem State.setFaults_pending (s : State) (l : List Flt) : (s.setFaults l).pending = s.pending := rfl
@[simp] theorem State.setFaults_objs (s : State) (l : List Flt) : (s.setFaults l).objs = s.objs := rfl
@[simp] theorem State.setFaults_blobs (s : State) (l : List Flt) : (s.setFaults l).blobs = s.blobs := rfl
@[simp] theorem State.setFaults_out (s : State) (l : List Flt) : (s.setFaults l).out = s.out := rfl
@[simp] theorem State.setFaults_free (s : State) (l : List Flt) : (s.setFaults l).free = s.free := rfl
@[simp] theorem State.setFaults_hq (s : State) (l : List Flt) : (s.setFaults l).hq = s.hq := rfl
@[simp] theorem State.setFaults_time (s : State) (l : List Flt) : (s.setFaults l).time = s.time := rfl
@[simp] theorem State.setFaults_jnl (s : State) (l : List Flt) : (s.setFaults l).jnl = s.jnl := rfl
@[simp] theorem State.setFaults_toa (s : State) (l : List Flt) : (s.setFaults l).toa = s.toa := rfl
@[simp] theorem State.setFaults_scarab (s : State) (l : List Flt) : (s.setFaults l).scarab = s.scarab := rfl
@[simp] theorem State.setFaults_web (s : State) (l : List Flt) : (s.setFaults l).web = s.web := rfl
@[simp] theorem State.setFaults_ffy (s : State) (l : List Flt) : (s.setFaults l).ffy = s.ffy := rfl
@[simp] theorem State.setFaults_lcw (s : State) (l : List Flt) : (s.setFaults l).lcw = s.lcw := rfl
@[simp] theorem State.setFaults_heads (s : State) (l : List Flt) : (s.setFaults l).heads = s.heads := rfl
@[simp] theorem State.setFaults_headSides (s : State) (l : List Flt) : (s.setFaults l).headSides = s.headSides := rfl
@[simp] theorem State.setFaults_lanes (s : State) (l : List Flt) : (s.setFaults l).lanes = s.lanes := rfl
@[simp] theorem State.setFaults_cams (s : State) (l : List Flt) : (s.setFaults l).cams = s.cams := rfl
@[simp] theorem State.setFaults_nim (s : State) (l : List Flt) : (s.setFaults l).nim = s.nim := rfl
@[simp] theorem State.setFaults_cal (s : State) (l : List Flt) : (s.setFaults l).cal = s.cal := rfl
@[simp] theorem State.setFaults_dram (s : State) (l : List Flt) : (s.setFaults l).dram = s.dram := rfl
@[simp] theorem State.setFaults_twin (s : State) (l : List Flt) : (s.setFaults l).twin = s.twin := rfl
@[simp] theorem State.setFaults_axes (s : State) (l : List Flt) : (s.setFaults l).axes = s.axes := rfl
@[simp] theorem State.setFaults_loops (s : State) (l : List Flt) : (s.setFaults l).loops = s.loops := rfl
@[simp] theorem State.setFaults_io (s : State) (l : List Flt) : (s.setFaults l).io = s.io := rfl
@[simp] theorem State.setFaults_dramSt (s : State) (l : List Flt) : (s.setFaults l).dramSt = s.dramSt := rfl
@[simp] theorem State.setFaults_str (s : State) (l : List Flt) : (s.setFaults l).str = s.str := rfl
@[simp] theorem State.setFaults_pwr (s : State) (l : List Flt) : (s.setFaults l).pwr = s.pwr := rfl
@[simp] theorem State.setFaults_cic (s : State) (l : List Flt) : (s.setFaults l).cic = s.cic := rfl
@[simp] theorem State.setFaults_obj (s : State) (l : List Flt) (j : Nat) : (s.setFaults l).obj j = s.obj j := rfl
@[simp] theorem State.setFaults_objN (s : State) (l : List Flt) (j : Nat) : (s.setFaults l).objN j = s.objN j := rfl
@[simp] theorem State.setFaults_objBit (s : State) (l : List Flt) (j m : Nat) : (s.setFaults l).objBit j m = s.objBit j m := rfl
@[simp] theorem State.setFaults_ready (s : State) (l : List Flt) (p : Nat) : (s.setFaults l).ready p = s.ready p := rfl
@[simp] theorem State.setFaults_now (s : State) (l : List Flt) : (s.setFaults l).now = s.now := rfl

/-! ### setLoop -/

@[simp] theorem State.setLoop_pending (s : State) (l : Nat) (f : LoopSt → LoopSt) : (s.setLoop l f).pending = s.pending := rfl
@[simp] theorem State.setLoop_objs (s : State) (l : Nat) (f : LoopSt → LoopSt) : (s.setLoop l f).objs = s.objs := rfl
@[simp] theorem State.setLoop_blobs (s : State) (l : Nat) (f : LoopSt → LoopSt) : (s.setLoop l f).blobs = s.blobs := rfl
@[simp] theorem State.setLoop_out (s : State) (l : Nat) (f : LoopSt → LoopSt) : (s.setLoop l f).out = s.out := rfl
@[simp] theorem State.setLoop_free (s : State) (l : Nat) (f : LoopSt → LoopSt) : (s.setLoop l f).free = s.free := rfl
@[simp] theorem State.setLoop_hq (s : State) (l : Nat) (f : LoopSt → LoopSt) : (s.setLoop l f).hq = s.hq := rfl
@[simp] theorem State.setLoop_time (s : State) (l : Nat) (f : LoopSt → LoopSt) : (s.setLoop l f).time = s.time := rfl
@[simp] theorem State.setLoop_halo (s : State) (l : Nat) (f : LoopSt → LoopSt) : (s.setLoop l f).halo = s.halo := rfl
@[simp] theorem State.setLoop_jnl (s : State) (l : Nat) (f : LoopSt → LoopSt) : (s.setLoop l f).jnl = s.jnl := rfl
@[simp] theorem State.setLoop_toa (s : State) (l : Nat) (f : LoopSt → LoopSt) : (s.setLoop l f).toa = s.toa := rfl
@[simp] theorem State.setLoop_scarab (s : State) (l : Nat) (f : LoopSt → LoopSt) : (s.setLoop l f).scarab = s.scarab := rfl
@[simp] theorem State.setLoop_web (s : State) (l : Nat) (f : LoopSt → LoopSt) : (s.setLoop l f).web = s.web := rfl
@[simp] theorem State.setLoop_ffy (s : State) (l : Nat) (f : LoopSt → LoopSt) : (s.setLoop l f).ffy = s.ffy := rfl
@[simp] theorem State.setLoop_lcw (s : State) (l : Nat) (f : LoopSt → LoopSt) : (s.setLoop l f).lcw = s.lcw := rfl
@[simp] theorem State.setLoop_heads (s : State) (l : Nat) (f : LoopSt → LoopSt) : (s.setLoop l f).heads = s.heads := rfl
@[simp] theorem State.setLoop_headSides (s : State) (l : Nat) (f : LoopSt → LoopSt) : (s.setLoop l f).headSides = s.headSides := rfl
@[simp] theorem State.setLoop_lanes (s : State) (l : Nat) (f : LoopSt → LoopSt) : (s.setLoop l f).lanes = s.lanes := rfl
@[simp] theorem State.setLoop_cams (s : State) (l : Nat) (f : LoopSt → LoopSt) : (s.setLoop l f).cams = s.cams := rfl
@[simp] theorem State.setLoop_nim (s : State) (l : Nat) (f : LoopSt → LoopSt) : (s.setLoop l f).nim = s.nim := rfl
@[simp] theorem State.setLoop_cal (s : State) (l : Nat) (f : LoopSt → LoopSt) : (s.setLoop l f).cal = s.cal := rfl
@[simp] theorem State.setLoop_dram (s : State) (l : Nat) (f : LoopSt → LoopSt) : (s.setLoop l f).dram = s.dram := rfl
@[simp] theorem State.setLoop_twin (s : State) (l : Nat) (f : LoopSt → LoopSt) : (s.setLoop l f).twin = s.twin := rfl
@[simp] theorem State.setLoop_axes (s : State) (l : Nat) (f : LoopSt → LoopSt) : (s.setLoop l f).axes = s.axes := rfl
@[simp] theorem State.setLoop_io (s : State) (l : Nat) (f : LoopSt → LoopSt) : (s.setLoop l f).io = s.io := rfl
@[simp] theorem State.setLoop_dramSt (s : State) (l : Nat) (f : LoopSt → LoopSt) : (s.setLoop l f).dramSt = s.dramSt := rfl
@[simp] theorem State.setLoop_str (s : State) (l : Nat) (f : LoopSt → LoopSt) : (s.setLoop l f).str = s.str := rfl
@[simp] theorem State.setLoop_pwr (s : State) (l : Nat) (f : LoopSt → LoopSt) : (s.setLoop l f).pwr = s.pwr := rfl
@[simp] theorem State.setLoop_cic (s : State) (l : Nat) (f : LoopSt → LoopSt) : (s.setLoop l f).cic = s.cic := rfl
@[simp] theorem State.setLoop_obj (s : State) (l : Nat) (f : LoopSt → LoopSt) (j : Nat) : (s.setLoop l f).obj j = s.obj j := rfl
@[simp] theorem State.setLoop_objN (s : State) (l : Nat) (f : LoopSt → LoopSt) (j : Nat) : (s.setLoop l f).objN j = s.objN j := rfl
@[simp] theorem State.setLoop_objBit (s : State) (l : Nat) (f : LoopSt → LoopSt) (j m : Nat) : (s.setLoop l f).objBit j m = s.objBit j m := rfl
@[simp] theorem State.setLoop_ready (s : State) (l : Nat) (f : LoopSt → LoopSt) (p : Nat) : (s.setLoop l f).ready p = s.ready p := rfl
@[simp] theorem State.setLoop_now (s : State) (l : Nat) (f : LoopSt → LoopSt) : (s.setLoop l f).now = s.now := rfl

/-! ### setPwm -/

@[simp] theorem State.setPwm_pending (s : State) (k : Nat) (w : Pwm) : (s.setPwm k w).pending = s.pending := rfl
@[simp] theorem State.setPwm_objs (s : State) (k : Nat) (w : Pwm) : (s.setPwm k w).objs = s.objs := rfl
@[simp] theorem State.setPwm_blobs (s : State) (k : Nat) (w : Pwm) : (s.setPwm k w).blobs = s.blobs := rfl
@[simp] theorem State.setPwm_out (s : State) (k : Nat) (w : Pwm) : (s.setPwm k w).out = s.out := rfl
@[simp] theorem State.setPwm_free (s : State) (k : Nat) (w : Pwm) : (s.setPwm k w).free = s.free := rfl
@[simp] theorem State.setPwm_hq (s : State) (k : Nat) (w : Pwm) : (s.setPwm k w).hq = s.hq := rfl
@[simp] theorem State.setPwm_time (s : State) (k : Nat) (w : Pwm) : (s.setPwm k w).time = s.time := rfl
@[simp] theorem State.setPwm_halo (s : State) (k : Nat) (w : Pwm) : (s.setPwm k w).halo = s.halo := rfl
@[simp] theorem State.setPwm_jnl (s : State) (k : Nat) (w : Pwm) : (s.setPwm k w).jnl = s.jnl := rfl
@[simp] theorem State.setPwm_toa (s : State) (k : Nat) (w : Pwm) : (s.setPwm k w).toa = s.toa := rfl
@[simp] theorem State.setPwm_scarab (s : State) (k : Nat) (w : Pwm) : (s.setPwm k w).scarab = s.scarab := rfl
@[simp] theorem State.setPwm_web (s : State) (k : Nat) (w : Pwm) : (s.setPwm k w).web = s.web := rfl
@[simp] theorem State.setPwm_ffy (s : State) (k : Nat) (w : Pwm) : (s.setPwm k w).ffy = s.ffy := rfl
@[simp] theorem State.setPwm_lcw (s : State) (k : Nat) (w : Pwm) : (s.setPwm k w).lcw = s.lcw := rfl
@[simp] theorem State.setPwm_heads (s : State) (k : Nat) (w : Pwm) : (s.setPwm k w).heads = s.heads := rfl
@[simp] theorem State.setPwm_headSides (s : State) (k : Nat) (w : Pwm) : (s.setPwm k w).headSides = s.headSides := rfl
@[simp] theorem State.setPwm_lanes (s : State) (k : Nat) (w : Pwm) : (s.setPwm k w).lanes = s.lanes := rfl
@[simp] theorem State.setPwm_cams (s : State) (k : Nat) (w : Pwm) : (s.setPwm k w).cams = s.cams := rfl
@[simp] theorem State.setPwm_nim (s : State) (k : Nat) (w : Pwm) : (s.setPwm k w).nim = s.nim := rfl
@[simp] theorem State.setPwm_cal (s : State) (k : Nat) (w : Pwm) : (s.setPwm k w).cal = s.cal := rfl
@[simp] theorem State.setPwm_dram (s : State) (k : Nat) (w : Pwm) : (s.setPwm k w).dram = s.dram := rfl
@[simp] theorem State.setPwm_twin (s : State) (k : Nat) (w : Pwm) : (s.setPwm k w).twin = s.twin := rfl
@[simp] theorem State.setPwm_axes (s : State) (k : Nat) (w : Pwm) : (s.setPwm k w).axes = s.axes := rfl
@[simp] theorem State.setPwm_loops (s : State) (k : Nat) (w : Pwm) : (s.setPwm k w).loops = s.loops := rfl
@[simp] theorem State.setPwm_dramSt (s : State) (k : Nat) (w : Pwm) : (s.setPwm k w).dramSt = s.dramSt := rfl
@[simp] theorem State.setPwm_str (s : State) (k : Nat) (w : Pwm) : (s.setPwm k w).str = s.str := rfl
@[simp] theorem State.setPwm_pwr (s : State) (k : Nat) (w : Pwm) : (s.setPwm k w).pwr = s.pwr := rfl
@[simp] theorem State.setPwm_cic (s : State) (k : Nat) (w : Pwm) : (s.setPwm k w).cic = s.cic := rfl
@[simp] theorem State.setPwm_obj (s : State) (k : Nat) (w : Pwm) (j : Nat) : (s.setPwm k w).obj j = s.obj j := rfl
@[simp] theorem State.setPwm_objN (s : State) (k : Nat) (w : Pwm) (j : Nat) : (s.setPwm k w).objN j = s.objN j := rfl
@[simp] theorem State.setPwm_objBit (s : State) (k : Nat) (w : Pwm) (j m : Nat) : (s.setPwm k w).objBit j m = s.objBit j m := rfl
@[simp] theorem State.setPwm_ready (s : State) (k : Nat) (w : Pwm) (p : Nat) : (s.setPwm k w).ready p = s.ready p := rfl
@[simp] theorem State.setPwm_now (s : State) (k : Nat) (w : Pwm) : (s.setPwm k w).now = s.now := rfl

/-! ### mapPage -/

@[simp] theorem State.mapPage_pending (s : State) (id : Nat) (f : NimPage → NimPage) : (s.mapPage id f).pending = s.pending := rfl
@[simp] theorem State.mapPage_objs (s : State) (id : Nat) (f : NimPage → NimPage) : (s.mapPage id f).objs = s.objs := rfl
@[simp] theorem State.mapPage_blobs (s : State) (id : Nat) (f : NimPage → NimPage) : (s.mapPage id f).blobs = s.blobs := rfl
@[simp] theorem State.mapPage_out (s : State) (id : Nat) (f : NimPage → NimPage) : (s.mapPage id f).out = s.out := rfl
@[simp] theorem State.mapPage_free (s : State) (id : Nat) (f : NimPage → NimPage) : (s.mapPage id f).free = s.free := rfl
@[simp] theorem State.mapPage_hq (s : State) (id : Nat) (f : NimPage → NimPage) : (s.mapPage id f).hq = s.hq := rfl
@[simp] theorem State.mapPage_time (s : State) (id : Nat) (f : NimPage → NimPage) : (s.mapPage id f).time = s.time := rfl
@[simp] theorem State.mapPage_halo (s : State) (id : Nat) (f : NimPage → NimPage) : (s.mapPage id f).halo = s.halo := rfl
@[simp] theorem State.mapPage_jnl (s : State) (id : Nat) (f : NimPage → NimPage) : (s.mapPage id f).jnl = s.jnl := rfl
@[simp] theorem State.mapPage_toa (s : State) (id : Nat) (f : NimPage → NimPage) : (s.mapPage id f).toa = s.toa := rfl
@[simp] theorem State.mapPage_scarab (s : State) (id : Nat) (f : NimPage → NimPage) : (s.mapPage id f).scarab = s.scarab := rfl
@[simp] theorem State.mapPage_web (s : State) (id : Nat) (f : NimPage → NimPage) : (s.mapPage id f).web = s.web := rfl
@[simp] theorem State.mapPage_ffy (s : State) (id : Nat) (f : NimPage → NimPage) : (s.mapPage id f).ffy = s.ffy := rfl
@[simp] theorem State.mapPage_lcw (s : State) (id : Nat) (f : NimPage → NimPage) : (s.mapPage id f).lcw = s.lcw := rfl
@[simp] theorem State.mapPage_heads (s : State) (id : Nat) (f : NimPage → NimPage) : (s.mapPage id f).heads = s.heads := rfl
@[simp] theorem State.mapPage_headSides (s : State) (id : Nat) (f : NimPage → NimPage) : (s.mapPage id f).headSides = s.headSides := rfl
@[simp] theorem State.mapPage_lanes (s : State) (id : Nat) (f : NimPage → NimPage) : (s.mapPage id f).lanes = s.lanes := rfl
@[simp] theorem State.mapPage_cams (s : State) (id : Nat) (f : NimPage → NimPage) : (s.mapPage id f).cams = s.cams := rfl
@[simp] theorem State.mapPage_cal (s : State) (id : Nat) (f : NimPage → NimPage) : (s.mapPage id f).cal = s.cal := rfl
@[simp] theorem State.mapPage_dram (s : State) (id : Nat) (f : NimPage → NimPage) : (s.mapPage id f).dram = s.dram := rfl
@[simp] theorem State.mapPage_twin (s : State) (id : Nat) (f : NimPage → NimPage) : (s.mapPage id f).twin = s.twin := rfl
@[simp] theorem State.mapPage_axes (s : State) (id : Nat) (f : NimPage → NimPage) : (s.mapPage id f).axes = s.axes := rfl
@[simp] theorem State.mapPage_loops (s : State) (id : Nat) (f : NimPage → NimPage) : (s.mapPage id f).loops = s.loops := rfl
@[simp] theorem State.mapPage_io (s : State) (id : Nat) (f : NimPage → NimPage) : (s.mapPage id f).io = s.io := rfl
@[simp] theorem State.mapPage_dramSt (s : State) (id : Nat) (f : NimPage → NimPage) : (s.mapPage id f).dramSt = s.dramSt := rfl
@[simp] theorem State.mapPage_str (s : State) (id : Nat) (f : NimPage → NimPage) : (s.mapPage id f).str = s.str := rfl
@[simp] theorem State.mapPage_pwr (s : State) (id : Nat) (f : NimPage → NimPage) : (s.mapPage id f).pwr = s.pwr := rfl
@[simp] theorem State.mapPage_cic (s : State) (id : Nat) (f : NimPage → NimPage) : (s.mapPage id f).cic = s.cic := rfl
@[simp] theorem State.mapPage_obj (s : State) (id : Nat) (f : NimPage → NimPage) (j : Nat) : (s.mapPage id f).obj j = s.obj j := rfl
@[simp] theorem State.mapPage_objN (s : State) (id : Nat) (f : NimPage → NimPage) (j : Nat) : (s.mapPage id f).objN j = s.objN j := rfl
@[simp] theorem State.mapPage_objBit (s : State) (id : Nat) (f : NimPage → NimPage) (j m : Nat) : (s.mapPage id f).objBit j m = s.objBit j m := rfl
@[simp] theorem State.mapPage_ready (s : State) (id : Nat) (f : NimPage → NimPage) (p : Nat) : (s.mapPage id f).ready p = s.ready p := rfl
@[simp] theorem State.mapPage_now (s : State) (id : Nat) (f : NimPage → NimPage) : (s.mapPage id f).now = s.now := rfl

/-! ### mapSession -/

@[simp] theorem State.mapSession_pending (s : State) (id : Nat) (f : Session → Session) : (s.mapSession id f).pending = s.pending := rfl
@[simp] theorem State.mapSession_objs (s : State) (id : Nat) (f : Session → Session) : (s.mapSession id f).objs = s.objs := rfl
@[simp] theorem State.mapSession_blobs (s : State) (id : Nat) (f : Session → Session) : (s.mapSession id f).blobs = s.blobs := rfl
@[simp] theorem State.mapSession_out (s : State) (id : Nat) (f : Session → Session) : (s.mapSession id f).out = s.out := rfl
@[simp] theorem State.mapSession_free (s : State) (id : Nat) (f : Session → Session) : (s.mapSession id f).free = s.free := rfl
@[simp] theorem State.mapSession_hq (s : State) (id : Nat) (f : Session → Session) : (s.mapSession id f).hq = s.hq := rfl
@[simp] theorem State.mapSession_time (s : State) (id : Nat) (f : Session → Session) : (s.mapSession id f).time = s.time := rfl
@[simp] theorem State.mapSession_halo (s : State) (id : Nat) (f : Session → Session) : (s.mapSession id f).halo = s.halo := rfl
@[simp] theorem State.mapSession_jnl (s : State) (id : Nat) (f : Session → Session) : (s.mapSession id f).jnl = s.jnl := rfl
@[simp] theorem State.mapSession_scarab (s : State) (id : Nat) (f : Session → Session) : (s.mapSession id f).scarab = s.scarab := rfl
@[simp] theorem State.mapSession_web (s : State) (id : Nat) (f : Session → Session) : (s.mapSession id f).web = s.web := rfl
@[simp] theorem State.mapSession_ffy (s : State) (id : Nat) (f : Session → Session) : (s.mapSession id f).ffy = s.ffy := rfl
@[simp] theorem State.mapSession_lcw (s : State) (id : Nat) (f : Session → Session) : (s.mapSession id f).lcw = s.lcw := rfl
@[simp] theorem State.mapSession_heads (s : State) (id : Nat) (f : Session → Session) : (s.mapSession id f).heads = s.heads := rfl
@[simp] theorem State.mapSession_headSides (s : State) (id : Nat) (f : Session → Session) : (s.mapSession id f).headSides = s.headSides := rfl
@[simp] theorem State.mapSession_lanes (s : State) (id : Nat) (f : Session → Session) : (s.mapSession id f).lanes = s.lanes := rfl
@[simp] theorem State.mapSession_cams (s : State) (id : Nat) (f : Session → Session) : (s.mapSession id f).cams = s.cams := rfl
@[simp] theorem State.mapSession_nim (s : State) (id : Nat) (f : Session → Session) : (s.mapSession id f).nim = s.nim := rfl
@[simp] theorem State.mapSession_cal (s : State) (id : Nat) (f : Session → Session) : (s.mapSession id f).cal = s.cal := rfl
@[simp] theorem State.mapSession_dram (s : State) (id : Nat) (f : Session → Session) : (s.mapSession id f).dram = s.dram := rfl
@[simp] theorem State.mapSession_twin (s : State) (id : Nat) (f : Session → Session) : (s.mapSession id f).twin = s.twin := rfl
@[simp] theorem State.mapSession_axes (s : State) (id : Nat) (f : Session → Session) : (s.mapSession id f).axes = s.axes := rfl
@[simp] theorem State.mapSession_loops (s : State) (id : Nat) (f : Session → Session) : (s.mapSession id f).loops = s.loops := rfl
@[simp] theorem State.mapSession_io (s : State) (id : Nat) (f : Session → Session) : (s.mapSession id f).io = s.io := rfl
@[simp] theorem State.mapSession_dramSt (s : State) (id : Nat) (f : Session → Session) : (s.mapSession id f).dramSt = s.dramSt := rfl
@[simp] theorem State.mapSession_str (s : State) (id : Nat) (f : Session → Session) : (s.mapSession id f).str = s.str := rfl
@[simp] theorem State.mapSession_pwr (s : State) (id : Nat) (f : Session → Session) : (s.mapSession id f).pwr = s.pwr := rfl
@[simp] theorem State.mapSession_cic (s : State) (id : Nat) (f : Session → Session) : (s.mapSession id f).cic = s.cic := rfl
@[simp] theorem State.mapSession_obj (s : State) (id : Nat) (f : Session → Session) (j : Nat) : (s.mapSession id f).obj j = s.obj j := rfl
@[simp] theorem State.mapSession_objN (s : State) (id : Nat) (f : Session → Session) (j : Nat) : (s.mapSession id f).objN j = s.objN j := rfl
@[simp] theorem State.mapSession_objBit (s : State) (id : Nat) (f : Session → Session) (j m : Nat) : (s.mapSession id f).objBit j m = s.objBit j m := rfl
@[simp] theorem State.mapSession_ready (s : State) (id : Nat) (f : Session → Session) (p : Nat) : (s.mapSession id f).ready p = s.ready p := rfl
@[simp] theorem State.mapSession_now (s : State) (id : Nat) (f : Session → Session) : (s.mapSession id f).now = s.now := rfl

/-! ### mapPending -/

@[simp] theorem State.mapPending_pending (s : State) (f : CommitSet → CommitSet) : (s.mapPending f).pending = s.pending := rfl
@[simp] theorem State.mapPending_objs (s : State) (f : CommitSet → CommitSet) : (s.mapPending f).objs = s.objs := rfl
@[simp] theorem State.mapPending_blobs (s : State) (f : CommitSet → CommitSet) : (s.mapPending f).blobs = s.blobs := rfl
@[simp] theorem State.mapPending_out (s : State) (f : CommitSet → CommitSet) : (s.mapPending f).out = s.out := rfl
@[simp] theorem State.mapPending_free (s : State) (f : CommitSet → CommitSet) : (s.mapPending f).free = s.free := rfl
@[simp] theorem State.mapPending_hq (s : State) (f : CommitSet → CommitSet) : (s.mapPending f).hq = s.hq := rfl
@[simp] theorem State.mapPending_time (s : State) (f : CommitSet → CommitSet) : (s.mapPending f).time = s.time := rfl
@[simp] theorem State.mapPending_halo (s : State) (f : CommitSet → CommitSet) : (s.mapPending f).halo = s.halo := rfl
@[simp] theorem State.mapPending_jnl (s : State) (f : CommitSet → CommitSet) : (s.mapPending f).jnl = s.jnl := rfl
@[simp] theorem State.mapPending_scarab (s : State) (f : CommitSet → CommitSet) : (s.mapPending f).scarab = s.scarab := rfl
@[simp] theorem State.mapPending_web (s : State) (f : CommitSet → CommitSet) : (s.mapPending f).web = s.web := rfl
@[simp] theorem State.mapPending_ffy (s : State) (f : CommitSet → CommitSet) : (s.mapPending f).ffy = s.ffy := rfl
@[simp] theorem State.mapPending_lcw (s : State) (f : CommitSet → CommitSet) : (s.mapPending f).lcw = s.lcw := rfl
@[simp] theorem State.mapPending_heads (s : State) (f : CommitSet → CommitSet) : (s.mapPending f).heads = s.heads := rfl
@[simp] theorem State.mapPending_headSides (s : State) (f : CommitSet → CommitSet) : (s.mapPending f).headSides = s.headSides := rfl
@[simp] theorem State.mapPending_lanes (s : State) (f : CommitSet → CommitSet) : (s.mapPending f).lanes = s.lanes := rfl
@[simp] theorem State.mapPending_cams (s : State) (f : CommitSet → CommitSet) : (s.mapPending f).cams = s.cams := rfl
@[simp] theorem State.mapPending_nim (s : State) (f : CommitSet → CommitSet) : (s.mapPending f).nim = s.nim := rfl
@[simp] theorem State.mapPending_cal (s : State) (f : CommitSet → CommitSet) : (s.mapPending f).cal = s.cal := rfl
@[simp] theorem State.mapPending_dram (s : State) (f : CommitSet → CommitSet) : (s.mapPending f).dram = s.dram := rfl
@[simp] theorem State.mapPending_twin (s : State) (f : CommitSet → CommitSet) : (s.mapPending f).twin = s.twin := rfl
@[simp] theorem State.mapPending_axes (s : State) (f : CommitSet → CommitSet) : (s.mapPending f).axes = s.axes := rfl
@[simp] theorem State.mapPending_loops (s : State) (f : CommitSet → CommitSet) : (s.mapPending f).loops = s.loops := rfl
@[simp] theorem State.mapPending_io (s : State) (f : CommitSet → CommitSet) : (s.mapPending f).io = s.io := rfl
@[simp] theorem State.mapPending_dramSt (s : State) (f : CommitSet → CommitSet) : (s.mapPending f).dramSt = s.dramSt := rfl
@[simp] theorem State.mapPending_str (s : State) (f : CommitSet → CommitSet) : (s.mapPending f).str = s.str := rfl
@[simp] theorem State.mapPending_pwr (s : State) (f : CommitSet → CommitSet) : (s.mapPending f).pwr = s.pwr := rfl
@[simp] theorem State.mapPending_cic (s : State) (f : CommitSet → CommitSet) : (s.mapPending f).cic = s.cic := rfl
@[simp] theorem State.mapPending_obj (s : State) (f : CommitSet → CommitSet) (j : Nat) : (s.mapPending f).obj j = s.obj j := rfl
@[simp] theorem State.mapPending_objN (s : State) (f : CommitSet → CommitSet) (j : Nat) : (s.mapPending f).objN j = s.objN j := rfl
@[simp] theorem State.mapPending_objBit (s : State) (f : CommitSet → CommitSet) (j m : Nat) : (s.mapPending f).objBit j m = s.objBit j m := rfl
@[simp] theorem State.mapPending_ready (s : State) (f : CommitSet → CommitSet) (p : Nat) : (s.mapPending f).ready p = s.ready p := rfl
@[simp] theorem State.mapPending_now (s : State) (f : CommitSet → CommitSet) : (s.mapPending f).now = s.now := rfl

/-! ### setToa -/

@[simp] theorem State.setToa_pending (s : State) (f : Toa → Toa) : (s.setToa f).pending = s.pending := rfl
@[simp] theorem State.setToa_objs (s : State) (f : Toa → Toa) : (s.setToa f).objs = s.objs := rfl
@[simp] theorem State.setToa_blobs (s : State) (f : Toa → Toa) : (s.setToa f).blobs = s.blobs := rfl
@[simp] theorem State.setToa_out (s : State) (f : Toa → Toa) : (s.setToa f).out = s.out := rfl
@[simp] theorem State.setToa_free (s : State) (f : Toa → Toa) : (s.setToa f).free = s.free := rfl
@[simp] theorem State.setToa_hq (s : State) (f : Toa → Toa) : (s.setToa f).hq = s.hq := rfl
@[simp] theorem State.setToa_time (s : State) (f : Toa → Toa) : (s.setToa f).time = s.time := rfl
@[simp] theorem State.setToa_halo (s : State) (f : Toa → Toa) : (s.setToa f).halo = s.halo := rfl
@[simp] theorem State.setToa_jnl (s : State) (f : Toa → Toa) : (s.setToa f).jnl = s.jnl := rfl
@[simp] theorem State.setToa_scarab (s : State) (f : Toa → Toa) : (s.setToa f).scarab = s.scarab := rfl
@[simp] theorem State.setToa_web (s : State) (f : Toa → Toa) : (s.setToa f).web = s.web := rfl
@[simp] theorem State.setToa_ffy (s : State) (f : Toa → Toa) : (s.setToa f).ffy = s.ffy := rfl
@[simp] theorem State.setToa_lcw (s : State) (f : Toa → Toa) : (s.setToa f).lcw = s.lcw := rfl
@[simp] theorem State.setToa_heads (s : State) (f : Toa → Toa) : (s.setToa f).heads = s.heads := rfl
@[simp] theorem State.setToa_headSides (s : State) (f : Toa → Toa) : (s.setToa f).headSides = s.headSides := rfl
@[simp] theorem State.setToa_lanes (s : State) (f : Toa → Toa) : (s.setToa f).lanes = s.lanes := rfl
@[simp] theorem State.setToa_cams (s : State) (f : Toa → Toa) : (s.setToa f).cams = s.cams := rfl
@[simp] theorem State.setToa_nim (s : State) (f : Toa → Toa) : (s.setToa f).nim = s.nim := rfl
@[simp] theorem State.setToa_cal (s : State) (f : Toa → Toa) : (s.setToa f).cal = s.cal := rfl
@[simp] theorem State.setToa_dram (s : State) (f : Toa → Toa) : (s.setToa f).dram = s.dram := rfl
@[simp] theorem State.setToa_twin (s : State) (f : Toa → Toa) : (s.setToa f).twin = s.twin := rfl
@[simp] theorem State.setToa_axes (s : State) (f : Toa → Toa) : (s.setToa f).axes = s.axes := rfl
@[simp] theorem State.setToa_loops (s : State) (f : Toa → Toa) : (s.setToa f).loops = s.loops := rfl
@[simp] theorem State.setToa_io (s : State) (f : Toa → Toa) : (s.setToa f).io = s.io := rfl
@[simp] theorem State.setToa_dramSt (s : State) (f : Toa → Toa) : (s.setToa f).dramSt = s.dramSt := rfl
@[simp] theorem State.setToa_str (s : State) (f : Toa → Toa) : (s.setToa f).str = s.str := rfl
@[simp] theorem State.setToa_pwr (s : State) (f : Toa → Toa) : (s.setToa f).pwr = s.pwr := rfl
@[simp] theorem State.setToa_cic (s : State) (f : Toa → Toa) : (s.setToa f).cic = s.cic := rfl
@[simp] theorem State.setToa_obj (s : State) (f : Toa → Toa) (j : Nat) : (s.setToa f).obj j = s.obj j := rfl
@[simp] theorem State.setToa_objN (s : State) (f : Toa → Toa) (j : Nat) : (s.setToa f).objN j = s.objN j := rfl
@[simp] theorem State.setToa_objBit (s : State) (f : Toa → Toa) (j m : Nat) : (s.setToa f).objBit j m = s.objBit j m := rfl
@[simp] theorem State.setToa_ready (s : State) (f : Toa → Toa) (p : Nat) : (s.setToa f).ready p = s.ready p := rfl
@[simp] theorem State.setToa_now (s : State) (f : Toa → Toa) : (s.setToa f).now = s.now := rfl

/-! ### setTwin -/

@[simp] theorem State.setTwin_pending (s : State) (f : Twin → Twin) : (s.setTwin f).pending = s.pending := rfl
@[simp] theorem State.setTwin_objs (s : State) (f : Twin → Twin) : (s.setTwin f).objs = s.objs := rfl
@[simp] theorem State.setTwin_blobs (s : State) (f : Twin → Twin) : (s.setTwin f).blobs = s.blobs := rfl
@[simp] theorem State.setTwin_out (s : State) (f : Twin → Twin) : (s.setTwin f).out = s.out := rfl
@[simp] theorem State.setTwin_free (s : State) (f : Twin → Twin) : (s.setTwin f).free = s.free := rfl
@[simp] theorem State.setTwin_hq (s : State) (f : Twin → Twin) : (s.setTwin f).hq = s.hq := rfl
@[simp] theorem State.setTwin_time (s : State) (f : Twin → Twin) : (s.setTwin f).time = s.time := rfl
@[simp] theorem State.setTwin_halo (s : State) (f : Twin → Twin) : (s.setTwin f).halo = s.halo := rfl
@[simp] theorem State.setTwin_jnl (s : State) (f : Twin → Twin) : (s.setTwin f).jnl = s.jnl := rfl
@[simp] theorem State.setTwin_toa (s : State) (f : Twin → Twin) : (s.setTwin f).toa = s.toa := rfl
@[simp] theorem State.setTwin_scarab (s : State) (f : Twin → Twin) : (s.setTwin f).scarab = s.scarab := rfl
@[simp] theorem State.setTwin_web (s : State) (f : Twin → Twin) : (s.setTwin f).web = s.web := rfl
@[simp] theorem State.setTwin_ffy (s : State) (f : Twin → Twin) : (s.setTwin f).ffy = s.ffy := rfl
@[simp] theorem State.setTwin_lcw (s : State) (f : Twin → Twin) : (s.setTwin f).lcw = s.lcw := rfl
@[simp] theorem State.setTwin_heads (s : State) (f : Twin → Twin) : (s.setTwin f).heads = s.heads := rfl
@[simp] theorem State.setTwin_headSides (s : State) (f : Twin → Twin) : (s.setTwin f).headSides = s.headSides := rfl
@[simp] theorem State.setTwin_lanes (s : State) (f : Twin → Twin) : (s.setTwin f).lanes = s.lanes := rfl
@[simp] theorem State.setTwin_cams (s : State) (f : Twin → Twin) : (s.setTwin f).cams = s.cams := rfl
@[simp] theorem State.setTwin_nim (s : State) (f : Twin → Twin) : (s.setTwin f).nim = s.nim := rfl
@[simp] theorem State.setTwin_cal (s : State) (f : Twin → Twin) : (s.setTwin f).cal = s.cal := rfl
@[simp] theorem State.setTwin_dram (s : State) (f : Twin → Twin) : (s.setTwin f).dram = s.dram := rfl
@[simp] theorem State.setTwin_axes (s : State) (f : Twin → Twin) : (s.setTwin f).axes = s.axes := rfl
@[simp] theorem State.setTwin_loops (s : State) (f : Twin → Twin) : (s.setTwin f).loops = s.loops := rfl
@[simp] theorem State.setTwin_io (s : State) (f : Twin → Twin) : (s.setTwin f).io = s.io := rfl
@[simp] theorem State.setTwin_dramSt (s : State) (f : Twin → Twin) : (s.setTwin f).dramSt = s.dramSt := rfl
@[simp] theorem State.setTwin_str (s : State) (f : Twin → Twin) : (s.setTwin f).str = s.str := rfl
@[simp] theorem State.setTwin_pwr (s : State) (f : Twin → Twin) : (s.setTwin f).pwr = s.pwr := rfl
@[simp] theorem State.setTwin_cic (s : State) (f : Twin → Twin) : (s.setTwin f).cic = s.cic := rfl
@[simp] theorem State.setTwin_obj (s : State) (f : Twin → Twin) (j : Nat) : (s.setTwin f).obj j = s.obj j := rfl
@[simp] theorem State.setTwin_objN (s : State) (f : Twin → Twin) (j : Nat) : (s.setTwin f).objN j = s.objN j := rfl
@[simp] theorem State.setTwin_objBit (s : State) (f : Twin → Twin) (j m : Nat) : (s.setTwin f).objBit j m = s.objBit j m := rfl
@[simp] theorem State.setTwin_ready (s : State) (f : Twin → Twin) (p : Nat) : (s.setTwin f).ready p = s.ready p := rfl
@[simp] theorem State.setTwin_now (s : State) (f : Twin → Twin) : (s.setTwin f).now = s.now := rfl

/-! ### setPwr -/

@[simp] theorem State.setPwr_pending (s : State) (f : Power → Power) : (s.setPwr f).pending = s.pending := rfl
@[simp] theorem State.setPwr_objs (s : State) (f : Power → Power) : (s.setPwr f).objs = s.objs := rfl
@[simp] theorem State.setPwr_blobs (s : State) (f : Power → Power) : (s.setPwr f).blobs = s.blobs := rfl
@[simp] theorem State.setPwr_out (s : State) (f : Power → Power) : (s.setPwr f).out = s.out := rfl
@[simp] theorem State.setPwr_free (s : State) (f : Power → Power) : (s.setPwr f).free = s.free := rfl
@[simp] theorem State.setPwr_hq (s : State) (f : Power → Power) : (s.setPwr f).hq = s.hq := rfl
@[simp] theorem State.setPwr_time (s : State) (f : Power → Power) : (s.setPwr f).time = s.time := rfl
@[simp] theorem State.setPwr_halo (s : State) (f : Power → Power) : (s.setPwr f).halo = s.halo := rfl
@[simp] theorem State.setPwr_jnl (s : State) (f : Power → Power) : (s.setPwr f).jnl = s.jnl := rfl
@[simp] theorem State.setPwr_toa (s : State) (f : Power → Power) : (s.setPwr f).toa = s.toa := rfl
@[simp] theorem State.setPwr_scarab (s : State) (f : Power → Power) : (s.setPwr f).scarab = s.scarab := rfl
@[simp] theorem State.setPwr_web (s : State) (f : Power → Power) : (s.setPwr f).web = s.web := rfl
@[simp] theorem State.setPwr_ffy (s : State) (f : Power → Power) : (s.setPwr f).ffy = s.ffy := rfl
@[simp] theorem State.setPwr_lcw (s : State) (f : Power → Power) : (s.setPwr f).lcw = s.lcw := rfl
@[simp] theorem State.setPwr_heads (s : State) (f : Power → Power) : (s.setPwr f).heads = s.heads := rfl
@[simp] theorem State.setPwr_headSides (s : State) (f : Power → Power) : (s.setPwr f).headSides = s.headSides := rfl
@[simp] theorem State.setPwr_lanes (s : State) (f : Power → Power) : (s.setPwr f).lanes = s.lanes := rfl
@[simp] theorem State.setPwr_cams (s : State) (f : Power → Power) : (s.setPwr f).cams = s.cams := rfl
@[simp] theorem State.setPwr_nim (s : State) (f : Power → Power) : (s.setPwr f).nim = s.nim := rfl
@[simp] theorem State.setPwr_cal (s : State) (f : Power → Power) : (s.setPwr f).cal = s.cal := rfl
@[simp] theorem State.setPwr_dram (s : State) (f : Power → Power) : (s.setPwr f).dram = s.dram := rfl
@[simp] theorem State.setPwr_twin (s : State) (f : Power → Power) : (s.setPwr f).twin = s.twin := rfl
@[simp] theorem State.setPwr_axes (s : State) (f : Power → Power) : (s.setPwr f).axes = s.axes := rfl
@[simp] theorem State.setPwr_loops (s : State) (f : Power → Power) : (s.setPwr f).loops = s.loops := rfl
@[simp] theorem State.setPwr_io (s : State) (f : Power → Power) : (s.setPwr f).io = s.io := rfl
@[simp] theorem State.setPwr_dramSt (s : State) (f : Power → Power) : (s.setPwr f).dramSt = s.dramSt := rfl
@[simp] theorem State.setPwr_str (s : State) (f : Power → Power) : (s.setPwr f).str = s.str := rfl
@[simp] theorem State.setPwr_cic (s : State) (f : Power → Power) : (s.setPwr f).cic = s.cic := rfl
@[simp] theorem State.setPwr_obj (s : State) (f : Power → Power) (j : Nat) : (s.setPwr f).obj j = s.obj j := rfl
@[simp] theorem State.setPwr_objN (s : State) (f : Power → Power) (j : Nat) : (s.setPwr f).objN j = s.objN j := rfl
@[simp] theorem State.setPwr_objBit (s : State) (f : Power → Power) (j m : Nat) : (s.setPwr f).objBit j m = s.objBit j m := rfl
@[simp] theorem State.setPwr_ready (s : State) (f : Power → Power) (p : Nat) : (s.setPwr f).ready p = s.ready p := rfl
@[simp] theorem State.setPwr_now (s : State) (f : Power → Power) : (s.setPwr f).now = s.now := rfl

/-! ### setCic -/

@[simp] theorem State.setCic_pending (s : State) (f : Cicada → Cicada) : (s.setCic f).pending = s.pending := rfl
@[simp] theorem State.setCic_objs (s : State) (f : Cicada → Cicada) : (s.setCic f).objs = s.objs := rfl
@[simp] theorem State.setCic_blobs (s : State) (f : Cicada → Cicada) : (s.setCic f).blobs = s.blobs := rfl
@[simp] theorem State.setCic_out (s : State) (f : Cicada → Cicada) : (s.setCic f).out = s.out := rfl
@[simp] theorem State.setCic_free (s : State) (f : Cicada → Cicada) : (s.setCic f).free = s.free := rfl
@[simp] theorem State.setCic_hq (s : State) (f : Cicada → Cicada) : (s.setCic f).hq = s.hq := rfl
@[simp] theorem State.setCic_time (s : State) (f : Cicada → Cicada) : (s.setCic f).time = s.time := rfl
@[simp] theorem State.setCic_halo (s : State) (f : Cicada → Cicada) : (s.setCic f).halo = s.halo := rfl
@[simp] theorem State.setCic_jnl (s : State) (f : Cicada → Cicada) : (s.setCic f).jnl = s.jnl := rfl
@[simp] theorem State.setCic_toa (s : State) (f : Cicada → Cicada) : (s.setCic f).toa = s.toa := rfl
@[simp] theorem State.setCic_scarab (s : State) (f : Cicada → Cicada) : (s.setCic f).scarab = s.scarab := rfl
@[simp] theorem State.setCic_web (s : State) (f : Cicada → Cicada) : (s.setCic f).web = s.web := rfl
@[simp] theorem State.setCic_ffy (s : State) (f : Cicada → Cicada) : (s.setCic f).ffy = s.ffy := rfl
@[simp] theorem State.setCic_lcw (s : State) (f : Cicada → Cicada) : (s.setCic f).lcw = s.lcw := rfl
@[simp] theorem State.setCic_heads (s : State) (f : Cicada → Cicada) : (s.setCic f).heads = s.heads := rfl
@[simp] theorem State.setCic_headSides (s : State) (f : Cicada → Cicada) : (s.setCic f).headSides = s.headSides := rfl
@[simp] theorem State.setCic_lanes (s : State) (f : Cicada → Cicada) : (s.setCic f).lanes = s.lanes := rfl
@[simp] theorem State.setCic_cams (s : State) (f : Cicada → Cicada) : (s.setCic f).cams = s.cams := rfl
@[simp] theorem State.setCic_nim (s : State) (f : Cicada → Cicada) : (s.setCic f).nim = s.nim := rfl
@[simp] theorem State.setCic_cal (s : State) (f : Cicada → Cicada) : (s.setCic f).cal = s.cal := rfl
@[simp] theorem State.setCic_dram (s : State) (f : Cicada → Cicada) : (s.setCic f).dram = s.dram := rfl
@[simp] theorem State.setCic_twin (s : State) (f : Cicada → Cicada) : (s.setCic f).twin = s.twin := rfl
@[simp] theorem State.setCic_axes (s : State) (f : Cicada → Cicada) : (s.setCic f).axes = s.axes := rfl
@[simp] theorem State.setCic_loops (s : State) (f : Cicada → Cicada) : (s.setCic f).loops = s.loops := rfl
@[simp] theorem State.setCic_io (s : State) (f : Cicada → Cicada) : (s.setCic f).io = s.io := rfl
@[simp] theorem State.setCic_dramSt (s : State) (f : Cicada → Cicada) : (s.setCic f).dramSt = s.dramSt := rfl
@[simp] theorem State.setCic_str (s : State) (f : Cicada → Cicada) : (s.setCic f).str = s.str := rfl
@[simp] theorem State.setCic_pwr (s : State) (f : Cicada → Cicada) : (s.setCic f).pwr = s.pwr := rfl
@[simp] theorem State.setCic_obj (s : State) (f : Cicada → Cicada) (j : Nat) : (s.setCic f).obj j = s.obj j := rfl
@[simp] theorem State.setCic_objN (s : State) (f : Cicada → Cicada) (j : Nat) : (s.setCic f).objN j = s.objN j := rfl
@[simp] theorem State.setCic_objBit (s : State) (f : Cicada → Cicada) (j m : Nat) : (s.setCic f).objBit j m = s.objBit j m := rfl
@[simp] theorem State.setCic_ready (s : State) (f : Cicada → Cicada) (p : Nat) : (s.setCic f).ready p = s.ready p := rfl
@[simp] theorem State.setCic_now (s : State) (f : Cicada → Cicada) : (s.setCic f).now = s.now := rfl

/-! ### setDeparted -/

@[simp] theorem State.setDeparted_pending (s : State) (b : Nat) (l : List Departed) : (s.setDeparted b l).pending = s.pending := rfl
@[simp] theorem State.setDeparted_objs (s : State) (b : Nat) (l : List Departed) : (s.setDeparted b l).objs = s.objs := rfl
@[simp] theorem State.setDeparted_blobs (s : State) (b : Nat) (l : List Departed) : (s.setDeparted b l).blobs = s.blobs := rfl
@[simp] theorem State.setDeparted_out (s : State) (b : Nat) (l : List Departed) : (s.setDeparted b l).out = s.out := rfl
@[simp] theorem State.setDeparted_free (s : State) (b : Nat) (l : List Departed) : (s.setDeparted b l).free = s.free := rfl
@[simp] theorem State.setDeparted_hq (s : State) (b : Nat) (l : List Departed) : (s.setDeparted b l).hq = s.hq := rfl
@[simp] theorem State.setDeparted_time (s : State) (b : Nat) (l : List Departed) : (s.setDeparted b l).time = s.time := rfl
@[simp] theorem State.setDeparted_halo (s : State) (b : Nat) (l : List Departed) : (s.setDeparted b l).halo = s.halo := rfl
@[simp] theorem State.setDeparted_jnl (s : State) (b : Nat) (l : List Departed) : (s.setDeparted b l).jnl = s.jnl := rfl
@[simp] theorem State.setDeparted_toa (s : State) (b : Nat) (l : List Departed) : (s.setDeparted b l).toa = s.toa := rfl
@[simp] theorem State.setDeparted_scarab (s : State) (b : Nat) (l : List Departed) : (s.setDeparted b l).scarab = s.scarab := rfl
@[simp] theorem State.setDeparted_web (s : State) (b : Nat) (l : List Departed) : (s.setDeparted b l).web = s.web := rfl
@[simp] theorem State.setDeparted_lcw (s : State) (b : Nat) (l : List Departed) : (s.setDeparted b l).lcw = s.lcw := rfl
@[simp] theorem State.setDeparted_heads (s : State) (b : Nat) (l : List Departed) : (s.setDeparted b l).heads = s.heads := rfl
@[simp] theorem State.setDeparted_headSides (s : State) (b : Nat) (l : List Departed) : (s.setDeparted b l).headSides = s.headSides := rfl
@[simp] theorem State.setDeparted_lanes (s : State) (b : Nat) (l : List Departed) : (s.setDeparted b l).lanes = s.lanes := rfl
@[simp] theorem State.setDeparted_cams (s : State) (b : Nat) (l : List Departed) : (s.setDeparted b l).cams = s.cams := rfl
@[simp] theorem State.setDeparted_nim (s : State) (b : Nat) (l : List Departed) : (s.setDeparted b l).nim = s.nim := rfl
@[simp] theorem State.setDeparted_cal (s : State) (b : Nat) (l : List Departed) : (s.setDeparted b l).cal = s.cal := rfl
@[simp] theorem State.setDeparted_dram (s : State) (b : Nat) (l : List Departed) : (s.setDeparted b l).dram = s.dram := rfl
@[simp] theorem State.setDeparted_twin (s : State) (b : Nat) (l : List Departed) : (s.setDeparted b l).twin = s.twin := rfl
@[simp] theorem State.setDeparted_axes (s : State) (b : Nat) (l : List Departed) : (s.setDeparted b l).axes = s.axes := rfl
@[simp] theorem State.setDeparted_loops (s : State) (b : Nat) (l : List Departed) : (s.setDeparted b l).loops = s.loops := rfl
@[simp] theorem State.setDeparted_io (s : State) (b : Nat) (l : List Departed) : (s.setDeparted b l).io = s.io := rfl
@[simp] theorem State.setDeparted_dramSt (s : State) (b : Nat) (l : List Departed) : (s.setDeparted b l).dramSt = s.dramSt := rfl
@[simp] theorem State.setDeparted_str (s : State) (b : Nat) (l : List Departed) : (s.setDeparted b l).str = s.str := rfl
@[simp] theorem State.setDeparted_pwr (s : State) (b : Nat) (l : List Departed) : (s.setDeparted b l).pwr = s.pwr := rfl
@[simp] theorem State.setDeparted_cic (s : State) (b : Nat) (l : List Departed) : (s.setDeparted b l).cic = s.cic := rfl
@[simp] theorem State.setDeparted_obj (s : State) (b : Nat) (l : List Departed) (j : Nat) : (s.setDeparted b l).obj j = s.obj j := rfl
@[simp] theorem State.setDeparted_objN (s : State) (b : Nat) (l : List Departed) (j : Nat) : (s.setDeparted b l).objN j = s.objN j := rfl
@[simp] theorem State.setDeparted_objBit (s : State) (b : Nat) (l : List Departed) (j m : Nat) : (s.setDeparted b l).objBit j m = s.objBit j m := rfl
@[simp] theorem State.setDeparted_ready (s : State) (b : Nat) (l : List Departed) (p : Nat) : (s.setDeparted b l).ready p = s.ready p := rfl
@[simp] theorem State.setDeparted_now (s : State) (b : Nat) (l : List Departed) : (s.setDeparted b l).now = s.now := rfl

/-! ### setFireLane -/

@[simp] theorem State.setFireLane_pending (s : State) (b : Nat) (l : Lane) : (s.setFireLane b l).pending = s.pending := rfl
@[simp] theorem State.setFireLane_objs (s : State) (b : Nat) (l : Lane) : (s.setFireLane b l).objs = s.objs := rfl
@[simp] theorem State.setFireLane_blobs (s : State) (b : Nat) (l : Lane) : (s.setFireLane b l).blobs = s.blobs := rfl
@[simp] theorem State.setFireLane_out (s : State) (b : Nat) (l : Lane) : (s.setFireLane b l).out = s.out := rfl
@[simp] theorem State.setFireLane_free (s : State) (b : Nat) (l : Lane) : (s.setFireLane b l).free = s.free := rfl
@[simp] theorem State.setFireLane_hq (s : State) (b : Nat) (l : Lane) : (s.setFireLane b l).hq = s.hq := rfl
@[simp] theorem State.setFireLane_time (s : State) (b : Nat) (l : Lane) : (s.setFireLane b l).time = s.time := rfl
@[simp] theorem State.setFireLane_halo (s : State) (b : Nat) (l : Lane) : (s.setFireLane b l).halo = s.halo := rfl
@[simp] theorem State.setFireLane_jnl (s : State) (b : Nat) (l : Lane) : (s.setFireLane b l).jnl = s.jnl := rfl
@[simp] theorem State.setFireLane_toa (s : State) (b : Nat) (l : Lane) : (s.setFireLane b l).toa = s.toa := rfl
@[simp] theorem State.setFireLane_web (s : State) (b : Nat) (l : Lane) : (s.setFireLane b l).web = s.web := rfl
@[simp] theorem State.setFireLane_ffy (s : State) (b : Nat) (l : Lane) : (s.setFireLane b l).ffy = s.ffy := rfl
@[simp] theorem State.setFireLane_lcw (s : State) (b : Nat) (l : Lane) : (s.setFireLane b l).lcw = s.lcw := rfl
@[simp] theorem State.setFireLane_heads (s : State) (b : Nat) (l : Lane) : (s.setFireLane b l).heads = s.heads := rfl
@[simp] theorem State.setFireLane_headSides (s : State) (b : Nat) (l : Lane) : (s.setFireLane b l).headSides = s.headSides := rfl
@[simp] theorem State.setFireLane_lanes (s : State) (b : Nat) (l : Lane) : (s.setFireLane b l).lanes = s.lanes := rfl
@[simp] theorem State.setFireLane_cams (s : State) (b : Nat) (l : Lane) : (s.setFireLane b l).cams = s.cams := rfl
@[simp] theorem State.setFireLane_nim (s : State) (b : Nat) (l : Lane) : (s.setFireLane b l).nim = s.nim := rfl
@[simp] theorem State.setFireLane_cal (s : State) (b : Nat) (l : Lane) : (s.setFireLane b l).cal = s.cal := rfl
@[simp] theorem State.setFireLane_dram (s : State) (b : Nat) (l : Lane) : (s.setFireLane b l).dram = s.dram := rfl
@[simp] theorem State.setFireLane_twin (s : State) (b : Nat) (l : Lane) : (s.setFireLane b l).twin = s.twin := rfl
@[simp] theorem State.setFireLane_axes (s : State) (b : Nat) (l : Lane) : (s.setFireLane b l).axes = s.axes := rfl
@[simp] theorem State.setFireLane_loops (s : State) (b : Nat) (l : Lane) : (s.setFireLane b l).loops = s.loops := rfl
@[simp] theorem State.setFireLane_io (s : State) (b : Nat) (l : Lane) : (s.setFireLane b l).io = s.io := rfl
@[simp] theorem State.setFireLane_dramSt (s : State) (b : Nat) (l : Lane) : (s.setFireLane b l).dramSt = s.dramSt := rfl
@[simp] theorem State.setFireLane_str (s : State) (b : Nat) (l : Lane) : (s.setFireLane b l).str = s.str := rfl
@[simp] theorem State.setFireLane_pwr (s : State) (b : Nat) (l : Lane) : (s.setFireLane b l).pwr = s.pwr := rfl
@[simp] theorem State.setFireLane_cic (s : State) (b : Nat) (l : Lane) : (s.setFireLane b l).cic = s.cic := rfl
@[simp] theorem State.setFireLane_obj (s : State) (b : Nat) (l : Lane) (j : Nat) : (s.setFireLane b l).obj j = s.obj j := rfl
@[simp] theorem State.setFireLane_objN (s : State) (b : Nat) (l : Lane) (j : Nat) : (s.setFireLane b l).objN j = s.objN j := rfl
@[simp] theorem State.setFireLane_objBit (s : State) (b : Nat) (l : Lane) (j m : Nat) : (s.setFireLane b l).objBit j m = s.objBit j m := rfl
@[simp] theorem State.setFireLane_ready (s : State) (b : Nat) (l : Lane) (p : Nat) : (s.setFireLane b l).ready p = s.ready p := rfl
@[simp] theorem State.setFireLane_now (s : State) (b : Nat) (l : Lane) : (s.setFireLane b l).now = s.now := rfl

/-! ### setCheckLane -/

@[simp] theorem State.setCheckLane_pending (s : State) (b : Nat) (l : Lane) : (s.setCheckLane b l).pending = s.pending := rfl
@[simp] theorem State.setCheckLane_objs (s : State) (b : Nat) (l : Lane) : (s.setCheckLane b l).objs = s.objs := rfl
@[simp] theorem State.setCheckLane_blobs (s : State) (b : Nat) (l : Lane) : (s.setCheckLane b l).blobs = s.blobs := rfl
@[simp] theorem State.setCheckLane_out (s : State) (b : Nat) (l : Lane) : (s.setCheckLane b l).out = s.out := rfl
@[simp] theorem State.setCheckLane_free (s : State) (b : Nat) (l : Lane) : (s.setCheckLane b l).free = s.free := rfl
@[simp] theorem State.setCheckLane_hq (s : State) (b : Nat) (l : Lane) : (s.setCheckLane b l).hq = s.hq := rfl
@[simp] theorem State.setCheckLane_time (s : State) (b : Nat) (l : Lane) : (s.setCheckLane b l).time = s.time := rfl
@[simp] theorem State.setCheckLane_halo (s : State) (b : Nat) (l : Lane) : (s.setCheckLane b l).halo = s.halo := rfl
@[simp] theorem State.setCheckLane_jnl (s : State) (b : Nat) (l : Lane) : (s.setCheckLane b l).jnl = s.jnl := rfl
@[simp] theorem State.setCheckLane_toa (s : State) (b : Nat) (l : Lane) : (s.setCheckLane b l).toa = s.toa := rfl
@[simp] theorem State.setCheckLane_web (s : State) (b : Nat) (l : Lane) : (s.setCheckLane b l).web = s.web := rfl
@[simp] theorem State.setCheckLane_ffy (s : State) (b : Nat) (l : Lane) : (s.setCheckLane b l).ffy = s.ffy := rfl
@[simp] theorem State.setCheckLane_lcw (s : State) (b : Nat) (l : Lane) : (s.setCheckLane b l).lcw = s.lcw := rfl
@[simp] theorem State.setCheckLane_heads (s : State) (b : Nat) (l : Lane) : (s.setCheckLane b l).heads = s.heads := rfl
@[simp] theorem State.setCheckLane_headSides (s : State) (b : Nat) (l : Lane) : (s.setCheckLane b l).headSides = s.headSides := rfl
@[simp] theorem State.setCheckLane_lanes (s : State) (b : Nat) (l : Lane) : (s.setCheckLane b l).lanes = s.lanes := rfl
@[simp] theorem State.setCheckLane_cams (s : State) (b : Nat) (l : Lane) : (s.setCheckLane b l).cams = s.cams := rfl
@[simp] theorem State.setCheckLane_nim (s : State) (b : Nat) (l : Lane) : (s.setCheckLane b l).nim = s.nim := rfl
@[simp] theorem State.setCheckLane_cal (s : State) (b : Nat) (l : Lane) : (s.setCheckLane b l).cal = s.cal := rfl
@[simp] theorem State.setCheckLane_dram (s : State) (b : Nat) (l : Lane) : (s.setCheckLane b l).dram = s.dram := rfl
@[simp] theorem State.setCheckLane_twin (s : State) (b : Nat) (l : Lane) : (s.setCheckLane b l).twin = s.twin := rfl
@[simp] theorem State.setCheckLane_axes (s : State) (b : Nat) (l : Lane) : (s.setCheckLane b l).axes = s.axes := rfl
@[simp] theorem State.setCheckLane_loops (s : State) (b : Nat) (l : Lane) : (s.setCheckLane b l).loops = s.loops := rfl
@[simp] theorem State.setCheckLane_io (s : State) (b : Nat) (l : Lane) : (s.setCheckLane b l).io = s.io := rfl
@[simp] theorem State.setCheckLane_dramSt (s : State) (b : Nat) (l : Lane) : (s.setCheckLane b l).dramSt = s.dramSt := rfl
@[simp] theorem State.setCheckLane_str (s : State) (b : Nat) (l : Lane) : (s.setCheckLane b l).str = s.str := rfl
@[simp] theorem State.setCheckLane_pwr (s : State) (b : Nat) (l : Lane) : (s.setCheckLane b l).pwr = s.pwr := rfl
@[simp] theorem State.setCheckLane_cic (s : State) (b : Nat) (l : Lane) : (s.setCheckLane b l).cic = s.cic := rfl
@[simp] theorem State.setCheckLane_obj (s : State) (b : Nat) (l : Lane) (j : Nat) : (s.setCheckLane b l).obj j = s.obj j := rfl
@[simp] theorem State.setCheckLane_objN (s : State) (b : Nat) (l : Lane) (j : Nat) : (s.setCheckLane b l).objN j = s.objN j := rfl
@[simp] theorem State.setCheckLane_objBit (s : State) (b : Nat) (l : Lane) (j m : Nat) : (s.setCheckLane b l).objBit j m = s.objBit j m := rfl
@[simp] theorem State.setCheckLane_ready (s : State) (b : Nat) (l : Lane) (p : Nat) : (s.setCheckLane b l).ready p = s.ready p := rfl
@[simp] theorem State.setCheckLane_now (s : State) (b : Nat) (l : Lane) : (s.setCheckLane b l).now = s.now := rfl

/-! ### setCmp -/

@[simp] theorem State.setCmp_pending (s : State) (k : Nat) (c : Cmp) : (s.setCmp k c).pending = s.pending := rfl
@[simp] theorem State.setCmp_objs (s : State) (k : Nat) (c : Cmp) : (s.setCmp k c).objs = s.objs := rfl
@[simp] theorem State.setCmp_blobs (s : State) (k : Nat) (c : Cmp) : (s.setCmp k c).blobs = s.blobs := rfl
@[simp] theorem State.setCmp_out (s : State) (k : Nat) (c : Cmp) : (s.setCmp k c).out = s.out := rfl
@[simp] theorem State.setCmp_free (s : State) (k : Nat) (c : Cmp) : (s.setCmp k c).free = s.free := rfl
@[simp] theorem State.setCmp_hq (s : State) (k : Nat) (c : Cmp) : (s.setCmp k c).hq = s.hq := rfl
@[simp] theorem State.setCmp_time (s : State) (k : Nat) (c : Cmp) : (s.setCmp k c).time = s.time := rfl
@[simp] theorem State.setCmp_halo (s : State) (k : Nat) (c : Cmp) : (s.setCmp k c).halo = s.halo := rfl
@[simp] theorem State.setCmp_jnl (s : State) (k : Nat) (c : Cmp) : (s.setCmp k c).jnl = s.jnl := rfl
@[simp] theorem State.setCmp_toa (s : State) (k : Nat) (c : Cmp) : (s.setCmp k c).toa = s.toa := rfl
@[simp] theorem State.setCmp_scarab (s : State) (k : Nat) (c : Cmp) : (s.setCmp k c).scarab = s.scarab := rfl
@[simp] theorem State.setCmp_ffy (s : State) (k : Nat) (c : Cmp) : (s.setCmp k c).ffy = s.ffy := rfl
@[simp] theorem State.setCmp_lcw (s : State) (k : Nat) (c : Cmp) : (s.setCmp k c).lcw = s.lcw := rfl
@[simp] theorem State.setCmp_heads (s : State) (k : Nat) (c : Cmp) : (s.setCmp k c).heads = s.heads := rfl
@[simp] theorem State.setCmp_headSides (s : State) (k : Nat) (c : Cmp) : (s.setCmp k c).headSides = s.headSides := rfl
@[simp] theorem State.setCmp_lanes (s : State) (k : Nat) (c : Cmp) : (s.setCmp k c).lanes = s.lanes := rfl
@[simp] theorem State.setCmp_cams (s : State) (k : Nat) (c : Cmp) : (s.setCmp k c).cams = s.cams := rfl
@[simp] theorem State.setCmp_nim (s : State) (k : Nat) (c : Cmp) : (s.setCmp k c).nim = s.nim := rfl
@[simp] theorem State.setCmp_cal (s : State) (k : Nat) (c : Cmp) : (s.setCmp k c).cal = s.cal := rfl
@[simp] theorem State.setCmp_dram (s : State) (k : Nat) (c : Cmp) : (s.setCmp k c).dram = s.dram := rfl
@[simp] theorem State.setCmp_twin (s : State) (k : Nat) (c : Cmp) : (s.setCmp k c).twin = s.twin := rfl
@[simp] theorem State.setCmp_axes (s : State) (k : Nat) (c : Cmp) : (s.setCmp k c).axes = s.axes := rfl
@[simp] theorem State.setCmp_loops (s : State) (k : Nat) (c : Cmp) : (s.setCmp k c).loops = s.loops := rfl
@[simp] theorem State.setCmp_io (s : State) (k : Nat) (c : Cmp) : (s.setCmp k c).io = s.io := rfl
@[simp] theorem State.setCmp_dramSt (s : State) (k : Nat) (c : Cmp) : (s.setCmp k c).dramSt = s.dramSt := rfl
@[simp] theorem State.setCmp_str (s : State) (k : Nat) (c : Cmp) : (s.setCmp k c).str = s.str := rfl
@[simp] theorem State.setCmp_pwr (s : State) (k : Nat) (c : Cmp) : (s.setCmp k c).pwr = s.pwr := rfl
@[simp] theorem State.setCmp_cic (s : State) (k : Nat) (c : Cmp) : (s.setCmp k c).cic = s.cic := rfl
@[simp] theorem State.setCmp_obj (s : State) (k : Nat) (c : Cmp) (j : Nat) : (s.setCmp k c).obj j = s.obj j := rfl
@[simp] theorem State.setCmp_objN (s : State) (k : Nat) (c : Cmp) (j : Nat) : (s.setCmp k c).objN j = s.objN j := rfl
@[simp] theorem State.setCmp_objBit (s : State) (k : Nat) (c : Cmp) (j m : Nat) : (s.setCmp k c).objBit j m = s.objBit j m := rfl
@[simp] theorem State.setCmp_ready (s : State) (k : Nat) (c : Cmp) (p : Nat) : (s.setCmp k c).ready p = s.ready p := rfl
@[simp] theorem State.setCmp_now (s : State) (k : Nat) (c : Cmp) : (s.setCmp k c).now = s.now := rfl

/-! ### setTof -/

@[simp] theorem State.setTof_pending (s : State) (t : Nat) (x : Tof) : (s.setTof t x).pending = s.pending := rfl
@[simp] theorem State.setTof_objs (s : State) (t : Nat) (x : Tof) : (s.setTof t x).objs = s.objs := rfl
@[simp] theorem State.setTof_blobs (s : State) (t : Nat) (x : Tof) : (s.setTof t x).blobs = s.blobs := rfl
@[simp] theorem State.setTof_out (s : State) (t : Nat) (x : Tof) : (s.setTof t x).out = s.out := rfl
@[simp] theorem State.setTof_free (s : State) (t : Nat) (x : Tof) : (s.setTof t x).free = s.free := rfl
@[simp] theorem State.setTof_hq (s : State) (t : Nat) (x : Tof) : (s.setTof t x).hq = s.hq := rfl
@[simp] theorem State.setTof_time (s : State) (t : Nat) (x : Tof) : (s.setTof t x).time = s.time := rfl
@[simp] theorem State.setTof_halo (s : State) (t : Nat) (x : Tof) : (s.setTof t x).halo = s.halo := rfl
@[simp] theorem State.setTof_jnl (s : State) (t : Nat) (x : Tof) : (s.setTof t x).jnl = s.jnl := rfl
@[simp] theorem State.setTof_toa (s : State) (t : Nat) (x : Tof) : (s.setTof t x).toa = s.toa := rfl
@[simp] theorem State.setTof_scarab (s : State) (t : Nat) (x : Tof) : (s.setTof t x).scarab = s.scarab := rfl
@[simp] theorem State.setTof_ffy (s : State) (t : Nat) (x : Tof) : (s.setTof t x).ffy = s.ffy := rfl
@[simp] theorem State.setTof_lcw (s : State) (t : Nat) (x : Tof) : (s.setTof t x).lcw = s.lcw := rfl
@[simp] theorem State.setTof_heads (s : State) (t : Nat) (x : Tof) : (s.setTof t x).heads = s.heads := rfl
@[simp] theorem State.setTof_headSides (s : State) (t : Nat) (x : Tof) : (s.setTof t x).headSides = s.headSides := rfl
@[simp] theorem State.setTof_lanes (s : State) (t : Nat) (x : Tof) : (s.setTof t x).lanes = s.lanes := rfl
@[simp] theorem State.setTof_cams (s : State) (t : Nat) (x : Tof) : (s.setTof t x).cams = s.cams := rfl
@[simp] theorem State.setTof_nim (s : State) (t : Nat) (x : Tof) : (s.setTof t x).nim = s.nim := rfl
@[simp] theorem State.setTof_cal (s : State) (t : Nat) (x : Tof) : (s.setTof t x).cal = s.cal := rfl
@[simp] theorem State.setTof_dram (s : State) (t : Nat) (x : Tof) : (s.setTof t x).dram = s.dram := rfl
@[simp] theorem State.setTof_twin (s : State) (t : Nat) (x : Tof) : (s.setTof t x).twin = s.twin := rfl
@[simp] theorem State.setTof_axes (s : State) (t : Nat) (x : Tof) : (s.setTof t x).axes = s.axes := rfl
@[simp] theorem State.setTof_loops (s : State) (t : Nat) (x : Tof) : (s.setTof t x).loops = s.loops := rfl
@[simp] theorem State.setTof_io (s : State) (t : Nat) (x : Tof) : (s.setTof t x).io = s.io := rfl
@[simp] theorem State.setTof_dramSt (s : State) (t : Nat) (x : Tof) : (s.setTof t x).dramSt = s.dramSt := rfl
@[simp] theorem State.setTof_str (s : State) (t : Nat) (x : Tof) : (s.setTof t x).str = s.str := rfl
@[simp] theorem State.setTof_pwr (s : State) (t : Nat) (x : Tof) : (s.setTof t x).pwr = s.pwr := rfl
@[simp] theorem State.setTof_cic (s : State) (t : Nat) (x : Tof) : (s.setTof t x).cic = s.cic := rfl
@[simp] theorem State.setTof_obj (s : State) (t : Nat) (x : Tof) (j : Nat) : (s.setTof t x).obj j = s.obj j := rfl
@[simp] theorem State.setTof_objN (s : State) (t : Nat) (x : Tof) (j : Nat) : (s.setTof t x).objN j = s.objN j := rfl
@[simp] theorem State.setTof_objBit (s : State) (t : Nat) (x : Tof) (j m : Nat) : (s.setTof t x).objBit j m = s.objBit j m := rfl
@[simp] theorem State.setTof_ready (s : State) (t : Nat) (x : Tof) (p : Nat) : (s.setTof t x).ready p = s.ready p := rfl
@[simp] theorem State.setTof_now (s : State) (t : Nat) (x : Tof) : (s.setTof t x).now = s.now := rfl

/-! ### setEngine -/

@[simp] theorem State.setEngine_pending (s : State) (r : Nat) (e : Option StrJob) : (s.setEngine r e).pending = s.pending := rfl
@[simp] theorem State.setEngine_objs (s : State) (r : Nat) (e : Option StrJob) : (s.setEngine r e).objs = s.objs := rfl
@[simp] theorem State.setEngine_blobs (s : State) (r : Nat) (e : Option StrJob) : (s.setEngine r e).blobs = s.blobs := rfl
@[simp] theorem State.setEngine_out (s : State) (r : Nat) (e : Option StrJob) : (s.setEngine r e).out = s.out := rfl
@[simp] theorem State.setEngine_free (s : State) (r : Nat) (e : Option StrJob) : (s.setEngine r e).free = s.free := rfl
@[simp] theorem State.setEngine_hq (s : State) (r : Nat) (e : Option StrJob) : (s.setEngine r e).hq = s.hq := rfl
@[simp] theorem State.setEngine_time (s : State) (r : Nat) (e : Option StrJob) : (s.setEngine r e).time = s.time := rfl
@[simp] theorem State.setEngine_halo (s : State) (r : Nat) (e : Option StrJob) : (s.setEngine r e).halo = s.halo := rfl
@[simp] theorem State.setEngine_jnl (s : State) (r : Nat) (e : Option StrJob) : (s.setEngine r e).jnl = s.jnl := rfl
@[simp] theorem State.setEngine_toa (s : State) (r : Nat) (e : Option StrJob) : (s.setEngine r e).toa = s.toa := rfl
@[simp] theorem State.setEngine_scarab (s : State) (r : Nat) (e : Option StrJob) : (s.setEngine r e).scarab = s.scarab := rfl
@[simp] theorem State.setEngine_web (s : State) (r : Nat) (e : Option StrJob) : (s.setEngine r e).web = s.web := rfl
@[simp] theorem State.setEngine_ffy (s : State) (r : Nat) (e : Option StrJob) : (s.setEngine r e).ffy = s.ffy := rfl
@[simp] theorem State.setEngine_lcw (s : State) (r : Nat) (e : Option StrJob) : (s.setEngine r e).lcw = s.lcw := rfl
@[simp] theorem State.setEngine_heads (s : State) (r : Nat) (e : Option StrJob) : (s.setEngine r e).heads = s.heads := rfl
@[simp] theorem State.setEngine_headSides (s : State) (r : Nat) (e : Option StrJob) : (s.setEngine r e).headSides = s.headSides := rfl
@[simp] theorem State.setEngine_lanes (s : State) (r : Nat) (e : Option StrJob) : (s.setEngine r e).lanes = s.lanes := rfl
@[simp] theorem State.setEngine_cams (s : State) (r : Nat) (e : Option StrJob) : (s.setEngine r e).cams = s.cams := rfl
@[simp] theorem State.setEngine_nim (s : State) (r : Nat) (e : Option StrJob) : (s.setEngine r e).nim = s.nim := rfl
@[simp] theorem State.setEngine_cal (s : State) (r : Nat) (e : Option StrJob) : (s.setEngine r e).cal = s.cal := rfl
@[simp] theorem State.setEngine_dram (s : State) (r : Nat) (e : Option StrJob) : (s.setEngine r e).dram = s.dram := rfl
@[simp] theorem State.setEngine_twin (s : State) (r : Nat) (e : Option StrJob) : (s.setEngine r e).twin = s.twin := rfl
@[simp] theorem State.setEngine_axes (s : State) (r : Nat) (e : Option StrJob) : (s.setEngine r e).axes = s.axes := rfl
@[simp] theorem State.setEngine_loops (s : State) (r : Nat) (e : Option StrJob) : (s.setEngine r e).loops = s.loops := rfl
@[simp] theorem State.setEngine_io (s : State) (r : Nat) (e : Option StrJob) : (s.setEngine r e).io = s.io := rfl
@[simp] theorem State.setEngine_dramSt (s : State) (r : Nat) (e : Option StrJob) : (s.setEngine r e).dramSt = s.dramSt := rfl
@[simp] theorem State.setEngine_pwr (s : State) (r : Nat) (e : Option StrJob) : (s.setEngine r e).pwr = s.pwr := rfl
@[simp] theorem State.setEngine_cic (s : State) (r : Nat) (e : Option StrJob) : (s.setEngine r e).cic = s.cic := rfl
@[simp] theorem State.setEngine_obj (s : State) (r : Nat) (e : Option StrJob) (j : Nat) : (s.setEngine r e).obj j = s.obj j := rfl
@[simp] theorem State.setEngine_objN (s : State) (r : Nat) (e : Option StrJob) (j : Nat) : (s.setEngine r e).objN j = s.objN j := rfl
@[simp] theorem State.setEngine_objBit (s : State) (r : Nat) (e : Option StrJob) (j m : Nat) : (s.setEngine r e).objBit j m = s.objBit j m := rfl
@[simp] theorem State.setEngine_ready (s : State) (r : Nat) (e : Option StrJob) (p : Nat) : (s.setEngine r e).ready p = s.ready p := rfl
@[simp] theorem State.setEngine_now (s : State) (r : Nat) (e : Option StrJob) : (s.setEngine r e).now = s.now := rfl

/-! ### dramSet -/

@[simp] theorem State.dramSet_pending (s : State) (a : Nat) (v : Byte) : (s.dramSet a v).pending = s.pending := rfl
@[simp] theorem State.dramSet_objs (s : State) (a : Nat) (v : Byte) : (s.dramSet a v).objs = s.objs := rfl
@[simp] theorem State.dramSet_blobs (s : State) (a : Nat) (v : Byte) : (s.dramSet a v).blobs = s.blobs := rfl
@[simp] theorem State.dramSet_out (s : State) (a : Nat) (v : Byte) : (s.dramSet a v).out = s.out := rfl
@[simp] theorem State.dramSet_free (s : State) (a : Nat) (v : Byte) : (s.dramSet a v).free = s.free := rfl
@[simp] theorem State.dramSet_hq (s : State) (a : Nat) (v : Byte) : (s.dramSet a v).hq = s.hq := rfl
@[simp] theorem State.dramSet_time (s : State) (a : Nat) (v : Byte) : (s.dramSet a v).time = s.time := rfl
@[simp] theorem State.dramSet_halo (s : State) (a : Nat) (v : Byte) : (s.dramSet a v).halo = s.halo := rfl
@[simp] theorem State.dramSet_jnl (s : State) (a : Nat) (v : Byte) : (s.dramSet a v).jnl = s.jnl := rfl
@[simp] theorem State.dramSet_toa (s : State) (a : Nat) (v : Byte) : (s.dramSet a v).toa = s.toa := rfl
@[simp] theorem State.dramSet_scarab (s : State) (a : Nat) (v : Byte) : (s.dramSet a v).scarab = s.scarab := rfl
@[simp] theorem State.dramSet_web (s : State) (a : Nat) (v : Byte) : (s.dramSet a v).web = s.web := rfl
@[simp] theorem State.dramSet_ffy (s : State) (a : Nat) (v : Byte) : (s.dramSet a v).ffy = s.ffy := rfl
@[simp] theorem State.dramSet_lcw (s : State) (a : Nat) (v : Byte) : (s.dramSet a v).lcw = s.lcw := rfl
@[simp] theorem State.dramSet_heads (s : State) (a : Nat) (v : Byte) : (s.dramSet a v).heads = s.heads := rfl
@[simp] theorem State.dramSet_headSides (s : State) (a : Nat) (v : Byte) : (s.dramSet a v).headSides = s.headSides := rfl
@[simp] theorem State.dramSet_lanes (s : State) (a : Nat) (v : Byte) : (s.dramSet a v).lanes = s.lanes := rfl
@[simp] theorem State.dramSet_cams (s : State) (a : Nat) (v : Byte) : (s.dramSet a v).cams = s.cams := rfl
@[simp] theorem State.dramSet_nim (s : State) (a : Nat) (v : Byte) : (s.dramSet a v).nim = s.nim := rfl
@[simp] theorem State.dramSet_cal (s : State) (a : Nat) (v : Byte) : (s.dramSet a v).cal = s.cal := rfl
@[simp] theorem State.dramSet_twin (s : State) (a : Nat) (v : Byte) : (s.dramSet a v).twin = s.twin := rfl
@[simp] theorem State.dramSet_axes (s : State) (a : Nat) (v : Byte) : (s.dramSet a v).axes = s.axes := rfl
@[simp] theorem State.dramSet_loops (s : State) (a : Nat) (v : Byte) : (s.dramSet a v).loops = s.loops := rfl
@[simp] theorem State.dramSet_io (s : State) (a : Nat) (v : Byte) : (s.dramSet a v).io = s.io := rfl
@[simp] theorem State.dramSet_dramSt (s : State) (a : Nat) (v : Byte) : (s.dramSet a v).dramSt = s.dramSt := rfl
@[simp] theorem State.dramSet_str (s : State) (a : Nat) (v : Byte) : (s.dramSet a v).str = s.str := rfl
@[simp] theorem State.dramSet_pwr (s : State) (a : Nat) (v : Byte) : (s.dramSet a v).pwr = s.pwr := rfl
@[simp] theorem State.dramSet_cic (s : State) (a : Nat) (v : Byte) : (s.dramSet a v).cic = s.cic := rfl
@[simp] theorem State.dramSet_obj (s : State) (a : Nat) (v : Byte) (j : Nat) : (s.dramSet a v).obj j = s.obj j := rfl
@[simp] theorem State.dramSet_objN (s : State) (a : Nat) (v : Byte) (j : Nat) : (s.dramSet a v).objN j = s.objN j := rfl
@[simp] theorem State.dramSet_objBit (s : State) (a : Nat) (v : Byte) (j m : Nat) : (s.dramSet a v).objBit j m = s.objBit j m := rfl
@[simp] theorem State.dramSet_ready (s : State) (a : Nat) (v : Byte) (p : Nat) : (s.dramSet a v).ready p = s.ready p := rfl
@[simp] theorem State.dramSet_now (s : State) (a : Nat) (v : Byte) : (s.dramSet a v).now = s.now := rfl

/-! ### setRank -/

@[simp] theorem State.setRank_pending (s : State) (c r : Nat) (f : Rank → Rank) : (s.setRank c r f).pending = s.pending := rfl
@[simp] theorem State.setRank_objs (s : State) (c r : Nat) (f : Rank → Rank) : (s.setRank c r f).objs = s.objs := rfl
@[simp] theorem State.setRank_blobs (s : State) (c r : Nat) (f : Rank → Rank) : (s.setRank c r f).blobs = s.blobs := rfl
@[simp] theorem State.setRank_out (s : State) (c r : Nat) (f : Rank → Rank) : (s.setRank c r f).out = s.out := rfl
@[simp] theorem State.setRank_free (s : State) (c r : Nat) (f : Rank → Rank) : (s.setRank c r f).free = s.free := rfl
@[simp] theorem State.setRank_hq (s : State) (c r : Nat) (f : Rank → Rank) : (s.setRank c r f).hq = s.hq := rfl
@[simp] theorem State.setRank_time (s : State) (c r : Nat) (f : Rank → Rank) : (s.setRank c r f).time = s.time := rfl
@[simp] theorem State.setRank_halo (s : State) (c r : Nat) (f : Rank → Rank) : (s.setRank c r f).halo = s.halo := rfl
@[simp] theorem State.setRank_jnl (s : State) (c r : Nat) (f : Rank → Rank) : (s.setRank c r f).jnl = s.jnl := rfl
@[simp] theorem State.setRank_toa (s : State) (c r : Nat) (f : Rank → Rank) : (s.setRank c r f).toa = s.toa := rfl
@[simp] theorem State.setRank_scarab (s : State) (c r : Nat) (f : Rank → Rank) : (s.setRank c r f).scarab = s.scarab := rfl
@[simp] theorem State.setRank_web (s : State) (c r : Nat) (f : Rank → Rank) : (s.setRank c r f).web = s.web := rfl
@[simp] theorem State.setRank_ffy (s : State) (c r : Nat) (f : Rank → Rank) : (s.setRank c r f).ffy = s.ffy := rfl
@[simp] theorem State.setRank_lcw (s : State) (c r : Nat) (f : Rank → Rank) : (s.setRank c r f).lcw = s.lcw := rfl
@[simp] theorem State.setRank_heads (s : State) (c r : Nat) (f : Rank → Rank) : (s.setRank c r f).heads = s.heads := rfl
@[simp] theorem State.setRank_headSides (s : State) (c r : Nat) (f : Rank → Rank) : (s.setRank c r f).headSides = s.headSides := rfl
@[simp] theorem State.setRank_lanes (s : State) (c r : Nat) (f : Rank → Rank) : (s.setRank c r f).lanes = s.lanes := rfl
@[simp] theorem State.setRank_cams (s : State) (c r : Nat) (f : Rank → Rank) : (s.setRank c r f).cams = s.cams := rfl
@[simp] theorem State.setRank_nim (s : State) (c r : Nat) (f : Rank → Rank) : (s.setRank c r f).nim = s.nim := rfl
@[simp] theorem State.setRank_cal (s : State) (c r : Nat) (f : Rank → Rank) : (s.setRank c r f).cal = s.cal := rfl
@[simp] theorem State.setRank_dram (s : State) (c r : Nat) (f : Rank → Rank) : (s.setRank c r f).dram = s.dram := rfl
@[simp] theorem State.setRank_twin (s : State) (c r : Nat) (f : Rank → Rank) : (s.setRank c r f).twin = s.twin := rfl
@[simp] theorem State.setRank_axes (s : State) (c r : Nat) (f : Rank → Rank) : (s.setRank c r f).axes = s.axes := rfl
@[simp] theorem State.setRank_loops (s : State) (c r : Nat) (f : Rank → Rank) : (s.setRank c r f).loops = s.loops := rfl
@[simp] theorem State.setRank_io (s : State) (c r : Nat) (f : Rank → Rank) : (s.setRank c r f).io = s.io := rfl
@[simp] theorem State.setRank_str (s : State) (c r : Nat) (f : Rank → Rank) : (s.setRank c r f).str = s.str := rfl
@[simp] theorem State.setRank_pwr (s : State) (c r : Nat) (f : Rank → Rank) : (s.setRank c r f).pwr = s.pwr := rfl
@[simp] theorem State.setRank_cic (s : State) (c r : Nat) (f : Rank → Rank) : (s.setRank c r f).cic = s.cic := rfl
@[simp] theorem State.setRank_obj (s : State) (c r : Nat) (f : Rank → Rank) (j : Nat) : (s.setRank c r f).obj j = s.obj j := rfl
@[simp] theorem State.setRank_objN (s : State) (c r : Nat) (f : Rank → Rank) (j : Nat) : (s.setRank c r f).objN j = s.objN j := rfl
@[simp] theorem State.setRank_objBit (s : State) (c r : Nat) (f : Rank → Rank) (j m : Nat) : (s.setRank c r f).objBit j m = s.objBit j m := rfl
@[simp] theorem State.setRank_ready (s : State) (c r : Nat) (f : Rank → Rank) (p : Nat) : (s.setRank c r f).ready p = s.ready p := rfl
@[simp] theorem State.setRank_now (s : State) (c r : Nat) (f : Rank → Rank) : (s.setRank c r f).now = s.now := rfl

/-! ### setCalUnit -/

@[simp] theorem State.setCalUnit_pending (s : State) (cls inst : Nat) (x : CalUnit) : (s.setCalUnit cls inst x).pending = s.pending := rfl
@[simp] theorem State.setCalUnit_objs (s : State) (cls inst : Nat) (x : CalUnit) : (s.setCalUnit cls inst x).objs = s.objs := rfl
@[simp] theorem State.setCalUnit_blobs (s : State) (cls inst : Nat) (x : CalUnit) : (s.setCalUnit cls inst x).blobs = s.blobs := rfl
@[simp] theorem State.setCalUnit_out (s : State) (cls inst : Nat) (x : CalUnit) : (s.setCalUnit cls inst x).out = s.out := rfl
@[simp] theorem State.setCalUnit_free (s : State) (cls inst : Nat) (x : CalUnit) : (s.setCalUnit cls inst x).free = s.free := rfl
@[simp] theorem State.setCalUnit_hq (s : State) (cls inst : Nat) (x : CalUnit) : (s.setCalUnit cls inst x).hq = s.hq := rfl
@[simp] theorem State.setCalUnit_time (s : State) (cls inst : Nat) (x : CalUnit) : (s.setCalUnit cls inst x).time = s.time := rfl
@[simp] theorem State.setCalUnit_halo (s : State) (cls inst : Nat) (x : CalUnit) : (s.setCalUnit cls inst x).halo = s.halo := rfl
@[simp] theorem State.setCalUnit_jnl (s : State) (cls inst : Nat) (x : CalUnit) : (s.setCalUnit cls inst x).jnl = s.jnl := rfl
@[simp] theorem State.setCalUnit_toa (s : State) (cls inst : Nat) (x : CalUnit) : (s.setCalUnit cls inst x).toa = s.toa := rfl
@[simp] theorem State.setCalUnit_scarab (s : State) (cls inst : Nat) (x : CalUnit) : (s.setCalUnit cls inst x).scarab = s.scarab := rfl
@[simp] theorem State.setCalUnit_web (s : State) (cls inst : Nat) (x : CalUnit) : (s.setCalUnit cls inst x).web = s.web := rfl
@[simp] theorem State.setCalUnit_ffy (s : State) (cls inst : Nat) (x : CalUnit) : (s.setCalUnit cls inst x).ffy = s.ffy := rfl
@[simp] theorem State.setCalUnit_lcw (s : State) (cls inst : Nat) (x : CalUnit) : (s.setCalUnit cls inst x).lcw = s.lcw := rfl
@[simp] theorem State.setCalUnit_heads (s : State) (cls inst : Nat) (x : CalUnit) : (s.setCalUnit cls inst x).heads = s.heads := rfl
@[simp] theorem State.setCalUnit_headSides (s : State) (cls inst : Nat) (x : CalUnit) : (s.setCalUnit cls inst x).headSides = s.headSides := rfl
@[simp] theorem State.setCalUnit_lanes (s : State) (cls inst : Nat) (x : CalUnit) : (s.setCalUnit cls inst x).lanes = s.lanes := rfl
@[simp] theorem State.setCalUnit_cams (s : State) (cls inst : Nat) (x : CalUnit) : (s.setCalUnit cls inst x).cams = s.cams := rfl
@[simp] theorem State.setCalUnit_nim (s : State) (cls inst : Nat) (x : CalUnit) : (s.setCalUnit cls inst x).nim = s.nim := rfl
@[simp] theorem State.setCalUnit_dram (s : State) (cls inst : Nat) (x : CalUnit) : (s.setCalUnit cls inst x).dram = s.dram := rfl
@[simp] theorem State.setCalUnit_twin (s : State) (cls inst : Nat) (x : CalUnit) : (s.setCalUnit cls inst x).twin = s.twin := rfl
@[simp] theorem State.setCalUnit_axes (s : State) (cls inst : Nat) (x : CalUnit) : (s.setCalUnit cls inst x).axes = s.axes := rfl
@[simp] theorem State.setCalUnit_loops (s : State) (cls inst : Nat) (x : CalUnit) : (s.setCalUnit cls inst x).loops = s.loops := rfl
@[simp] theorem State.setCalUnit_io (s : State) (cls inst : Nat) (x : CalUnit) : (s.setCalUnit cls inst x).io = s.io := rfl
@[simp] theorem State.setCalUnit_dramSt (s : State) (cls inst : Nat) (x : CalUnit) : (s.setCalUnit cls inst x).dramSt = s.dramSt := rfl
@[simp] theorem State.setCalUnit_str (s : State) (cls inst : Nat) (x : CalUnit) : (s.setCalUnit cls inst x).str = s.str := rfl
@[simp] theorem State.setCalUnit_pwr (s : State) (cls inst : Nat) (x : CalUnit) : (s.setCalUnit cls inst x).pwr = s.pwr := rfl
@[simp] theorem State.setCalUnit_cic (s : State) (cls inst : Nat) (x : CalUnit) : (s.setCalUnit cls inst x).cic = s.cic := rfl
@[simp] theorem State.setCalUnit_obj (s : State) (cls inst : Nat) (x : CalUnit) (j : Nat) : (s.setCalUnit cls inst x).obj j = s.obj j := rfl
@[simp] theorem State.setCalUnit_objN (s : State) (cls inst : Nat) (x : CalUnit) (j : Nat) : (s.setCalUnit cls inst x).objN j = s.objN j := rfl
@[simp] theorem State.setCalUnit_objBit (s : State) (cls inst : Nat) (x : CalUnit) (j m : Nat) : (s.setCalUnit cls inst x).objBit j m = s.objBit j m := rfl
@[simp] theorem State.setCalUnit_ready (s : State) (cls inst : Nat) (x : CalUnit) (p : Nat) : (s.setCalUnit cls inst x).ready p = s.ready p := rfl
@[simp] theorem State.setCalUnit_now (s : State) (cls inst : Nat) (x : CalUnit) : (s.setCalUnit cls inst x).now = s.now := rfl

/-! ### setChan -/

@[simp] theorem State.setChan_pending (s : State) (i : ChanId) (c : Chan) : (s.setChan i c).pending = s.pending := by cases i <;> rfl
@[simp] theorem State.setChan_objs (s : State) (i : ChanId) (c : Chan) : (s.setChan i c).objs = s.objs := by cases i <;> rfl
@[simp] theorem State.setChan_blobs (s : State) (i : ChanId) (c : Chan) : (s.setChan i c).blobs = s.blobs := by cases i <;> rfl
@[simp] theorem State.setChan_out (s : State) (i : ChanId) (c : Chan) : (s.setChan i c).out = s.out := by cases i <;> rfl
@[simp] theorem State.setChan_free (s : State) (i : ChanId) (c : Chan) : (s.setChan i c).free = s.free := by cases i <;> rfl
@[simp] theorem State.setChan_hq (s : State) (i : ChanId) (c : Chan) : (s.setChan i c).hq = s.hq := by cases i <;> rfl
@[simp] theorem State.setChan_time (s : State) (i : ChanId) (c : Chan) : (s.setChan i c).time = s.time := by cases i <;> rfl
@[simp] theorem State.setChan_halo (s : State) (i : ChanId) (c : Chan) : (s.setChan i c).halo = s.halo := by cases i <;> rfl
@[simp] theorem State.setChan_jnl (s : State) (i : ChanId) (c : Chan) : (s.setChan i c).jnl = s.jnl := by cases i <;> rfl
@[simp] theorem State.setChan_toa (s : State) (i : ChanId) (c : Chan) : (s.setChan i c).toa = s.toa := by cases i <;> rfl
@[simp] theorem State.setChan_scarab (s : State) (i : ChanId) (c : Chan) : (s.setChan i c).scarab = s.scarab := by cases i <;> rfl
@[simp] theorem State.setChan_ffy (s : State) (i : ChanId) (c : Chan) : (s.setChan i c).ffy = s.ffy := by cases i <;> rfl
@[simp] theorem State.setChan_lcw (s : State) (i : ChanId) (c : Chan) : (s.setChan i c).lcw = s.lcw := by cases i <;> rfl
@[simp] theorem State.setChan_heads (s : State) (i : ChanId) (c : Chan) : (s.setChan i c).heads = s.heads := by cases i <;> rfl
@[simp] theorem State.setChan_headSides (s : State) (i : ChanId) (c : Chan) : (s.setChan i c).headSides = s.headSides := by cases i <;> rfl
@[simp] theorem State.setChan_lanes (s : State) (i : ChanId) (c : Chan) : (s.setChan i c).lanes = s.lanes := by cases i <;> rfl
@[simp] theorem State.setChan_cams (s : State) (i : ChanId) (c : Chan) : (s.setChan i c).cams = s.cams := by cases i <;> rfl
@[simp] theorem State.setChan_nim (s : State) (i : ChanId) (c : Chan) : (s.setChan i c).nim = s.nim := by cases i <;> rfl
@[simp] theorem State.setChan_cal (s : State) (i : ChanId) (c : Chan) : (s.setChan i c).cal = s.cal := by cases i <;> rfl
@[simp] theorem State.setChan_dram (s : State) (i : ChanId) (c : Chan) : (s.setChan i c).dram = s.dram := by cases i <;> rfl
@[simp] theorem State.setChan_twin (s : State) (i : ChanId) (c : Chan) : (s.setChan i c).twin = s.twin := by cases i <;> rfl
@[simp] theorem State.setChan_axes (s : State) (i : ChanId) (c : Chan) : (s.setChan i c).axes = s.axes := by cases i <;> rfl
@[simp] theorem State.setChan_loops (s : State) (i : ChanId) (c : Chan) : (s.setChan i c).loops = s.loops := by cases i <;> rfl
@[simp] theorem State.setChan_io (s : State) (i : ChanId) (c : Chan) : (s.setChan i c).io = s.io := by cases i <;> rfl
@[simp] theorem State.setChan_dramSt (s : State) (i : ChanId) (c : Chan) : (s.setChan i c).dramSt = s.dramSt := by cases i <;> rfl
@[simp] theorem State.setChan_str (s : State) (i : ChanId) (c : Chan) : (s.setChan i c).str = s.str := by cases i <;> rfl
@[simp] theorem State.setChan_pwr (s : State) (i : ChanId) (c : Chan) : (s.setChan i c).pwr = s.pwr := by cases i <;> rfl
@[simp] theorem State.setChan_cic (s : State) (i : ChanId) (c : Chan) : (s.setChan i c).cic = s.cic := by cases i <;> rfl
@[simp] theorem State.setChan_obj (s : State) (i : ChanId) (c : Chan) (j : Nat) : (s.setChan i c).obj j = s.obj j := by cases i <;> rfl
@[simp] theorem State.setChan_objN (s : State) (i : ChanId) (c : Chan) (j : Nat) : (s.setChan i c).objN j = s.objN j := by cases i <;> rfl
@[simp] theorem State.setChan_objBit (s : State) (i : ChanId) (c : Chan) (j m : Nat) : (s.setChan i c).objBit j m = s.objBit j m := by cases i <;> rfl
@[simp] theorem State.setChan_ready (s : State) (i : ChanId) (c : Chan) (p : Nat) : (s.setChan i c).ready p = s.ready p := by cases i <;> rfl
@[simp] theorem State.setChan_now (s : State) (i : ChanId) (c : Chan) : (s.setChan i c).now = s.now := by cases i <;> rfl

/-! ### msix -/

@[simp] theorem State.msix_pending (s : State) (v : Nat) : (s.msix v).pending = s.pending := by unfold State.msix; split; (split <;> rfl); rfl
@[simp] theorem State.msix_objs (s : State) (v : Nat) : (s.msix v).objs = s.objs := by unfold State.msix; split; (split <;> rfl); rfl
@[simp] theorem State.msix_blobs (s : State) (v : Nat) : (s.msix v).blobs = s.blobs := by unfold State.msix; split; (split <;> rfl); rfl
@[simp] theorem State.msix_free (s : State) (v : Nat) : (s.msix v).free = s.free := by unfold State.msix; split; (split <;> rfl); rfl
@[simp] theorem State.msix_time (s : State) (v : Nat) : (s.msix v).time = s.time := by unfold State.msix; split; (split <;> rfl); rfl
@[simp] theorem State.msix_halo (s : State) (v : Nat) : (s.msix v).halo = s.halo := by unfold State.msix; split; (split <;> rfl); rfl
@[simp] theorem State.msix_jnl (s : State) (v : Nat) : (s.msix v).jnl = s.jnl := by unfold State.msix; split; (split <;> rfl); rfl
@[simp] theorem State.msix_toa (s : State) (v : Nat) : (s.msix v).toa = s.toa := by unfold State.msix; split; (split <;> rfl); rfl
@[simp] theorem State.msix_scarab (s : State) (v : Nat) : (s.msix v).scarab = s.scarab := by unfold State.msix; split; (split <;> rfl); rfl
@[simp] theorem State.msix_web (s : State) (v : Nat) : (s.msix v).web = s.web := by unfold State.msix; split; (split <;> rfl); rfl
@[simp] theorem State.msix_ffy (s : State) (v : Nat) : (s.msix v).ffy = s.ffy := by unfold State.msix; split; (split <;> rfl); rfl
@[simp] theorem State.msix_lcw (s : State) (v : Nat) : (s.msix v).lcw = s.lcw := by unfold State.msix; split; (split <;> rfl); rfl
@[simp] theorem State.msix_heads (s : State) (v : Nat) : (s.msix v).heads = s.heads := by unfold State.msix; split; (split <;> rfl); rfl
@[simp] theorem State.msix_headSides (s : State) (v : Nat) : (s.msix v).headSides = s.headSides := by unfold State.msix; split; (split <;> rfl); rfl
@[simp] theorem State.msix_lanes (s : State) (v : Nat) : (s.msix v).lanes = s.lanes := by unfold State.msix; split; (split <;> rfl); rfl
@[simp] theorem State.msix_cams (s : State) (v : Nat) : (s.msix v).cams = s.cams := by unfold State.msix; split; (split <;> rfl); rfl
@[simp] theorem State.msix_nim (s : State) (v : Nat) : (s.msix v).nim = s.nim := by unfold State.msix; split; (split <;> rfl); rfl
@[simp] theorem State.msix_cal (s : State) (v : Nat) : (s.msix v).cal = s.cal := by unfold State.msix; split; (split <;> rfl); rfl
@[simp] theorem State.msix_dram (s : State) (v : Nat) : (s.msix v).dram = s.dram := by unfold State.msix; split; (split <;> rfl); rfl
@[simp] theorem State.msix_twin (s : State) (v : Nat) : (s.msix v).twin = s.twin := by unfold State.msix; split; (split <;> rfl); rfl
@[simp] theorem State.msix_axes (s : State) (v : Nat) : (s.msix v).axes = s.axes := by unfold State.msix; split; (split <;> rfl); rfl
@[simp] theorem State.msix_loops (s : State) (v : Nat) : (s.msix v).loops = s.loops := by unfold State.msix; split; (split <;> rfl); rfl
@[simp] theorem State.msix_io (s : State) (v : Nat) : (s.msix v).io = s.io := by unfold State.msix; split; (split <;> rfl); rfl
@[simp] theorem State.msix_dramSt (s : State) (v : Nat) : (s.msix v).dramSt = s.dramSt := by unfold State.msix; split; (split <;> rfl); rfl
@[simp] theorem State.msix_str (s : State) (v : Nat) : (s.msix v).str = s.str := by unfold State.msix; split; (split <;> rfl); rfl
@[simp] theorem State.msix_pwr (s : State) (v : Nat) : (s.msix v).pwr = s.pwr := by unfold State.msix; split; (split <;> rfl); rfl
@[simp] theorem State.msix_cic (s : State) (v : Nat) : (s.msix v).cic = s.cic := by unfold State.msix; split; (split <;> rfl); rfl
@[simp] theorem State.msix_obj (s : State) (v : Nat) (j : Nat) : (s.msix v).obj j = s.obj j := by unfold State.msix; split; (split <;> rfl); rfl
@[simp] theorem State.msix_objN (s : State) (v : Nat) (j : Nat) : (s.msix v).objN j = s.objN j := by unfold State.msix; split; (split <;> rfl); rfl
@[simp] theorem State.msix_objBit (s : State) (v : Nat) (j m : Nat) : (s.msix v).objBit j m = s.objBit j m := by unfold State.msix; split; (split <;> rfl); rfl
@[simp] theorem State.msix_ready (s : State) (v : Nat) (p : Nat) : (s.msix v).ready p = s.ready p := by unfold State.msix; split; (split <;> rfl); rfl
@[simp] theorem State.msix_now (s : State) (v : Nat) : (s.msix v).now = s.now := by unfold State.msix; split; (split <;> rfl); rfl

end Sys2Proof.Machine
end

