-- ==== Sys2Proof/Laws/Ops.lean ====
section
/-! SUPPORT. What the shared operations do: objects, rings, events, counters and free values. -/

namespace Sys2Proof.Machine

/-! ### Objects -/

theorem State.obj_setObj (s : State) (k j : Nat) (v : Int) : (s.setObj k v).obj j = if j = k then v else s.obj j := by
  unfold State.obj State.setObj
  by_cases h : j = k
  · subst h; simp
  · simp [h, Tab.get_set_of_ne']

@[simp] theorem State.obj_setObj_same (s : State) (k : Nat) (v : Int) : (s.setObj k v).obj k = v := by
  simp [State.obj_setObj]

theorem State.obj_setObj_of_ne (s : State) (k j : Nat) (v : Int) (h : j ≠ k) : (s.setObj k v).obj j = s.obj j := by
  simp [State.obj_setObj, h]

/-! ### Rings -/

theorem State.ring_setRing (s : State) (q p : Nat) (r : Ring) : (s.setRing q r).ring p = if p = q then r else s.ring p := by
  simp [State.ring, State.setRing, Tab.get_set]

@[simp] theorem State.ring_setRing_same (s : State) (q : Nat) (r : Ring) : (s.setRing q r).ring q = r := by
  simp [State.ring_setRing]

@[simp] theorem State.psnWatch_ring (s : State) (q : Nat) : s.psnWatch.ring q = s.ring q := by
  unfold State.psnWatch State.ring
  split
  · split <;> rfl
  · rfl

/-! ### Forwarding and the queues -/

@[simp] theorem State.twinSend_hq (s : State) (i : TwinItem) : (s.twinSend i).hq = s.hq := by
  unfold State.twinSend; split <;> rfl

@[simp] theorem State.forward_hq (s : State) (i : TwinItem) : (s.forward i).hq = s.hq := by
  unfold State.forward; split <;> simp

@[simp] theorem State.twinSend_objs (s : State) (i : TwinItem) : (s.twinSend i).objs = s.objs := by
  unfold State.twinSend; split <;> rfl

@[simp] theorem State.forward_objs (s : State) (i : TwinItem) : (s.forward i).objs = s.objs := by
  unfold State.forward; split <;> simp

/-- The watch for PSN_WAIT changes nothing but its own two fields. -/
theorem State.psnWatch_eq (s : State) : ∃ w r, s.psnWatch = { s with hq := { s.hq with waitSince := w, waitRaised := r } } := by
  unfold State.psnWatch
  split
  · split
    · exact ⟨_, _, rfl⟩
    · exact ⟨_, _, rfl⟩
  · exact ⟨_, _, rfl⟩

@[simp] theorem State.psnWatch_jobs (s : State) : s.psnWatch.hq.jobs = s.hq.jobs := by
  obtain ⟨w, r, h⟩ := s.psnWatch_eq; rw [h]
@[simp] theorem State.psnWatch_psnNext (s : State) : s.psnWatch.hq.psnNext = s.hq.psnNext := by
  obtain ⟨w, r, h⟩ := s.psnWatch_eq; rw [h]
@[simp] theorem State.psnWatch_streams (s : State) : s.psnWatch.hq.streams = s.hq.streams := by
  obtain ⟨w, r, h⟩ := s.psnWatch_eq; rw [h]
@[simp] theorem State.psnWatch_bases (s : State) : s.psnWatch.hq.bases = s.hq.bases := by
  obtain ⟨w, r, h⟩ := s.psnWatch_eq; rw [h]
@[simp] theorem State.psnWatch_acceptQ (s : State) : s.psnWatch.hq.acceptQ = s.hq.acceptQ := by
  obtain ⟨w, r, h⟩ := s.psnWatch_eq; rw [h]
@[simp] theorem State.psnWatch_objs (s : State) : s.psnWatch.objs = s.objs := by
  obtain ⟨w, r, h⟩ := s.psnWatch_eq; rw [h]

/-- A consumed descriptor leaves jobs, bases, streams and PSN_NEXT alone. -/
theorem State.eat_frame (q : Nat) (d : Bytes) (s : State) :
    (State.eat q d s).hq.jobs = s.hq.jobs ∧ (State.eat q d s).hq.psnNext = s.hq.psnNext ∧
      (State.eat q d s).hq.streams = s.hq.streams ∧ (State.eat q d s).hq.bases = s.hq.bases ∧
      (State.eat q d s).hq.acceptQ = s.hq.acceptQ ∧ (State.eat q d s).objs = s.objs := by
  refine ⟨?_, ?_, ?_, ?_, ?_, ?_⟩ <;> simp [State.eat, State.consume, State.setRing, State.emit]

end Sys2Proof.Machine
end

