-- ==== Sys2Proof/Laws/Writes.lean ====
section
/-! SUPPORT. Numbers and byte strings, and what an accepted write of an object answers. -/

namespace Sys2Proof

@[simp] theorem le_length (n v : Nat) : (le n v).length = n := by
  induction n generalizing v with
  | zero => rfl
  | succ n ih => simp [le, ih]

theorem unle_le (n v : Nat) : unle (le n v) = v % 256 ^ n := by
  induction n generalizing v with
  | zero => simp [le, unle, Nat.mod_one]
  | succ n ih => simp [le, unle, ih, Nat.pow_succ', Nat.mod_mul]

namespace Machine

/-- An accepted write of a type below BLOB, not staged and of no counter, has the effect of its own rule. -/
theorem State.objCmd_written {s t : State} {c : Ctx} {k ty : Nat} {d : Bytes} {a : Obj.Acc} (hp : s.passes c k ty d = true)
    (hk : Obj.kind k = some (ty, a, false)) (hty : ty ≠ 13) (ha : a = .rw ∨ a = .wo ∨ a = .rws)
    (hw : ∀ l, (s.touch c).writeRule c k (Obj.decode ty d) d l = (t, 0)) : s.objCmd c k ty d = t.written k d := by
  obtain ⟨r, g, hf, rfl, rfl, hc⟩ : ∃ r g, Obj.find k = some (r, g) ∧ ty = r.ty ∧ a = r.acc ∧ r.ctr = false := by
    unfold Obj.kind at hk
    cases h : Obj.find k with
    | none => rw [h] at hk; cases hk
    | some p =>
      rw [h] at hk
      simp only [Option.map_some, Option.some.injEq, Prod.mk.injEq] at hk
      exact ⟨p.1, p.2, rfl, hk.1.symm, hk.2.1.symm, hk.2.2⟩
  simp only [State.passes, hf, Bool.and_eq_true, beq_iff_eq, Option.isNone_iff_eq_none] at hp
  obtain ⟨⟨⟨⟨h1, h2⟩, h3⟩, h4⟩, ⟨-, h5⟩, h6⟩ := hp
  simp only [if_neg hty] at h6
  have hs : (s.session? c.sess).isNone = false := by
    cases h : s.session? c.sess <;> simp_all
  have hb : ¬ (r.acc = .rwb ∨ r.acc = .rwbs) := by rcases ha with h | h | h <;> simp [h]
  unfold State.objCmd State.inCmd
  simp only [h1, hs, Bool.not_true, Bool.false_eq_true, if_false, State.objWrite, h3, ne_eq, not_true, hf, h5, h4, or_false,
    if_neg hty, State.writeValue, h6, hb, hc, hw]
  unfold State.written State.heldBy State.noteCmd
  simp [hf]

/-- The same for a table, whose open transfer the write abandons (R318). -/
theorem State.tableCmd_written {s t : State} {c : Ctx} {k : Nat} {d : Bytes} {a : Obj.Acc} (hp : s.passes c k 13 d = true)
    (hk : Obj.kind k = some (13, a, false)) (ha : a = .rw ∨ a = .wo ∨ a = .rws)
    (hw : ∀ l, ((s.touch c).dropTransfer c.sess).writeRule c k (Obj.decode 13 d) d l = (t, 0)) : s.tableCmd c k d = t.written k d := by
  obtain ⟨r, g, hf, h13, rfl, hc⟩ : ∃ r g, Obj.find k = some (r, g) ∧ 13 = r.ty ∧ a = r.acc ∧ r.ctr = false := by
    unfold Obj.kind at hk
    cases h : Obj.find k with
    | none => rw [h] at hk; cases hk
    | some p =>
      rw [h] at hk
      simp only [Option.map_some, Option.some.injEq, Prod.mk.injEq] at hk
      exact ⟨p.1, p.2, rfl, hk.1.symm, hk.2.1.symm, hk.2.2⟩
  simp only [State.passes, hf, Bool.and_eq_true, beq_iff_eq, Option.isNone_iff_eq_none] at hp
  obtain ⟨⟨⟨⟨h1, h2⟩, h3⟩, h4⟩, ⟨-, h5⟩, h6⟩ := hp
  simp only [if_true] at h6
  have hs : (s.session? c.sess).isNone = false := by
    cases h : s.session? c.sess <;> simp_all
  have hb : ¬ (r.acc = .rwb ∨ r.acc = .rwbs) := by rcases ha with h | h | h <;> simp [h]
  unfold State.tableCmd State.objCmd State.inCmd
  simp only [h1, hs, Bool.not_true, Bool.false_eq_true, if_false, State.objWrite, h3, ne_eq, not_true, hf, h5, h4, or_false,
    ← h13, if_true, State.writeValue, h6, hb, hc, hw]
  unfold State.written State.heldBy State.noteCmd
  simp [hf]

theorem Obj.kind_type {k ty : Nat} {a : Obj.Acc} {b : Bool} (hk : Obj.kind k = some (ty, a, b)) : keyType k = ty := by
  unfold Obj.kind at hk
  unfold keyType
  cases h : Obj.find k with
  | none => rw [h] at hk; cases hk
  | some p =>
    rw [h] at hk
    simp only [Option.map_some, Option.some.injEq, Prod.mk.injEq] at hk
    exact hk.1

/-- The same for a number that the object's width holds. -/
theorem State.numCmd_written {s t : State} {c : Ctx} {k v ty : Nat} {a : Obj.Acc} (hk : Obj.kind k = some (ty, a, false))
    (hs : Obj.tySigned ty = false) (h13 : ty ≠ 13) (hv : v < 2 ^ (8 * Obj.tyBytes ty)) (ha : a = .rw ∨ a = .wo ∨ a = .rws)
    (hp : s.passes c k ty (le (Obj.tyBytes ty) v) = true)
    (hw : ∀ l, (s.touch c).writeRule c k (v : Nat) (le (Obj.tyBytes ty) v) l = (t, 0)) :
    s.numCmd c k v = t.written k (le (Obj.tyBytes ty) v) := by
  unfold State.numCmd
  rw [Obj.kind_type hk]
  simp only [if_pos hv]
  refine State.objCmd_written hp hk h13 ha (fun l => ?_)
  rw [Obj.decode, hs, unle_le, Nat.mod_eq_of_lt (by rwa [show 256 = 2 ^ 8 by rfl, ← Nat.pow_mul])]
  exact hw l

end Machine

end Sys2Proof
end

