-- ==== Sys2Proof/Laws/Rules.lean ====
section
/-! SUPPORT. For each command that is a write of one object: the kind of its object, and the rule of its own that an accepted
write comes to. -/

namespace Sys2Proof.Machine

theorem Obj.groupOf_head {idx : Nat} {g : Obj.ObjGroup} {t : List Obj.ObjGroup} (h1 : g.base ≤ idx)
    (h2 : (idx - g.base) % g.stride = 0) (h3 : (idx - g.base) / g.stride < g.count) :
    Obj.groupOf idx (g :: t) = some (g, (idx - g.base) / g.stride) := if_pos ⟨h1, h2, h3⟩

theorem Obj.groupOf_tail {idx : Nat} {g : Obj.ObjGroup} {t : List Obj.ObjGroup}
    (h : ¬ (g.base ≤ idx ∧ (idx - g.base) % g.stride = 0 ∧ (idx - g.base) / g.stride < g.count)) :
    Obj.groupOf idx (g :: t) = Obj.groupOf idx t := if_neg h

/-- An object's kind from its group. -/
theorem Obj.kind_of {k i : Nat} {g : Obj.ObjGroup} (h : Obj.groupOf (k / 256) Obj.groups = some (g, i)) (hb : g.base ≠ 0x6C03) :
    Obj.kind k = (g.rows.find? (fun r => r.sub == k % 256)).map (fun r => (r.ty, r.acc, r.ctr)) := by
  unfold Obj.kind Obj.find
  rw [h]
  simp only [hb, false_and, if_false, Option.map_map]
  rfl

theorem Obj.groupOf_4000 (i : Nat) (h : i < 128) : Obj.groupOf (0x4000 + 0x20 * i) Obj.groups = some (⟨0x4000, 0x20, 128, Obj.rows4000⟩, i) := by
  unfold Obj.groups Obj.groups0 Obj.groups1 Obj.groups2 Obj.groups3
  simp only [List.cons_append, List.nil_append]
  repeat (refine (Obj.groupOf_tail (by dsimp only; omega)).trans ?_)
  refine (Obj.groupOf_head (by dsimp only; omega) (by dsimp only; omega) (by dsimp only; omega)).trans ?_
  simp

theorem Obj.groupOf_6C00 (i : Nat) (h : i < 174) : Obj.groupOf (0x6C00 + 4 * i) Obj.groups = some (⟨0x6C00, 4, 174, Obj.rows6C00⟩, i) := by
  unfold Obj.groups Obj.groups0 Obj.groups1 Obj.groups2 Obj.groups3
  simp only [List.cons_append, List.nil_append]
  repeat (refine (Obj.groupOf_tail (by dsimp only; omega)).trans ?_)
  refine (Obj.groupOf_head (by dsimp only; omega) (by dsimp only; omega) (by dsimp only; omega)).trans ?_
  simp

theorem Obj.groupOf_6C01 (i : Nat) (h : i < 174) : Obj.groupOf (0x6C01 + 4 * i) Obj.groups = some (⟨0x6C01, 4, 174, Obj.rows6C01⟩, i) := by
  unfold Obj.groups Obj.groups0 Obj.groups1 Obj.groups2 Obj.groups3
  simp only [List.cons_append, List.nil_append]
  repeat (refine (Obj.groupOf_tail (by dsimp only; omega)).trans ?_)
  refine (Obj.groupOf_head (by dsimp only; omega) (by dsimp only; omega) (by dsimp only; omega)).trans ?_
  simp

theorem Obj.groupOf_6C02 (i : Nat) (h : i < 174) : Obj.groupOf (0x6C02 + 4 * i) Obj.groups = some (⟨0x6C02, 4, 174, Obj.rows6C02⟩, i) := by
  unfold Obj.groups Obj.groups0 Obj.groups1 Obj.groups2 Obj.groups3
  simp only [List.cons_append, List.nil_append]
  repeat (refine (Obj.groupOf_tail (by dsimp only; omega)).trans ?_)
  refine (Obj.groupOf_head (by dsimp only; omega) (by dsimp only; omega) (by dsimp only; omega)).trans ?_
  simp

theorem Obj.groupOf_8000 (i : Nat) (h : i < 128) : Obj.groupOf (0x8000 + i) Obj.groups = some (⟨0x8000, 1, 128, Obj.rows8000⟩, i) := by
  unfold Obj.groups Obj.groups0 Obj.groups1 Obj.groups2 Obj.groups3
  simp only [List.cons_append, List.nil_append]
  repeat (refine (Obj.groupOf_tail (by dsimp only; omega)).trans ?_)
  refine (Obj.groupOf_head (by dsimp only; omega) (by dsimp only; omega) (by dsimp only; omega)).trans ?_
  simp

theorem Obj.kind_JOB_ABORT : Obj.kind Obj.JOB_ABORT = some (4, .wo, false) := by decide

theorem State.writeRule_JOB_ABORT (s : State) (c : Ctx) (v : Int) (d : Bytes) (l : Spans) :
    s.writeRule c Obj.JOB_ABORT v d l = s.abortJob v.toNat := by
  have hk : ∃ k, k = Obj.JOB_ABORT ∧ k = 0x200008 := ⟨_, rfl, by simp only [Obj.JOB_ABORT]⟩
  obtain ⟨k, hk, hv⟩ := hk
  rw [← hk]
  simp (disch := (first | omega | (simp only [Obj.CAL_ACCEPT, Obj.CAL_REJECT, Obj.CAL_RESTORE, Obj.CAL_RUN, Obj.CIC_CAP_GPIO, Obj.CIC_WAKE_PIN, Obj.COMMIT_CANCEL, Obj.FFY_RESUME, Obj.HALO_PRES_WIN, Obj.JNL_RING_MASK, Obj.JNL_STORE_MIB, Obj.JOB_ABORT, Obj.PPS_IN_ENABLE, Obj.PPS_IN_SOURCE, Obj.PSN_NEXT, Obj.PTP_DOMAIN, Obj.PTP_ENABLE, Obj.PWR_TARGET, Obj.RST_REQUEST, Obj.TIME_PREF, Obj.TIME_STEP]; omega))) only [State.writeRule, State.writeEngine, ↓if_pos, ↓if_neg]

theorem Obj.kind_PSN_NEXT : Obj.kind Obj.PSN_NEXT = some (4, .rw, false) := by decide

theorem State.writeRule_PSN_NEXT (s : State) (c : Ctx) (v : Int) (d : Bytes) (l : Spans) :
    s.writeRule c Obj.PSN_NEXT v d l = s.writePsn v.toNat := by
  have hk : ∃ k, k = Obj.PSN_NEXT ∧ k = 0x200009 := ⟨_, rfl, by simp only [Obj.PSN_NEXT]⟩
  obtain ⟨k, hk, hv⟩ := hk
  rw [← hk]
  simp (disch := (first | omega | (simp only [Obj.CAL_ACCEPT, Obj.CAL_REJECT, Obj.CAL_RESTORE, Obj.CAL_RUN, Obj.CIC_CAP_GPIO, Obj.CIC_WAKE_PIN, Obj.COMMIT_CANCEL, Obj.FFY_RESUME, Obj.HALO_PRES_WIN, Obj.JNL_RING_MASK, Obj.JNL_STORE_MIB, Obj.JOB_ABORT, Obj.PPS_IN_ENABLE, Obj.PPS_IN_SOURCE, Obj.PSN_NEXT, Obj.PTP_DOMAIN, Obj.PTP_ENABLE, Obj.PWR_TARGET, Obj.RST_REQUEST, Obj.TIME_PREF, Obj.TIME_STEP]; omega))) only [State.writeRule, State.writeEngine, ↓if_pos, ↓if_neg]

theorem Obj.kind_COMMIT_CANCEL : Obj.kind Obj.COMMIT_CANCEL = some (4, .wo, false) := by decide

theorem State.writeRule_COMMIT_CANCEL (s : State) (c : Ctx) (v : Int) (d : Bytes) (l : Spans) :
    s.writeRule c Obj.COMMIT_CANCEL v d l = s.cancelSet v.toNat (s.isSuper c.sess) := by
  have hk : ∃ k, k = Obj.COMMIT_CANCEL ∧ k = 0x20000d := ⟨_, rfl, by simp only [Obj.COMMIT_CANCEL]⟩
  obtain ⟨k, hk, hv⟩ := hk
  rw [← hk]
  simp (disch := (first | omega | (simp only [Obj.CAL_ACCEPT, Obj.CAL_REJECT, Obj.CAL_RESTORE, Obj.CAL_RUN, Obj.CIC_CAP_GPIO, Obj.CIC_WAKE_PIN, Obj.COMMIT_CANCEL, Obj.FFY_RESUME, Obj.HALO_PRES_WIN, Obj.JNL_RING_MASK, Obj.JNL_STORE_MIB, Obj.JOB_ABORT, Obj.PPS_IN_ENABLE, Obj.PPS_IN_SOURCE, Obj.PSN_NEXT, Obj.PTP_DOMAIN, Obj.PTP_ENABLE, Obj.PWR_TARGET, Obj.RST_REQUEST, Obj.TIME_PREF, Obj.TIME_STEP]; omega))) only [State.writeRule, State.writeEngine, ↓if_pos, ↓if_neg]

theorem Obj.kind_FFY_RESUME : Obj.kind Obj.FFY_RESUME = some (2, .wo, false) := by decide

theorem State.writeRule_FFY_RESUME (s : State) (c : Ctx) (v : Int) (d : Bytes) (l : Spans) :
    s.writeRule c Obj.FFY_RESUME v d l = (s.resume, 0) := by
  have hk : ∃ k, k = Obj.FFY_RESUME ∧ k = 0x20400f := ⟨_, rfl, by simp only [Obj.FFY_RESUME]⟩
  obtain ⟨k, hk, hv⟩ := hk
  rw [← hk]
  simp (disch := (first | omega | (simp only [Obj.CAL_ACCEPT, Obj.CAL_REJECT, Obj.CAL_RESTORE, Obj.CAL_RUN, Obj.CIC_CAP_GPIO, Obj.CIC_WAKE_PIN, Obj.COMMIT_CANCEL, Obj.FFY_RESUME, Obj.HALO_PRES_WIN, Obj.JNL_RING_MASK, Obj.JNL_STORE_MIB, Obj.JOB_ABORT, Obj.PPS_IN_ENABLE, Obj.PPS_IN_SOURCE, Obj.PSN_NEXT, Obj.PTP_DOMAIN, Obj.PTP_ENABLE, Obj.PWR_TARGET, Obj.RST_REQUEST, Obj.TIME_PREF, Obj.TIME_STEP]; omega))) only [State.writeRule, State.writeEngine, ↓if_pos, ↓if_neg]

theorem Obj.kind_CAL_ACCEPT : Obj.kind Obj.CAL_ACCEPT = some (4, .wo, false) := by decide

theorem State.writeRule_CAL_ACCEPT (s : State) (c : Ctx) (v : Int) (d : Bytes) (l : Spans) :
    s.writeRule c Obj.CAL_ACCEPT v d l = s.calAcceptSet v.toNat := by
  have hk : ∃ k, k = Obj.CAL_ACCEPT ∧ k = 0x20600c := ⟨_, rfl, by simp only [Obj.CAL_ACCEPT]⟩
  obtain ⟨k, hk, hv⟩ := hk
  rw [← hk]
  simp (disch := (first | omega | (simp only [Obj.CAL_ACCEPT, Obj.CAL_REJECT, Obj.CAL_RESTORE, Obj.CAL_RUN, Obj.CIC_CAP_GPIO, Obj.CIC_WAKE_PIN, Obj.COMMIT_CANCEL, Obj.FFY_RESUME, Obj.HALO_PRES_WIN, Obj.JNL_RING_MASK, Obj.JNL_STORE_MIB, Obj.JOB_ABORT, Obj.PPS_IN_ENABLE, Obj.PPS_IN_SOURCE, Obj.PSN_NEXT, Obj.PTP_DOMAIN, Obj.PTP_ENABLE, Obj.PWR_TARGET, Obj.RST_REQUEST, Obj.TIME_PREF, Obj.TIME_STEP]; omega))) only [State.writeRule, State.writeEngine, ↓if_pos, ↓if_neg]

theorem Obj.kind_CAL_REJECT : Obj.kind Obj.CAL_REJECT = some (4, .wo, false) := by decide

theorem State.writeRule_CAL_REJECT (s : State) (c : Ctx) (v : Int) (d : Bytes) (l : Spans) :
    s.writeRule c Obj.CAL_REJECT v d l = s.calRejectSet v.toNat := by
  have hk : ∃ k, k = Obj.CAL_REJECT ∧ k = 0x20600d := ⟨_, rfl, by simp only [Obj.CAL_REJECT]⟩
  obtain ⟨k, hk, hv⟩ := hk
  rw [← hk]
  simp (disch := (first | omega | (simp only [Obj.CAL_ACCEPT, Obj.CAL_REJECT, Obj.CAL_RESTORE, Obj.CAL_RUN, Obj.CIC_CAP_GPIO, Obj.CIC_WAKE_PIN, Obj.COMMIT_CANCEL, Obj.FFY_RESUME, Obj.HALO_PRES_WIN, Obj.JNL_RING_MASK, Obj.JNL_STORE_MIB, Obj.JOB_ABORT, Obj.PPS_IN_ENABLE, Obj.PPS_IN_SOURCE, Obj.PSN_NEXT, Obj.PTP_DOMAIN, Obj.PTP_ENABLE, Obj.PWR_TARGET, Obj.RST_REQUEST, Obj.TIME_PREF, Obj.TIME_STEP]; omega))) only [State.writeRule, State.writeEngine, ↓if_pos, ↓if_neg]

theorem Obj.kind_CAL_RUN : Obj.kind Obj.CAL_RUN = some (4, .wo, false) := by decide

theorem State.writeRule_CAL_RUN (s : State) (c : Ctx) (v : Int) (d : Bytes) (l : Spans) :
    s.writeRule c Obj.CAL_RUN v d l = s.calRunSet v.toNat := by
  have hk : ∃ k, k = Obj.CAL_RUN ∧ k = 0x20600e := ⟨_, rfl, by simp only [Obj.CAL_RUN]⟩
  obtain ⟨k, hk, hv⟩ := hk
  rw [← hk]
  simp (disch := (first | omega | (simp only [Obj.CAL_ACCEPT, Obj.CAL_REJECT, Obj.CAL_RESTORE, Obj.CAL_RUN, Obj.CIC_CAP_GPIO, Obj.CIC_WAKE_PIN, Obj.COMMIT_CANCEL, Obj.FFY_RESUME, Obj.HALO_PRES_WIN, Obj.JNL_RING_MASK, Obj.JNL_STORE_MIB, Obj.JOB_ABORT, Obj.PPS_IN_ENABLE, Obj.PPS_IN_SOURCE, Obj.PSN_NEXT, Obj.PTP_DOMAIN, Obj.PTP_ENABLE, Obj.PWR_TARGET, Obj.RST_REQUEST, Obj.TIME_PREF, Obj.TIME_STEP]; omega))) only [State.writeRule, State.writeEngine, ↓if_pos, ↓if_neg]

theorem Obj.kind_CAL_RESTORE : Obj.kind Obj.CAL_RESTORE = some (13, .wo, false) := by decide

theorem State.writeRule_CAL_RESTORE (s : State) (c : Ctx) (v : Int) (d : Bytes) (l : Spans) :
    s.writeRule c Obj.CAL_RESTORE v d l = s.calRestoreSet d := by
  have hk : ∃ k, k = Obj.CAL_RESTORE ∧ k = 0x206010 := ⟨_, rfl, by simp only [Obj.CAL_RESTORE]⟩
  obtain ⟨k, hk, hv⟩ := hk
  rw [← hk]
  simp (disch := (first | omega | (simp only [Obj.CAL_ACCEPT, Obj.CAL_REJECT, Obj.CAL_RESTORE, Obj.CAL_RUN, Obj.CIC_CAP_GPIO, Obj.CIC_WAKE_PIN, Obj.COMMIT_CANCEL, Obj.FFY_RESUME, Obj.HALO_PRES_WIN, Obj.JNL_RING_MASK, Obj.JNL_STORE_MIB, Obj.JOB_ABORT, Obj.PPS_IN_ENABLE, Obj.PPS_IN_SOURCE, Obj.PSN_NEXT, Obj.PTP_DOMAIN, Obj.PTP_ENABLE, Obj.PWR_TARGET, Obj.RST_REQUEST, Obj.TIME_PREF, Obj.TIME_STEP]; omega))) only [State.writeRule, State.writeEngine, ↓if_pos, ↓if_neg]

theorem Obj.kind_TIME_PREF : Obj.kind Obj.TIME_PREF = some (2, .rw, false) := by decide

theorem State.writeRule_TIME_PREF (s : State) (c : Ctx) (v : Int) (d : Bytes) (l : Spans) :
    s.writeRule c Obj.TIME_PREF v d l = s.timePrefSet v.toNat := by
  have hk : ∃ k, k = Obj.TIME_PREF ∧ k = 0x210005 := ⟨_, rfl, by simp only [Obj.TIME_PREF]⟩
  obtain ⟨k, hk, hv⟩ := hk
  rw [← hk]
  simp (disch := (first | omega | (simp only [Obj.CAL_ACCEPT, Obj.CAL_REJECT, Obj.CAL_RESTORE, Obj.CAL_RUN, Obj.CIC_CAP_GPIO, Obj.CIC_WAKE_PIN, Obj.COMMIT_CANCEL, Obj.FFY_RESUME, Obj.HALO_PRES_WIN, Obj.JNL_RING_MASK, Obj.JNL_STORE_MIB, Obj.JOB_ABORT, Obj.PPS_IN_ENABLE, Obj.PPS_IN_SOURCE, Obj.PSN_NEXT, Obj.PTP_DOMAIN, Obj.PTP_ENABLE, Obj.PWR_TARGET, Obj.RST_REQUEST, Obj.TIME_PREF, Obj.TIME_STEP]; omega))) only [State.writeRule, State.writeEngine, ↓if_pos, ↓if_neg]

theorem Obj.kind_TIME_STEP : Obj.kind Obj.TIME_STEP = some (13, .wo, false) := by decide

theorem State.writeRule_TIME_STEP (s : State) (c : Ctx) (v : Int) (d : Bytes) (l : Spans) :
    s.writeRule c Obj.TIME_STEP v d l = s.hostStep d := by
  have hk : ∃ k, k = Obj.TIME_STEP ∧ k = 0x21000d := ⟨_, rfl, by simp only [Obj.TIME_STEP]⟩
  obtain ⟨k, hk, hv⟩ := hk
  rw [← hk]
  simp (disch := (first | omega | (simp only [Obj.CAL_ACCEPT, Obj.CAL_REJECT, Obj.CAL_RESTORE, Obj.CAL_RUN, Obj.CIC_CAP_GPIO, Obj.CIC_WAKE_PIN, Obj.COMMIT_CANCEL, Obj.FFY_RESUME, Obj.HALO_PRES_WIN, Obj.JNL_RING_MASK, Obj.JNL_STORE_MIB, Obj.JOB_ABORT, Obj.PPS_IN_ENABLE, Obj.PPS_IN_SOURCE, Obj.PSN_NEXT, Obj.PTP_DOMAIN, Obj.PTP_ENABLE, Obj.PWR_TARGET, Obj.RST_REQUEST, Obj.TIME_PREF, Obj.TIME_STEP]; omega))) only [State.writeRule, State.writeEngine, ↓if_pos, ↓if_neg]

theorem Obj.kind_PWR_TARGET : Obj.kind Obj.PWR_TARGET = some (2, .rws, false) := by decide

theorem State.writeRule_PWR_TARGET (s : State) (c : Ctx) (v : Int) (d : Bytes) (l : Spans) :
    s.writeRule c Obj.PWR_TARGET v d l = s.pwrTargetSet v.toNat := by
  have hk : ∃ k, k = Obj.PWR_TARGET ∧ k = 0x220002 := ⟨_, rfl, by simp only [Obj.PWR_TARGET]⟩
  obtain ⟨k, hk, hv⟩ := hk
  rw [← hk]
  simp (disch := (first | omega | (simp only [Obj.CAL_ACCEPT, Obj.CAL_REJECT, Obj.CAL_RESTORE, Obj.CAL_RUN, Obj.CIC_CAP_GPIO, Obj.CIC_WAKE_PIN, Obj.COMMIT_CANCEL, Obj.FFY_RESUME, Obj.HALO_PRES_WIN, Obj.JNL_RING_MASK, Obj.JNL_STORE_MIB, Obj.JOB_ABORT, Obj.PPS_IN_ENABLE, Obj.PPS_IN_SOURCE, Obj.PSN_NEXT, Obj.PTP_DOMAIN, Obj.PTP_ENABLE, Obj.PWR_TARGET, Obj.RST_REQUEST, Obj.TIME_PREF, Obj.TIME_STEP]; omega))) only [State.writeRule, State.writeEngine, ↓if_pos, ↓if_neg]

theorem Obj.kind_RST_REQUEST : Obj.kind Obj.RST_REQUEST = some (2, .rws, false) := by decide

theorem State.writeRule_RST_REQUEST (s : State) (c : Ctx) (v : Int) (d : Bytes) (l : Spans) :
    s.writeRule c Obj.RST_REQUEST v d l = s.rstRequestSet v.toNat := by
  have hk : ∃ k, k = Obj.RST_REQUEST ∧ k = 0x230005 := ⟨_, rfl, by simp only [Obj.RST_REQUEST]⟩
  obtain ⟨k, hk, hv⟩ := hk
  rw [← hk]
  simp (disch := (first | omega | (simp only [Obj.CAL_ACCEPT, Obj.CAL_REJECT, Obj.CAL_RESTORE, Obj.CAL_RUN, Obj.CIC_CAP_GPIO, Obj.CIC_WAKE_PIN, Obj.COMMIT_CANCEL, Obj.FFY_RESUME, Obj.HALO_PRES_WIN, Obj.JNL_RING_MASK, Obj.JNL_STORE_MIB, Obj.JOB_ABORT, Obj.PPS_IN_ENABLE, Obj.PPS_IN_SOURCE, Obj.PSN_NEXT, Obj.PTP_DOMAIN, Obj.PTP_ENABLE, Obj.PWR_TARGET, Obj.RST_REQUEST, Obj.TIME_PREF, Obj.TIME_STEP]; omega))) only [State.writeRule, State.writeEngine, ↓if_pos, ↓if_neg]

theorem Obj.kind_JNL_STORE_MIB : Obj.kind Obj.JNL_STORE_MIB = some (3, .rw, false) := by decide

theorem State.writeRule_JNL_STORE_MIB (s : State) (c : Ctx) (v : Int) (d : Bytes) (l : Spans) :
    s.writeRule c Obj.JNL_STORE_MIB v d l = s.regionSet Obj.JNL_STORE_MIB regJournal v.toNat := by
  have hk : ∃ k, k = Obj.JNL_STORE_MIB ∧ k = 0x180001 := ⟨_, rfl, by simp only [Obj.JNL_STORE_MIB]⟩
  obtain ⟨k, hk, hv⟩ := hk
  simp only [← hk]
  simp (disch := (first | omega | (simp only [Obj.CAL_ACCEPT, Obj.CAL_REJECT, Obj.CAL_RESTORE, Obj.CAL_RUN, Obj.CIC_CAP_GPIO, Obj.CIC_WAKE_PIN, Obj.COMMIT_CANCEL, Obj.FFY_RESUME, Obj.HALO_PRES_WIN, Obj.JNL_RING_MASK, Obj.JNL_STORE_MIB, Obj.JOB_ABORT, Obj.PPS_IN_ENABLE, Obj.PPS_IN_SOURCE, Obj.PSN_NEXT, Obj.PTP_DOMAIN, Obj.PTP_ENABLE, Obj.PWR_TARGET, Obj.RST_REQUEST, Obj.TIME_PREF, Obj.TIME_STEP]; omega))) only [State.writeRule, State.writeEngine, ↓if_pos, ↓if_neg]

theorem Obj.kind_SEC_LIFECYCLE : Obj.kind Obj.SEC_LIFECYCLE = some (2, .rws, false) := by decide

theorem State.writeRule_SEC_LIFECYCLE (s : State) (c : Ctx) (v : Int) (d : Bytes) (l : Spans) :
    s.writeRule c Obj.SEC_LIFECYCLE v d l = s.lifecycleSet v.toNat (s.isSuper c.sess) (decide (2 ≤ c.transport)) := by
  have hk : ∃ k, k = Obj.SEC_LIFECYCLE ∧ k = 0x190001 := ⟨_, rfl, by simp only [Obj.SEC_LIFECYCLE]⟩
  obtain ⟨k, hk, hv⟩ := hk
  rw [← hk]
  simp (disch := (first | omega | (simp only [Obj.CAL_ACCEPT, Obj.CAL_REJECT, Obj.CAL_RESTORE, Obj.CAL_RUN, Obj.CIC_CAP_GPIO, Obj.CIC_WAKE_PIN, Obj.COMMIT_CANCEL, Obj.FFY_RESUME, Obj.HALO_PRES_WIN, Obj.JNL_RING_MASK, Obj.JNL_STORE_MIB, Obj.JOB_ABORT, Obj.PPS_IN_ENABLE, Obj.PPS_IN_SOURCE, Obj.PSN_NEXT, Obj.PTP_DOMAIN, Obj.PTP_ENABLE, Obj.PWR_TARGET, Obj.RST_REQUEST, Obj.SEC_DEBUG_KEY, Obj.SEC_DEBUG_RESPONSE, Obj.SEC_KEY_PROVISION, Obj.SEC_KEY_REVOKE, Obj.SEC_LIFECYCLE, Obj.SEC_MAKER_KEY, Obj.SEC_SVN_COMMIT, Obj.TIME_PREF, Obj.TIME_STEP]; omega))) only [State.writeRule, State.writeEngine, State.writeSec, ↓if_pos, ↓if_neg]

theorem Obj.kind_SEC_SVN_COMMIT : Obj.kind Obj.SEC_SVN_COMMIT = some (2, .rws, false) := by decide

theorem State.writeRule_SEC_SVN_COMMIT (s : State) (c : Ctx) (v : Int) (d : Bytes) (l : Spans) :
    s.writeRule c Obj.SEC_SVN_COMMIT v d l = (s.svnCommit, 0) := by
  have hk : ∃ k, k = Obj.SEC_SVN_COMMIT ∧ k = 0x190006 := ⟨_, rfl, by simp only [Obj.SEC_SVN_COMMIT]⟩
  obtain ⟨k, hk, hv⟩ := hk
  rw [← hk]
  simp (disch := (first | omega | (simp only [Obj.CAL_ACCEPT, Obj.CAL_REJECT, Obj.CAL_RESTORE, Obj.CAL_RUN, Obj.CIC_CAP_GPIO, Obj.CIC_WAKE_PIN, Obj.COMMIT_CANCEL, Obj.FFY_RESUME, Obj.HALO_PRES_WIN, Obj.JNL_RING_MASK, Obj.JNL_STORE_MIB, Obj.JOB_ABORT, Obj.PPS_IN_ENABLE, Obj.PPS_IN_SOURCE, Obj.PSN_NEXT, Obj.PTP_DOMAIN, Obj.PTP_ENABLE, Obj.PWR_TARGET, Obj.RST_REQUEST, Obj.SEC_DEBUG_KEY, Obj.SEC_DEBUG_RESPONSE, Obj.SEC_KEY_PROVISION, Obj.SEC_KEY_REVOKE, Obj.SEC_LIFECYCLE, Obj.SEC_MAKER_KEY, Obj.SEC_SVN_COMMIT, Obj.TIME_PREF, Obj.TIME_STEP]; omega))) only [State.writeRule, State.writeEngine, State.writeSec, ↓if_pos, ↓if_neg]

theorem Obj.kind_SEC_KEY_PROVISION : Obj.kind Obj.SEC_KEY_PROVISION = some (13, .wo, false) := by decide

theorem State.writeRule_SEC_KEY_PROVISION (s : State) (c : Ctx) (v : Int) (d : Bytes) (l : Spans) :
    s.writeRule c Obj.SEC_KEY_PROVISION v d l = s.keyProvision d (s.isSuper c.sess) (decide (2 ≤ c.transport)) := by
  have hk : ∃ k, k = Obj.SEC_KEY_PROVISION ∧ k = 0x190007 := ⟨_, rfl, by simp only [Obj.SEC_KEY_PROVISION]⟩
  obtain ⟨k, hk, hv⟩ := hk
  rw [← hk]
  simp (disch := (first | omega | (simp only [Obj.CAL_ACCEPT, Obj.CAL_REJECT, Obj.CAL_RESTORE, Obj.CAL_RUN, Obj.CIC_CAP_GPIO, Obj.CIC_WAKE_PIN, Obj.COMMIT_CANCEL, Obj.FFY_RESUME, Obj.HALO_PRES_WIN, Obj.JNL_RING_MASK, Obj.JNL_STORE_MIB, Obj.JOB_ABORT, Obj.PPS_IN_ENABLE, Obj.PPS_IN_SOURCE, Obj.PSN_NEXT, Obj.PTP_DOMAIN, Obj.PTP_ENABLE, Obj.PWR_TARGET, Obj.RST_REQUEST, Obj.SEC_DEBUG_KEY, Obj.SEC_DEBUG_RESPONSE, Obj.SEC_KEY_PROVISION, Obj.SEC_KEY_REVOKE, Obj.SEC_LIFECYCLE, Obj.SEC_MAKER_KEY, Obj.SEC_SVN_COMMIT, Obj.TIME_PREF, Obj.TIME_STEP]; omega))) only [State.writeRule, State.writeEngine, State.writeSec, ↓if_pos, ↓if_neg]

theorem Obj.kind_SEC_KEY_REVOKE : Obj.kind Obj.SEC_KEY_REVOKE = some (2, .rws, false) := by decide

theorem State.writeRule_SEC_KEY_REVOKE (s : State) (c : Ctx) (v : Int) (d : Bytes) (l : Spans) :
    s.writeRule c Obj.SEC_KEY_REVOKE v d l = s.keyRevoke v.toNat (s.slotOf c.sess) := by
  have hk : ∃ k, k = Obj.SEC_KEY_REVOKE ∧ k = 0x190009 := ⟨_, rfl, by simp only [Obj.SEC_KEY_REVOKE]⟩
  obtain ⟨k, hk, hv⟩ := hk
  rw [← hk]
  simp (disch := (first | omega | (simp only [Obj.CAL_ACCEPT, Obj.CAL_REJECT, Obj.CAL_RESTORE, Obj.CAL_RUN, Obj.CIC_CAP_GPIO, Obj.CIC_WAKE_PIN, Obj.COMMIT_CANCEL, Obj.FFY_RESUME, Obj.HALO_PRES_WIN, Obj.JNL_RING_MASK, Obj.JNL_STORE_MIB, Obj.JOB_ABORT, Obj.PPS_IN_ENABLE, Obj.PPS_IN_SOURCE, Obj.PSN_NEXT, Obj.PTP_DOMAIN, Obj.PTP_ENABLE, Obj.PWR_TARGET, Obj.RST_REQUEST, Obj.SEC_DEBUG_KEY, Obj.SEC_DEBUG_RESPONSE, Obj.SEC_KEY_PROVISION, Obj.SEC_KEY_REVOKE, Obj.SEC_LIFECYCLE, Obj.SEC_MAKER_KEY, Obj.SEC_SVN_COMMIT, Obj.TIME_PREF, Obj.TIME_STEP]; omega))) only [State.writeRule, State.writeEngine, State.writeSec, ↓if_pos, ↓if_neg]

theorem Obj.kind_SEC_MAKER_KEY : Obj.kind Obj.SEC_MAKER_KEY = some (13, .wo, false) := by decide

theorem State.writeRule_SEC_MAKER_KEY (s : State) (c : Ctx) (v : Int) (d : Bytes) (l : Spans) :
    s.writeRule c Obj.SEC_MAKER_KEY v d l = s.makerKeySet d (s.isSuper c.sess) (decide (2 ≤ c.transport)) := by
  have hk : ∃ k, k = Obj.SEC_MAKER_KEY ∧ k = 0x19000a := ⟨_, rfl, by simp only [Obj.SEC_MAKER_KEY]⟩
  obtain ⟨k, hk, hv⟩ := hk
  rw [← hk]
  simp (disch := (first | omega | (simp only [Obj.CAL_ACCEPT, Obj.CAL_REJECT, Obj.CAL_RESTORE, Obj.CAL_RUN, Obj.CIC_CAP_GPIO, Obj.CIC_WAKE_PIN, Obj.COMMIT_CANCEL, Obj.FFY_RESUME, Obj.HALO_PRES_WIN, Obj.JNL_RING_MASK, Obj.JNL_STORE_MIB, Obj.JOB_ABORT, Obj.PPS_IN_ENABLE, Obj.PPS_IN_SOURCE, Obj.PSN_NEXT, Obj.PTP_DOMAIN, Obj.PTP_ENABLE, Obj.PWR_TARGET, Obj.RST_REQUEST, Obj.SEC_DEBUG_KEY, Obj.SEC_DEBUG_RESPONSE, Obj.SEC_KEY_PROVISION, Obj.SEC_KEY_REVOKE, Obj.SEC_LIFECYCLE, Obj.SEC_MAKER_KEY, Obj.SEC_SVN_COMMIT, Obj.TIME_PREF, Obj.TIME_STEP]; omega))) only [State.writeRule, State.writeEngine, State.writeSec, ↓if_pos, ↓if_neg]

theorem Obj.kind_SEC_DEBUG_KEY : Obj.kind Obj.SEC_DEBUG_KEY = some (13, .wo, false) := by decide

theorem State.writeRule_SEC_DEBUG_KEY (s : State) (c : Ctx) (v : Int) (d : Bytes) (l : Spans) :
    s.writeRule c Obj.SEC_DEBUG_KEY v d l = s.debugKeySet d (s.isSuper c.sess) (decide (2 ≤ c.transport)) := by
  have hk : ∃ k, k = Obj.SEC_DEBUG_KEY ∧ k = 0x19000b := ⟨_, rfl, by simp only [Obj.SEC_DEBUG_KEY]⟩
  obtain ⟨k, hk, hv⟩ := hk
  rw [← hk]
  simp (disch := (first | omega | (simp only [Obj.CAL_ACCEPT, Obj.CAL_REJECT, Obj.CAL_RESTORE, Obj.CAL_RUN, Obj.CIC_CAP_GPIO, Obj.CIC_WAKE_PIN, Obj.COMMIT_CANCEL, Obj.FFY_RESUME, Obj.HALO_PRES_WIN, Obj.JNL_RING_MASK, Obj.JNL_STORE_MIB, Obj.JOB_ABORT, Obj.PPS_IN_ENABLE, Obj.PPS_IN_SOURCE, Obj.PSN_NEXT, Obj.PTP_DOMAIN, Obj.PTP_ENABLE, Obj.PWR_TARGET, Obj.RST_REQUEST, Obj.SEC_DEBUG_KEY, Obj.SEC_DEBUG_RESPONSE, Obj.SEC_KEY_PROVISION, Obj.SEC_KEY_REVOKE, Obj.SEC_LIFECYCLE, Obj.SEC_MAKER_KEY, Obj.SEC_SVN_COMMIT, Obj.TIME_PREF, Obj.TIME_STEP]; omega))) only [State.writeRule, State.writeEngine, State.writeSec, ↓if_pos, ↓if_neg]

theorem Obj.kind_SEC_DEBUG_RESPONSE : Obj.kind Obj.SEC_DEBUG_RESPONSE = some (13, .wo, false) := by decide

theorem State.writeRule_SEC_DEBUG_RESPONSE (s : State) (c : Ctx) (v : Int) (d : Bytes) (l : Spans) :
    s.writeRule c Obj.SEC_DEBUG_RESPONSE v d l = s.debugResponse d (s.isSuper c.sess) := by
  have hk : ∃ k, k = Obj.SEC_DEBUG_RESPONSE ∧ k = 0x19000d := ⟨_, rfl, by simp only [Obj.SEC_DEBUG_RESPONSE]⟩
  obtain ⟨k, hk, hv⟩ := hk
  rw [← hk]
  simp (disch := (first | omega | (simp only [Obj.CAL_ACCEPT, Obj.CAL_REJECT, Obj.CAL_RESTORE, Obj.CAL_RUN, Obj.CIC_CAP_GPIO, Obj.CIC_WAKE_PIN, Obj.COMMIT_CANCEL, Obj.FFY_RESUME, Obj.HALO_PRES_WIN, Obj.JNL_RING_MASK, Obj.JNL_STORE_MIB, Obj.JOB_ABORT, Obj.PPS_IN_ENABLE, Obj.PPS_IN_SOURCE, Obj.PSN_NEXT, Obj.PTP_DOMAIN, Obj.PTP_ENABLE, Obj.PWR_TARGET, Obj.RST_REQUEST, Obj.SEC_DEBUG_KEY, Obj.SEC_DEBUG_RESPONSE, Obj.SEC_KEY_PROVISION, Obj.SEC_KEY_REVOKE, Obj.SEC_LIFECYCLE, Obj.SEC_MAKER_KEY, Obj.SEC_SVN_COMMIT, Obj.TIME_PREF, Obj.TIME_STEP]; omega))) only [State.writeRule, State.writeEngine, State.writeSec, ↓if_pos, ↓if_neg]

theorem Obj.kind_SEC_DEBUG_STATE : Obj.kind Obj.SEC_DEBUG_STATE = some (2, .rws, false) := by decide

theorem State.writeRule_SEC_DEBUG_STATE (s : State) (c : Ctx) (v : Int) (d : Bytes) (l : Spans) :
    s.writeRule c Obj.SEC_DEBUG_STATE v d l = (s.debugClose, 0) := by
  have hk : ∃ k, k = Obj.SEC_DEBUG_STATE ∧ k = 0x19000e := ⟨_, rfl, by simp only [Obj.SEC_DEBUG_STATE]⟩
  obtain ⟨k, hk, hv⟩ := hk
  rw [← hk]
  simp (disch := (first | omega | (simp only [Obj.CAL_ACCEPT, Obj.CAL_REJECT, Obj.CAL_RESTORE, Obj.CAL_RUN, Obj.CIC_CAP_GPIO, Obj.CIC_WAKE_PIN, Obj.COMMIT_CANCEL, Obj.FFY_RESUME, Obj.HALO_PRES_WIN, Obj.JNL_RING_MASK, Obj.JNL_STORE_MIB, Obj.JOB_ABORT, Obj.PPS_IN_ENABLE, Obj.PPS_IN_SOURCE, Obj.PSN_NEXT, Obj.PTP_DOMAIN, Obj.PTP_ENABLE, Obj.PWR_TARGET, Obj.RST_REQUEST, Obj.SEC_DEBUG_KEY, Obj.SEC_DEBUG_RESPONSE, Obj.SEC_KEY_PROVISION, Obj.SEC_KEY_REVOKE, Obj.SEC_LIFECYCLE, Obj.SEC_MAKER_KEY, Obj.SEC_SVN_COMMIT, Obj.TIME_PREF, Obj.TIME_STEP, Obj.SEC_DEBUG_STATE]; omega))) only [State.writeRule, State.writeEngine, State.writeSec, ↓if_pos, ↓if_neg]

theorem Obj.kind_HL_ENABLE {i : Nat} (h : i < 128) : Obj.kind (Obj.HL_ENABLE i) = some (1, .rw, false) := by
  have e : Obj.HL_ENABLE i / 256 = 0x4000 + 0x20 * i := by simp only [Obj.HL_ENABLE]; omega
  have e2 : Obj.HL_ENABLE i % 256 = 2 := by simp only [Obj.HL_ENABLE]; omega
  rw [Obj.kind_of (by rw [e]; exact Obj.groupOf_4000 i h) (by decide), e2]
  decide

theorem State.writeRule_HL_ENABLE (s : State) (c : Ctx) (i : Nat) (h : i < 128) (v : Int) (d : Bytes) (l : Spans) :
    s.writeRule c (Obj.HL_ENABLE i) v d l = s.hlEnable i v.toNat := by
  have hk : ∃ k, k = Obj.HL_ENABLE i ∧ k = 0x400002 + 0x2000 * i := ⟨_, rfl, by simp only [Obj.HL_ENABLE]⟩
  obtain ⟨k, hk, hv⟩ := hk
  rw [← hk]
  have e : (k / 256 - 0x4000) / 0x20 = i := by omega
  simp (disch := (first | omega | (simp only [Obj.FFY_HOT_LIMIT, Obj.HL_ENABLE]; omega))) only [State.writeRule, State.writeHead, ↓if_pos, ↓if_neg, e]

theorem Obj.kind_AX_TARGET {i : Nat} (h : i < 24) : Obj.kind (Obj.AX_TARGET i) = some (11, .rw, false) :=
  (by decide : ∀ i : Fin 24, Obj.kind (Obj.AX_TARGET i.val) = some (11, .rw, false)) ⟨i, h⟩

theorem State.writeRule_AX_TARGET (s : State) (c : Ctx) (i : Nat) (h : i < 24) (v : Int) (d : Bytes) (l : Spans) :
    s.writeRule c (Obj.AX_TARGET i) v d l = s.axTargetSet i v := by
  have hk : ∃ k, k = Obj.AX_TARGET i ∧ k = 0x500001 + 0x4000 * i := ⟨_, rfl, by simp only [Obj.AX_TARGET]⟩
  obtain ⟨k, hk, hv⟩ := hk
  rw [← hk]
  have e : (k / 256 - 0x5000) / 0x40 = i := by omega
  simp (disch := (first | omega | (simp only [Obj.AX_ACC, Obj.AX_CAM_ENGAGE, Obj.AX_CUR_PWM, Obj.AX_DEC, Obj.AX_ENABLE, Obj.AX_ENC, Obj.AX_FE_PEAK, Obj.AX_HOME, Obj.AX_HOME_PIN, Obj.AX_IDLE_CUR, Obj.AX_JERK, Obj.AX_LIM_NEG_PIN, Obj.AX_LIM_POS_PIN, Obj.AX_LOOP, Obj.AX_MODE, Obj.AX_OUT_MODE, Obj.AX_RUN_CUR, Obj.AX_STOP, Obj.AX_TARGET, Obj.AX_VMAX]; omega))) only [State.writeRule, State.writeAxis, ↓if_pos, ↓if_neg, e]

theorem Obj.kind_AX_STOP {i : Nat} (h : i < 24) : Obj.kind (Obj.AX_STOP i) = some (2, .wo, false) :=
  (by decide : ∀ i : Fin 24, Obj.kind (Obj.AX_STOP i.val) = some (2, .wo, false)) ⟨i, h⟩

theorem State.writeRule_AX_STOP (s : State) (c : Ctx) (i : Nat) (h : i < 24) (v : Int) (d : Bytes) (l : Spans) :
    s.writeRule c (Obj.AX_STOP i) v d l = s.axStopSet i := by
  have hk : ∃ k, k = Obj.AX_STOP i ∧ k = 0x500006 + 0x4000 * i := ⟨_, rfl, by simp only [Obj.AX_STOP]⟩
  obtain ⟨k, hk, hv⟩ := hk
  rw [← hk]
  have e : (k / 256 - 0x5000) / 0x40 = i := by omega
  simp (disch := (first | omega | (simp only [Obj.AX_ACC, Obj.AX_CAM_ENGAGE, Obj.AX_CUR_PWM, Obj.AX_DEC, Obj.AX_ENABLE, Obj.AX_ENC, Obj.AX_FE_PEAK, Obj.AX_HOME, Obj.AX_HOME_PIN, Obj.AX_IDLE_CUR, Obj.AX_JERK, Obj.AX_LIM_NEG_PIN, Obj.AX_LIM_POS_PIN, Obj.AX_LOOP, Obj.AX_MODE, Obj.AX_OUT_MODE, Obj.AX_RUN_CUR, Obj.AX_STOP, Obj.AX_TARGET, Obj.AX_VMAX]; omega))) only [State.writeRule, State.writeAxis, ↓if_pos, ↓if_neg, e]

theorem Obj.kind_AX_HOME {i : Nat} (h : i < 24) : Obj.kind (Obj.AX_HOME i) = some (2, .wo, false) :=
  (by decide : ∀ i : Fin 24, Obj.kind (Obj.AX_HOME i.val) = some (2, .wo, false)) ⟨i, h⟩

theorem State.writeRule_AX_HOME (s : State) (c : Ctx) (i : Nat) (h : i < 24) (v : Int) (d : Bytes) (l : Spans) :
    s.writeRule c (Obj.AX_HOME i) v d l = s.axHomeSet i := by
  have hk : ∃ k, k = Obj.AX_HOME i ∧ k = 0x50000e + 0x4000 * i := ⟨_, rfl, by simp only [Obj.AX_HOME]⟩
  obtain ⟨k, hk, hv⟩ := hk
  rw [← hk]
  have e : (k / 256 - 0x5000) / 0x40 = i := by omega
  simp (disch := (first | omega | (simp only [Obj.AX_ACC, Obj.AX_CAM_ENGAGE, Obj.AX_CUR_PWM, Obj.AX_DEC, Obj.AX_ENABLE, Obj.AX_ENC, Obj.AX_FE_PEAK, Obj.AX_HOME, Obj.AX_HOME_PIN, Obj.AX_IDLE_CUR, Obj.AX_JERK, Obj.AX_LIM_NEG_PIN, Obj.AX_LIM_POS_PIN, Obj.AX_LOOP, Obj.AX_MODE, Obj.AX_OUT_MODE, Obj.AX_RUN_CUR, Obj.AX_STOP, Obj.AX_TARGET, Obj.AX_VMAX]; omega))) only [State.writeRule, State.writeAxis, ↓if_pos, ↓if_neg, e]

theorem Obj.kind_AX_ENABLE {i : Nat} (h : i < 24) : Obj.kind (Obj.AX_ENABLE i) = some (1, .rw, false) :=
  (by decide : ∀ i : Fin 24, Obj.kind (Obj.AX_ENABLE i.val) = some (1, .rw, false)) ⟨i, h⟩

theorem State.writeRule_AX_ENABLE (s : State) (c : Ctx) (i : Nat) (h : i < 24) (v : Int) (d : Bytes) (l : Spans) :
    s.writeRule c (Obj.AX_ENABLE i) v d l = s.axEnableSet i v.toNat := by
  have hk : ∃ k, k = Obj.AX_ENABLE i ∧ k = 0x501001 + 0x4000 * i := ⟨_, rfl, by simp only [Obj.AX_ENABLE]⟩
  obtain ⟨k, hk, hv⟩ := hk
  rw [← hk]
  have e : (k / 256 - 0x5000) / 0x40 = i := by omega
  simp (disch := (first | omega | (simp only [Obj.AX_ACC, Obj.AX_CAM_ENGAGE, Obj.AX_CUR_PWM, Obj.AX_DEC, Obj.AX_ENABLE, Obj.AX_ENC, Obj.AX_FE_PEAK, Obj.AX_HOME, Obj.AX_HOME_PIN, Obj.AX_IDLE_CUR, Obj.AX_JERK, Obj.AX_LIM_NEG_PIN, Obj.AX_LIM_POS_PIN, Obj.AX_LOOP, Obj.AX_MODE, Obj.AX_OUT_MODE, Obj.AX_RUN_CUR, Obj.AX_STOP, Obj.AX_TARGET, Obj.AX_VMAX]; omega))) only [State.writeRule, State.writeAxis, ↓if_pos, ↓if_neg, e]

theorem Obj.kind_AX_MODE {i : Nat} (h : i < 24) : Obj.kind (Obj.AX_MODE i) = some (2, .rw, false) :=
  (by decide : ∀ i : Fin 24, Obj.kind (Obj.AX_MODE i.val) = some (2, .rw, false)) ⟨i, h⟩

theorem State.writeRule_AX_MODE (s : State) (c : Ctx) (i : Nat) (h : i < 24) (v : Int) (d : Bytes) (l : Spans) :
    s.writeRule c (Obj.AX_MODE i) v d l = s.axModeSet i v.toNat := by
  have hk : ∃ k, k = Obj.AX_MODE i ∧ k = 0x501801 + 0x4000 * i := ⟨_, rfl, by simp only [Obj.AX_MODE]⟩
  obtain ⟨k, hk, hv⟩ := hk
  rw [← hk]
  have e : (k / 256 - 0x5000) / 0x40 = i := by omega
  simp (disch := (first | omega | (simp only [Obj.AX_ACC, Obj.AX_CAM_ENGAGE, Obj.AX_CUR_PWM, Obj.AX_DEC, Obj.AX_ENABLE, Obj.AX_ENC, Obj.AX_FE_PEAK, Obj.AX_HOME, Obj.AX_HOME_PIN, Obj.AX_IDLE_CUR, Obj.AX_JERK, Obj.AX_LIM_NEG_PIN, Obj.AX_LIM_POS_PIN, Obj.AX_LOOP, Obj.AX_MODE, Obj.AX_OUT_MODE, Obj.AX_RUN_CUR, Obj.AX_STOP, Obj.AX_TARGET, Obj.AX_VMAX]; omega))) only [State.writeRule, State.writeAxis, ↓if_pos, ↓if_neg, e]

theorem Obj.kind_AX_CAM_ENGAGE {i : Nat} (h : i < 24) : Obj.kind (Obj.AX_CAM_ENGAGE i) = some (2, .rw, false) :=
  (by decide : ∀ i : Fin 24, Obj.kind (Obj.AX_CAM_ENGAGE i.val) = some (2, .rw, false)) ⟨i, h⟩

theorem State.writeRule_AX_CAM_ENGAGE (s : State) (c : Ctx) (i : Nat) (h : i < 24) (v : Int) (d : Bytes) (l : Spans) :
    s.writeRule c (Obj.AX_CAM_ENGAGE i) v d l = s.camEngageSet i v.toNat := by
  have hk : ∃ k, k = Obj.AX_CAM_ENGAGE i ∧ k = 0x502805 + 0x4000 * i := ⟨_, rfl, by simp only [Obj.AX_CAM_ENGAGE]⟩
  obtain ⟨k, hk, hv⟩ := hk
  rw [← hk]
  have e : (k / 256 - 0x5000) / 0x40 = i := by omega
  simp (disch := (first | omega | (simp only [Obj.AX_ACC, Obj.AX_CAM_ENGAGE, Obj.AX_CUR_PWM, Obj.AX_DEC, Obj.AX_ENABLE, Obj.AX_ENC, Obj.AX_FE_PEAK, Obj.AX_HOME, Obj.AX_HOME_PIN, Obj.AX_IDLE_CUR, Obj.AX_JERK, Obj.AX_LIM_NEG_PIN, Obj.AX_LIM_POS_PIN, Obj.AX_LOOP, Obj.AX_MODE, Obj.AX_OUT_MODE, Obj.AX_RUN_CUR, Obj.AX_STOP, Obj.AX_TARGET, Obj.AX_VMAX]; omega))) only [State.writeRule, State.writeAxis, ↓if_pos, ↓if_neg, e]

theorem Obj.kind_PWM_DUTY {i : Nat} (h : i < 32) : Obj.kind (Obj.PWM_DUTY i) = some (10, .rw, false) :=
  (by decide : ∀ i : Fin 32, Obj.kind (Obj.PWM_DUTY i.val) = some (10, .rw, false)) ⟨i, h⟩

theorem State.writeRule_PWM_DUTY (s : State) (c : Ctx) (i : Nat) (h : i < 32) (v : Int) (d : Bytes) (l : Spans) :
    s.writeRule c (Obj.PWM_DUTY i) v d l = s.dutySet false i v.toNat := by
  have hk : ∃ k, k = Obj.PWM_DUTY i ∧ k = 0x560003 + 0x100 * i := ⟨_, rfl, by simp only [Obj.PWM_DUTY]⟩
  obtain ⟨k, hk, hv⟩ := hk
  rw [← hk]
  have e : k / 256 - 0x5600 = i := by omega
  simp (disch := (first | omega | (simp only [Obj.ADC_ENABLE, Obj.ADC_RATE, Obj.GPIO_DIR, Obj.GPIO_OUT, Obj.PWM_DUTY]; omega))) only [State.writeRule, State.writeIo, ↓if_pos, ↓if_neg, e]

theorem Obj.kind_VALVE_DUTY {i : Nat} (h : i < 16) : Obj.kind (Obj.VALVE_DUTY i) = some (10, .rw, false) :=
  (by decide : ∀ i : Fin 16, Obj.kind (Obj.VALVE_DUTY i.val) = some (10, .rw, false)) ⟨i, h⟩

theorem State.writeRule_VALVE_DUTY (s : State) (c : Ctx) (i : Nat) (h : i < 16) (v : Int) (d : Bytes) (l : Spans) :
    s.writeRule c (Obj.VALVE_DUTY i) v d l = s.dutySet true i v.toNat := by
  have hk : ∃ k, k = Obj.VALVE_DUTY i ∧ k = 0x562003 + 0x100 * i := ⟨_, rfl, by simp only [Obj.VALVE_DUTY]⟩
  obtain ⟨k, hk, hv⟩ := hk
  rw [← hk]
  have e : k / 256 - 0x5620 = i := by omega
  simp (disch := (first | omega | (simp only [Obj.ADC_ENABLE, Obj.ADC_RATE, Obj.GPIO_DIR, Obj.GPIO_OUT, Obj.VALVE_DUTY]; omega))) only [State.writeRule, State.writeIo, ↓if_pos, ↓if_neg, e]

theorem Obj.kind_GPIO_DIR : Obj.kind Obj.GPIO_DIR = some (4, .rw, false) := by decide

theorem State.writeRule_GPIO_DIR (s : State) (c : Ctx) (v : Int) (d : Bytes) (l : Spans) :
    s.writeRule c Obj.GPIO_DIR v d l = s.gpioDirSet v.toNat := by
  have hk : ∃ k, k = Obj.GPIO_DIR ∧ k = 0x564001 := ⟨_, rfl, by simp only [Obj.GPIO_DIR]⟩
  obtain ⟨k, hk, hv⟩ := hk
  rw [← hk]
  simp (disch := (first | omega | (simp only [Obj.ADC_ENABLE, Obj.ADC_RATE, Obj.GPIO_DIR, Obj.GPIO_OUT]; omega))) only [State.writeRule, State.writeIo, ↓if_pos, ↓if_neg]

theorem Obj.kind_ADC_ENABLE : Obj.kind Obj.ADC_ENABLE = some (3, .rw, false) := by decide

theorem State.writeRule_ADC_ENABLE (s : State) (c : Ctx) (v : Int) (d : Bytes) (l : Spans) :
    s.writeRule c Obj.ADC_ENABLE v d l = s.adcSet false v.toNat := by
  have hk : ∃ k, k = Obj.ADC_ENABLE ∧ k = 0x565001 := ⟨_, rfl, by simp only [Obj.ADC_ENABLE]⟩
  obtain ⟨k, hk, hv⟩ := hk
  rw [← hk]
  simp (disch := (first | omega | (simp only [Obj.ADC_ENABLE, Obj.ADC_RATE, Obj.GPIO_DIR, Obj.GPIO_OUT]; omega))) only [State.writeRule, State.writeIo, ↓if_pos, ↓if_neg]

theorem Obj.kind_ADC_RATE : Obj.kind Obj.ADC_RATE = some (4, .rw, false) := by decide

theorem State.writeRule_ADC_RATE (s : State) (c : Ctx) (v : Int) (d : Bytes) (l : Spans) :
    s.writeRule c Obj.ADC_RATE v d l = s.adcSet true v.toNat := by
  have hk : ∃ k, k = Obj.ADC_RATE ∧ k = 0x565002 := ⟨_, rfl, by simp only [Obj.ADC_RATE]⟩
  obtain ⟨k, hk, hv⟩ := hk
  rw [← hk]
  simp (disch := (first | omega | (simp only [Obj.ADC_ENABLE, Obj.ADC_RATE, Obj.GPIO_DIR, Obj.GPIO_OUT]; omega))) only [State.writeRule, State.writeIo, ↓if_pos, ↓if_neg]

theorem Obj.kind_LP_ENABLE {i : Nat} (h : i < 32) : Obj.kind (Obj.LP_ENABLE i) = some (1, .rw, false) :=
  (by decide : ∀ i : Fin 32, Obj.kind (Obj.LP_ENABLE i.val) = some (1, .rw, false)) ⟨i, h⟩

theorem State.writeRule_LP_ENABLE (s : State) (c : Ctx) (i : Nat) (h : i < 32) (v : Int) (d : Bytes) (l : Spans) :
    s.writeRule c (Obj.LP_ENABLE i) v d l = s.lpEnableSet i v.toNat := by
  have hk : ∃ k, k = Obj.LP_ENABLE i ∧ k = 0x580001 + 0x4000 * i := ⟨_, rfl, by simp only [Obj.LP_ENABLE]⟩
  obtain ⟨k, hk, hv⟩ := hk
  rw [← hk]
  have e : (k / 256 - 0x5800) / 0x40 = i := by omega
  simp (disch := (first | omega | (simp only [Obj.LP_AW_MODE, Obj.LP_DIMS, Obj.LP_DIV, Obj.LP_ENABLE, Obj.LP_FE_PEAK, Obj.LP_IN_SRC, Obj.LP_LAW_0, Obj.LP_LAW_1, Obj.LP_MODE, Obj.LP_OUT_DST, Obj.LP_PHASE, Obj.LP_REF_SRC, Obj.LP_TR_ARM, Obj.LP_TR_FORCE]; omega))) only [State.writeRule, State.writeLoop, ↓if_pos, ↓if_neg, e]

theorem Obj.kind_LP_MODE {i : Nat} (h : i < 32) : Obj.kind (Obj.LP_MODE i) = some (2, .rw, false) :=
  (by decide : ∀ i : Fin 32, Obj.kind (Obj.LP_MODE i.val) = some (2, .rw, false)) ⟨i, h⟩

theorem State.writeRule_LP_MODE (s : State) (c : Ctx) (i : Nat) (h : i < 32) (v : Int) (d : Bytes) (l : Spans) :
    s.writeRule c (Obj.LP_MODE i) v d l = s.lpModeSet i v.toNat := by
  have hk : ∃ k, k = Obj.LP_MODE i ∧ k = 0x580005 + 0x4000 * i := ⟨_, rfl, by simp only [Obj.LP_MODE]⟩
  obtain ⟨k, hk, hv⟩ := hk
  rw [← hk]
  have e : (k / 256 - 0x5800) / 0x40 = i := by omega
  simp (disch := (first | omega | (simp only [Obj.LP_AW_MODE, Obj.LP_DIMS, Obj.LP_DIV, Obj.LP_ENABLE, Obj.LP_FE_PEAK, Obj.LP_IN_SRC, Obj.LP_LAW_0, Obj.LP_LAW_1, Obj.LP_MODE, Obj.LP_OUT_DST, Obj.LP_PHASE, Obj.LP_REF_SRC, Obj.LP_TR_ARM, Obj.LP_TR_FORCE]; omega))) only [State.writeRule, State.writeLoop, ↓if_pos, ↓if_neg, e]

theorem Obj.kind_LP_TR_ARM {i : Nat} (h : i < 32) : Obj.kind (Obj.LP_TR_ARM i) = some (2, .rw, false) :=
  (by decide : ∀ i : Fin 32, Obj.kind (Obj.LP_TR_ARM i.val) = some (2, .rw, false)) ⟨i, h⟩

theorem State.writeRule_LP_TR_ARM (s : State) (c : Ctx) (i : Nat) (h : i < 32) (v : Int) (d : Bytes) (l : Spans) :
    s.writeRule c (Obj.LP_TR_ARM i) v d l = s.trArmSet i v.toNat := by
  have hk : ∃ k, k = Obj.LP_TR_ARM i ∧ k = 0x583008 + 0x4000 * i := ⟨_, rfl, by simp only [Obj.LP_TR_ARM]⟩
  obtain ⟨k, hk, hv⟩ := hk
  rw [← hk]
  have e : (k / 256 - 0x5800) / 0x40 = i := by omega
  simp (disch := (first | omega | (simp only [Obj.LP_AW_MODE, Obj.LP_DIMS, Obj.LP_DIV, Obj.LP_ENABLE, Obj.LP_FE_PEAK, Obj.LP_IN_SRC, Obj.LP_LAW_0, Obj.LP_LAW_1, Obj.LP_MODE, Obj.LP_OUT_DST, Obj.LP_PHASE, Obj.LP_REF_SRC, Obj.LP_TR_ARM, Obj.LP_TR_FORCE]; omega))) only [State.writeRule, State.writeLoop, ↓if_pos, ↓if_neg, e]

theorem Obj.kind_LP_TR_FORCE {i : Nat} (h : i < 32) : Obj.kind (Obj.LP_TR_FORCE i) = some (2, .wo, false) :=
  (by decide : ∀ i : Fin 32, Obj.kind (Obj.LP_TR_FORCE i.val) = some (2, .wo, false)) ⟨i, h⟩

theorem State.writeRule_LP_TR_FORCE (s : State) (c : Ctx) (i : Nat) (h : i < 32) (v : Int) (d : Bytes) (l : Spans) :
    s.writeRule c (Obj.LP_TR_FORCE i) v d l = s.trForceSet i := by
  have hk : ∃ k, k = Obj.LP_TR_FORCE i ∧ k = 0x58300a + 0x4000 * i := ⟨_, rfl, by simp only [Obj.LP_TR_FORCE]⟩
  obtain ⟨k, hk, hv⟩ := hk
  rw [← hk]
  have e : (k / 256 - 0x5800) / 0x40 = i := by omega
  simp (disch := (first | omega | (simp only [Obj.LP_AW_MODE, Obj.LP_DIMS, Obj.LP_DIV, Obj.LP_ENABLE, Obj.LP_FE_PEAK, Obj.LP_IN_SRC, Obj.LP_LAW_0, Obj.LP_LAW_1, Obj.LP_MODE, Obj.LP_OUT_DST, Obj.LP_PHASE, Obj.LP_REF_SRC, Obj.LP_TR_ARM, Obj.LP_TR_FORCE]; omega))) only [State.writeRule, State.writeLoop, ↓if_pos, ↓if_neg, e]

theorem Obj.kind_ENC_ENABLE {i : Nat} (h : i < 2) : Obj.kind (Obj.ENC_ENABLE i) = some (1, .rw, false) :=
  (by decide : ∀ i : Fin 2, Obj.kind (Obj.ENC_ENABLE i.val) = some (1, .rw, false)) ⟨i, h⟩

theorem State.writeRule_ENC_ENABLE (s : State) (c : Ctx) (i : Nat) (h : i < 2) (v : Int) (d : Bytes) (l : Spans) :
    s.writeRule c (Obj.ENC_ENABLE i) v d l = s.encEnable i v.toNat := by
  have hk : ∃ k, k = Obj.ENC_ENABLE i ∧ k = 0x600001 + 0x8000 * i := ⟨_, rfl, by simp only [Obj.ENC_ENABLE]⟩
  obtain ⟨k, hk, hv⟩ := hk
  rw [← hk]
  have e : (k / 256 - 0x6000) / 0x80 = i := by omega
  simp (disch := (first | omega | (simp only [Obj.AXE_FILTER, Obj.AXE_MODE, Obj.AXE_SSI_CLK, Obj.AXE_SSI_FRAME, Obj.AXE_SSI_RATE, Obj.AXE_SSI_RECOVERY, Obj.AXE_STATUS, Obj.CMP_ARM, Obj.ENC_ENABLE, Obj.ENC_FILTER, Obj.ENC_INDEX_MODE, Obj.ENC_INDEX_POS, Obj.ENC_PATH, Obj.ENC_REV_COUNTS, Obj.ENC_STATUS, Obj.WEB_SEL]; omega))) only [State.writeRule, State.writeWeb, ↓if_pos, ↓if_neg, e]

theorem Obj.kind_WEB_SEL : Obj.kind Obj.WEB_SEL = some (2, .rw, false) := by decide

theorem State.writeRule_WEB_SEL (s : State) (c : Ctx) (v : Int) (d : Bytes) (l : Spans) :
    s.writeRule c Obj.WEB_SEL v d l = s.selectWeb v.toNat := by
  have hk : ∃ k, k = Obj.WEB_SEL ∧ k = 0x602001 := ⟨_, rfl, by simp only [Obj.WEB_SEL]⟩
  obtain ⟨k, hk, hv⟩ := hk
  rw [← hk]
  simp (disch := (first | omega | (simp only [Obj.AXE_FILTER, Obj.AXE_MODE, Obj.AXE_SSI_CLK, Obj.AXE_SSI_FRAME, Obj.AXE_SSI_RATE, Obj.AXE_SSI_RECOVERY, Obj.AXE_STATUS, Obj.CMP_ARM, Obj.ENC_ENABLE, Obj.ENC_FILTER, Obj.ENC_INDEX_MODE, Obj.ENC_INDEX_POS, Obj.ENC_PATH, Obj.ENC_REV_COUNTS, Obj.ENC_STATUS, Obj.WEB_SEL]; omega))) only [State.writeRule, State.writeWeb, ↓if_pos, ↓if_neg]

theorem Obj.kind_CMP_ARM {i : Nat} (h : i < 16) : Obj.kind (Obj.CMP_ARM i) = some (2, .rw, false) :=
  (by decide : ∀ i : Fin 16, Obj.kind (Obj.CMP_ARM i.val) = some (2, .rw, false)) ⟨i, h⟩

theorem State.writeRule_CMP_ARM (s : State) (c : Ctx) (i : Nat) (h : i < 16) (v : Int) (d : Bytes) (l : Spans) :
    s.writeRule c (Obj.CMP_ARM i) v d l = (s.cmpArm i v.toNat, 0) := by
  have hk : ∃ k, k = Obj.CMP_ARM i ∧ k = 0x630002 + 0x800 * i := ⟨_, rfl, by simp only [Obj.CMP_ARM]⟩
  obtain ⟨k, hk, hv⟩ := hk
  rw [← hk]
  have e : (k / 256 - 0x6300) / 8 = i := by omega
  simp (disch := (first | omega | (simp only [Obj.AXE_FILTER, Obj.AXE_MODE, Obj.AXE_SSI_CLK, Obj.AXE_SSI_FRAME, Obj.AXE_SSI_RATE, Obj.AXE_SSI_RECOVERY, Obj.AXE_STATUS, Obj.CMP_ARM, Obj.ENC_ENABLE, Obj.ENC_FILTER, Obj.ENC_INDEX_MODE, Obj.ENC_INDEX_POS, Obj.ENC_PATH, Obj.ENC_REV_COUNTS, Obj.ENC_STATUS, Obj.WEB_SEL]; omega))) only [State.writeRule, State.writeWeb, ↓if_pos, ↓if_neg, e]

theorem Obj.kind_NIM_EVID_SIZE : Obj.kind Obj.NIM_EVID_SIZE = some (2, .rw, false) := by decide

theorem State.writeRule_NIM_EVID_SIZE (s : State) (c : Ctx) (v : Int) (d : Bytes) (l : Spans) :
    s.writeRule c Obj.NIM_EVID_SIZE v d l = s.regionSet Obj.NIM_EVID_SIZE regEvidence v.toNat := by
  have hk : ∃ k, k = Obj.NIM_EVID_SIZE ∧ k = 0x650013 := ⟨_, rfl, by simp only [Obj.NIM_EVID_SIZE]⟩
  obtain ⟨k, hk, hv⟩ := hk
  simp only [← hk]
  simp (disch := (first | omega | (simp only [Obj.CAM_ACQUIRE, Obj.CAM_ENABLE, Obj.CAM_LINKS, Obj.CAM_LINK_FIRST, Obj.CAM_PIXEL_FORMAT, Obj.CAM_REG_OP, Obj.CAM_SET_LATENCY, Obj.CAM_WIDTH, Obj.NIM_EVID_FREE, Obj.NIM_EVID_SIZE]; omega))) only [State.writeRule, State.writeCam, ↓if_pos, ↓if_neg]

theorem Obj.kind_NIM_EVID_FREE : Obj.kind Obj.NIM_EVID_FREE = some (4, .rw, false) := by decide

theorem State.writeRule_NIM_EVID_FREE (s : State) (c : Ctx) (v : Int) (d : Bytes) (l : Spans) :
    s.writeRule c Obj.NIM_EVID_FREE v d l = s.evidFree v.toNat := by
  have hk : ∃ k, k = Obj.NIM_EVID_FREE ∧ k = 0x650015 := ⟨_, rfl, by simp only [Obj.NIM_EVID_FREE]⟩
  obtain ⟨k, hk, hv⟩ := hk
  rw [← hk]
  simp (disch := (first | omega | (simp only [Obj.CAM_ACQUIRE, Obj.CAM_ENABLE, Obj.CAM_LINKS, Obj.CAM_LINK_FIRST, Obj.CAM_PIXEL_FORMAT, Obj.CAM_REG_OP, Obj.CAM_SET_LATENCY, Obj.CAM_WIDTH, Obj.NIM_EVID_FREE, Obj.NIM_EVID_SIZE]; omega))) only [State.writeRule, State.writeCam, ↓if_pos, ↓if_neg]

theorem Obj.kind_CAM_ENABLE {i : Nat} (h : i < 4) : Obj.kind (Obj.CAM_ENABLE i) = some (1, .rw, false) :=
  (by decide : ∀ i : Fin 4, Obj.kind (Obj.CAM_ENABLE i.val) = some (1, .rw, false)) ⟨i, h⟩

theorem State.writeRule_CAM_ENABLE (s : State) (c : Ctx) (i : Nat) (h : i < 4) (v : Int) (d : Bytes) (l : Spans) :
    s.writeRule c (Obj.CAM_ENABLE i) v d l = ((s.camEnableSet i v.toNat).1.flushStats, (s.camEnableSet i v.toNat).2) := by
  have hk : ∃ k, k = Obj.CAM_ENABLE i ∧ k = 0x640001 + 0x4000 * i := ⟨_, rfl, by simp only [Obj.CAM_ENABLE]⟩
  obtain ⟨k, hk, hv⟩ := hk
  rw [← hk]
  have e : (k / 256 - 0x6400) / 0x40 = i := by omega
  simp (disch := (first | omega | (simp only [Obj.CAM_ACQUIRE, Obj.CAM_ENABLE, Obj.CAM_LINKS, Obj.CAM_LINK_FIRST, Obj.CAM_PIXEL_FORMAT, Obj.CAM_REG_OP, Obj.CAM_SET_LATENCY, Obj.CAM_WIDTH, Obj.NIM_EVID_FREE, Obj.NIM_EVID_SIZE]; omega))) only [State.writeRule, State.writeCam, ↓if_pos, ↓if_neg, e]

theorem Obj.kind_CAM_ACQUIRE {i : Nat} (h : i < 4) : Obj.kind (Obj.CAM_ACQUIRE i) = some (2, .wo, false) :=
  (by decide : ∀ i : Fin 4, Obj.kind (Obj.CAM_ACQUIRE i.val) = some (2, .wo, false)) ⟨i, h⟩

theorem State.writeRule_CAM_ACQUIRE (s : State) (c : Ctx) (i : Nat) (h : i < 4) (v : Int) (d : Bytes) (l : Spans) :
    s.writeRule c (Obj.CAM_ACQUIRE i) v d l = s.camAcquireSet i := by
  have hk : ∃ k, k = Obj.CAM_ACQUIRE i ∧ k = 0x640005 + 0x4000 * i := ⟨_, rfl, by simp only [Obj.CAM_ACQUIRE]⟩
  obtain ⟨k, hk, hv⟩ := hk
  rw [← hk]
  have e : (k / 256 - 0x6400) / 0x40 = i := by omega
  simp (disch := (first | omega | (simp only [Obj.CAM_ACQUIRE, Obj.CAM_ENABLE, Obj.CAM_LINKS, Obj.CAM_LINK_FIRST, Obj.CAM_PIXEL_FORMAT, Obj.CAM_REG_OP, Obj.CAM_SET_LATENCY, Obj.CAM_WIDTH, Obj.NIM_EVID_FREE, Obj.NIM_EVID_SIZE]; omega))) only [State.writeRule, State.writeCam, ↓if_pos, ↓if_neg, e]

theorem Obj.kind_CAM_REG_OP {i : Nat} (h : i < 4) : Obj.kind (Obj.CAM_REG_OP i) = some (2, .wo, false) :=
  (by decide : ∀ i : Fin 4, Obj.kind (Obj.CAM_REG_OP i.val) = some (2, .wo, false)) ⟨i, h⟩

theorem State.writeRule_CAM_REG_OP (s : State) (c : Ctx) (i : Nat) (h : i < 4) (v : Int) (d : Bytes) (l : Spans) :
    s.writeRule c (Obj.CAM_REG_OP i) v d l = s.camRegOp i v.toNat := by
  have hk : ∃ k, k = Obj.CAM_REG_OP i ∧ k = 0x640017 + 0x4000 * i := ⟨_, rfl, by simp only [Obj.CAM_REG_OP]⟩
  obtain ⟨k, hk, hv⟩ := hk
  rw [← hk]
  have e : (k / 256 - 0x6400) / 0x40 = i := by omega
  simp (disch := (first | omega | (simp only [Obj.CAM_ACQUIRE, Obj.CAM_ENABLE, Obj.CAM_LINKS, Obj.CAM_LINK_FIRST, Obj.CAM_PIXEL_FORMAT, Obj.CAM_REG_OP, Obj.CAM_SET_LATENCY, Obj.CAM_WIDTH, Obj.NIM_EVID_FREE, Obj.NIM_EVID_SIZE]; omega))) only [State.writeRule, State.writeCam, ↓if_pos, ↓if_neg, e]

theorem Obj.kind_LANE_MODE {i : Nat} (h : i < 174) : Obj.kind (Obj.LANE_MODE i) = some (2, .rw, false) := by
  have e : Obj.LANE_MODE i / 256 = 0x6C00 + 4 * i := by simp only [Obj.LANE_MODE]; omega
  have e2 : Obj.LANE_MODE i % 256 = 4 := by simp only [Obj.LANE_MODE]; omega
  rw [Obj.kind_of (by rw [e]; exact Obj.groupOf_6C00 i h) (by decide), e2]
  decide

theorem State.writeRule_LANE_MODE (s : State) (c : Ctx) (i : Nat) (h : i < 174) (v : Int) (d : Bytes) (l : Spans) :
    s.writeRule c (Obj.LANE_MODE i) v d l = s.laneModeSet i v.toNat c.transport := by
  have hk : ∃ k, k = Obj.LANE_MODE i ∧ k = 0x6c0004 + 0x400 * i := ⟨_, rfl, by simp only [Obj.LANE_MODE]⟩
  obtain ⟨k, hk, hv⟩ := hk
  rw [← hk]
  have e : (k / 256 - 0x6C00) / 4 = i := by omega
  simp (disch := (first | omega | (simp only [Obj.LANE_EYE_START, Obj.LANE_INJECT, Obj.LANE_LOOP, Obj.LANE_MODE, Obj.LANE_PAT_CHK, Obj.LANE_PAT_GEN, Obj.LANE_RATE, Obj.LANE_RETRAIN, Obj.LANE_SLIP]; omega))) only [State.writeRule, State.writeLane, ↓if_pos, ↓if_neg, e]

theorem Obj.kind_LANE_LOOP {i : Nat} (h : i < 174) : Obj.kind (Obj.LANE_LOOP i) = some (2, .rw, false) := by
  have e : Obj.LANE_LOOP i / 256 = 0x6C00 + 4 * i := by simp only [Obj.LANE_LOOP]; omega
  have e2 : Obj.LANE_LOOP i % 256 = 5 := by simp only [Obj.LANE_LOOP]; omega
  rw [Obj.kind_of (by rw [e]; exact Obj.groupOf_6C00 i h) (by decide), e2]
  decide

theorem State.writeRule_LANE_LOOP (s : State) (c : Ctx) (i : Nat) (h : i < 174) (v : Int) (d : Bytes) (l : Spans) :
    s.writeRule c (Obj.LANE_LOOP i) v d l = s.laneLoopSet i v.toNat := by
  have hk : ∃ k, k = Obj.LANE_LOOP i ∧ k = 0x6c0005 + 0x400 * i := ⟨_, rfl, by simp only [Obj.LANE_LOOP]⟩
  obtain ⟨k, hk, hv⟩ := hk
  rw [← hk]
  have e : (k / 256 - 0x6C00) / 4 = i := by omega
  simp (disch := (first | omega | (simp only [Obj.LANE_EYE_START, Obj.LANE_INJECT, Obj.LANE_LOOP, Obj.LANE_MODE, Obj.LANE_PAT_CHK, Obj.LANE_PAT_GEN, Obj.LANE_RATE, Obj.LANE_RETRAIN, Obj.LANE_SLIP]; omega))) only [State.writeRule, State.writeLane, ↓if_pos, ↓if_neg, e]

theorem Obj.kind_LANE_SLIP {i : Nat} (h : i < 174) : Obj.kind (Obj.LANE_SLIP i) = some (2, .wo, false) := by
  have e : Obj.LANE_SLIP i / 256 = 0x6C00 + 4 * i := by simp only [Obj.LANE_SLIP]; omega
  have e2 : Obj.LANE_SLIP i % 256 = 6 := by simp only [Obj.LANE_SLIP]; omega
  rw [Obj.kind_of (by rw [e]; exact Obj.groupOf_6C00 i h) (by decide), e2]
  decide

theorem State.writeRule_LANE_SLIP (s : State) (c : Ctx) (i : Nat) (h : i < 174) (v : Int) (d : Bytes) (l : Spans) :
    s.writeRule c (Obj.LANE_SLIP i) v d l = s.laneSlip i := by
  have hk : ∃ k, k = Obj.LANE_SLIP i ∧ k = 0x6c0006 + 0x400 * i := ⟨_, rfl, by simp only [Obj.LANE_SLIP]⟩
  obtain ⟨k, hk, hv⟩ := hk
  rw [← hk]
  have e : (k / 256 - 0x6C00) / 4 = i := by omega
  simp (disch := (first | omega | (simp only [Obj.LANE_EYE_START, Obj.LANE_INJECT, Obj.LANE_LOOP, Obj.LANE_MODE, Obj.LANE_PAT_CHK, Obj.LANE_PAT_GEN, Obj.LANE_RATE, Obj.LANE_RETRAIN, Obj.LANE_SLIP]; omega))) only [State.writeRule, State.writeLane, ↓if_pos, ↓if_neg, e]

theorem Obj.kind_LANE_RETRAIN {i : Nat} (h : i < 174) : Obj.kind (Obj.LANE_RETRAIN i) = some (2, .wo, false) := by
  have e : Obj.LANE_RETRAIN i / 256 = 0x6C00 + 4 * i := by simp only [Obj.LANE_RETRAIN]; omega
  have e2 : Obj.LANE_RETRAIN i % 256 = 7 := by simp only [Obj.LANE_RETRAIN]; omega
  rw [Obj.kind_of (by rw [e]; exact Obj.groupOf_6C00 i h) (by decide), e2]
  decide

theorem State.writeRule_LANE_RETRAIN (s : State) (c : Ctx) (i : Nat) (h : i < 174) (v : Int) (d : Bytes) (l : Spans) :
    s.writeRule c (Obj.LANE_RETRAIN i) v d l = s.laneRetrain i := by
  have hk : ∃ k, k = Obj.LANE_RETRAIN i ∧ k = 0x6c0007 + 0x400 * i := ⟨_, rfl, by simp only [Obj.LANE_RETRAIN]⟩
  obtain ⟨k, hk, hv⟩ := hk
  rw [← hk]
  have e : (k / 256 - 0x6C00) / 4 = i := by omega
  simp (disch := (first | omega | (simp only [Obj.LANE_EYE_START, Obj.LANE_INJECT, Obj.LANE_LOOP, Obj.LANE_MODE, Obj.LANE_PAT_CHK, Obj.LANE_PAT_GEN, Obj.LANE_RATE, Obj.LANE_RETRAIN, Obj.LANE_SLIP]; omega))) only [State.writeRule, State.writeLane, ↓if_pos, ↓if_neg, e]

theorem Obj.kind_LANE_EYE_START {i : Nat} (h : i < 174) : Obj.kind (Obj.LANE_EYE_START i) = some (2, .wo, false) := by
  have e : Obj.LANE_EYE_START i / 256 = 0x6C01 + 4 * i := by simp only [Obj.LANE_EYE_START]; omega
  have e2 : Obj.LANE_EYE_START i % 256 = 1 := by simp only [Obj.LANE_EYE_START]; omega
  rw [Obj.kind_of (by rw [e]; exact Obj.groupOf_6C01 i h) (by decide), e2]
  decide

theorem State.writeRule_LANE_EYE_START (s : State) (c : Ctx) (i : Nat) (h : i < 174) (v : Int) (d : Bytes) (l : Spans) :
    s.writeRule c (Obj.LANE_EYE_START i) v d l = s.eyeStart i v.toNat := by
  have hk : ∃ k, k = Obj.LANE_EYE_START i ∧ k = 0x6c0101 + 0x400 * i := ⟨_, rfl, by simp only [Obj.LANE_EYE_START]⟩
  obtain ⟨k, hk, hv⟩ := hk
  rw [← hk]
  have e : (k / 256 - 0x6C00) / 4 = i := by omega
  simp (disch := (first | omega | (simp only [Obj.LANE_EYE_START, Obj.LANE_INJECT, Obj.LANE_LOOP, Obj.LANE_MODE, Obj.LANE_PAT_CHK, Obj.LANE_PAT_GEN, Obj.LANE_RATE, Obj.LANE_RETRAIN, Obj.LANE_SLIP]; omega))) only [State.writeRule, State.writeLane, ↓if_pos, ↓if_neg, e]

theorem Obj.kind_LANE_INJECT {i : Nat} (h : i < 174) : Obj.kind (Obj.LANE_INJECT i) = some (2, .wo, false) := by
  have e : Obj.LANE_INJECT i / 256 = 0x6C02 + 4 * i := by simp only [Obj.LANE_INJECT]; omega
  have e2 : Obj.LANE_INJECT i % 256 = 5 := by simp only [Obj.LANE_INJECT]; omega
  rw [Obj.kind_of (by rw [e]; exact Obj.groupOf_6C02 i h) (by decide), e2]
  decide

theorem State.writeRule_LANE_INJECT (s : State) (c : Ctx) (i : Nat) (h : i < 174) (v : Int) (d : Bytes) (l : Spans) :
    s.writeRule c (Obj.LANE_INJECT i) v d l = s.laneInjectSet i v.toNat := by
  have hk : ∃ k, k = Obj.LANE_INJECT i ∧ k = 0x6c0205 + 0x400 * i := ⟨_, rfl, by simp only [Obj.LANE_INJECT]⟩
  obtain ⟨k, hk, hv⟩ := hk
  rw [← hk]
  have e : (k / 256 - 0x6C00) / 4 = i := by omega
  simp (disch := (first | omega | (simp only [Obj.LANE_EYE_START, Obj.LANE_INJECT, Obj.LANE_LOOP, Obj.LANE_MODE, Obj.LANE_PAT_CHK, Obj.LANE_PAT_GEN, Obj.LANE_RATE, Obj.LANE_RETRAIN, Obj.LANE_SLIP]; omega))) only [State.writeRule, State.writeLane, ↓if_pos, ↓if_neg, e]

theorem Obj.kind_TWIN_ENABLE : Obj.kind Obj.TWIN_ENABLE = some (1, .rws, false) := by decide

theorem State.writeRule_TWIN_ENABLE (s : State) (c : Ctx) (v : Int) (d : Bytes) (l : Spans) :
    s.writeRule c Obj.TWIN_ENABLE v d l = if v.toNat = 1 ∧ (List.range 12).any (fun t => s.laneTest (160 + t)) then (s, 0x0A) else (s.twinEnableSet v.toNat, 0) := by
  have hk : ∃ k, k = Obj.TWIN_ENABLE ∧ k = 0x7c0003 := ⟨_, rfl, by simp only [Obj.TWIN_ENABLE]⟩
  obtain ⟨k, hk, hv⟩ := hk
  rw [← hk]
  simp (disch := (first | omega | (simp only [Obj.TWIN_CMD, Obj.TWIN_ENABLE]; omega))) only [State.writeRule, State.writeTwin, ↓if_pos, ↓if_neg]

theorem Obj.kind_TWIN_CMD : Obj.kind Obj.TWIN_CMD = some (2, .rws, false) := by decide

theorem State.writeRule_TWIN_CMD (s : State) (c : Ctx) (v : Int) (d : Bytes) (l : Spans) :
    s.writeRule c Obj.TWIN_CMD v d l = s.twinCmd v.toNat := by
  have hk : ∃ k, k = Obj.TWIN_CMD ∧ k = 0x7c0004 := ⟨_, rfl, by simp only [Obj.TWIN_CMD]⟩
  obtain ⟨k, hk, hv⟩ := hk
  rw [← hk]
  simp (disch := (first | omega | (simp only [Obj.TWIN_CMD, Obj.TWIN_ENABLE]; omega))) only [State.writeRule, State.writeTwin, ↓if_pos, ↓if_neg]

theorem Obj.kind_CAM_TABLE {i : Nat} (h : i < 8) : Obj.kind (Obj.CAM_TABLE i) = some (13, .rw, false) :=
  (by decide : ∀ i : Fin 8, Obj.kind (Obj.CAM_TABLE i.val) = some (13, .rw, false)) ⟨i, h⟩

theorem State.writeRule_CAM_TABLE (s : State) (c : Ctx) (i : Nat) (h : i < 8) (v : Int) (d : Bytes) (l : Spans) :
    s.writeRule c (Obj.CAM_TABLE i) v d l = s.camTableSet i d := by
  have hk : ∃ k, k = Obj.CAM_TABLE i ∧ k = 0x820001 + 0x100 * i := ⟨_, rfl, by simp only [Obj.CAM_TABLE]⟩
  obtain ⟨k, hk, hv⟩ := hk
  rw [← hk]
  have e : k / 256 - 0x8200 = i := by omega
  simp (disch := (first | omega | (simp only [Obj.CAM_TABLE]; omega))) only [State.writeRule, State.writeTable, ↓if_pos, ↓if_neg, e]

theorem Obj.kind_WEAR_RESTORE {i : Nat} (h : i < 128) : Obj.kind (Obj.WEAR_RESTORE i) = some (13, .wo, false) := by
  have e : Obj.WEAR_RESTORE i / 256 = 0x8000 + i := by simp only [Obj.WEAR_RESTORE]; omega
  have e2 : Obj.WEAR_RESTORE i % 256 = 3 := by simp only [Obj.WEAR_RESTORE]; omega
  rw [Obj.kind_of (by rw [e]; exact Obj.groupOf_8000 i h) (by decide), e2]
  decide

theorem State.writeRule_WEAR_RESTORE (s : State) (c : Ctx) (i : Nat) (h : i < 128) (v : Int) (d : Bytes) (l : Spans) :
    s.writeRule c (Obj.WEAR_RESTORE i) v d l = if (s.headDev i).drops then (s, 0x0A) else (s.restoreWear i 0 (tableWords 8 d), 0) := by
  have hk : ∃ k, k = Obj.WEAR_RESTORE i ∧ k = 0x800003 + 0x100 * i := ⟨_, rfl, by simp only [Obj.WEAR_RESTORE]⟩
  obtain ⟨k, hk, hv⟩ := hk
  rw [← hk]
  have e : k / 256 - 0x8000 = i := by omega
  simp (disch := (first | omega | (simp only [Obj.WEAR_RESTORE]; omega))) only [State.writeRule, State.writeTable, ↓if_pos, ↓if_neg, e]

theorem Obj.kind_DRAM_RATE : Obj.kind Obj.DRAM_RATE = some (3, .rw, false) := by decide

theorem State.writeRule_DRAM_RATE (s : State) (c : Ctx) (v : Int) (d : Bytes) (l : Spans) :
    s.writeRule c Obj.DRAM_RATE v d l = s.dramRateSet v.toNat := by
  have hk : ∃ k, k = Obj.DRAM_RATE ∧ k = 0x680002 := ⟨_, rfl, by simp only [Obj.DRAM_RATE]⟩
  obtain ⟨k, hk, hv⟩ := hk
  rw [← hk]
  simp (disch := (first | omega | (simp only [Obj.DIAG_INJECT, Obj.DRAM_POOL_GIB, Obj.DRAM_RATE, Obj.FLT_CLEAR, Obj.FLT_FEC_CLEAR, Obj.STR_ABORT]; omega))) only [State.writeRule, State.writeLast, ↓if_pos, ↓if_neg]

theorem Obj.kind_DRAM_POOL_GIB : Obj.kind Obj.DRAM_POOL_GIB = some (3, .rw, false) := by decide

theorem State.writeRule_DRAM_POOL_GIB (s : State) (c : Ctx) (v : Int) (d : Bytes) (l : Spans) :
    s.writeRule c Obj.DRAM_POOL_GIB v d l = s.regionSet Obj.DRAM_POOL_GIB regPool v.toNat := by
  have hk : ∃ k, k = Obj.DRAM_POOL_GIB ∧ k = 0x680004 := ⟨_, rfl, by simp only [Obj.DRAM_POOL_GIB]⟩
  obtain ⟨k, hk, hv⟩ := hk
  simp only [← hk]
  simp (disch := (first | omega | (simp only [Obj.DIAG_INJECT, Obj.DRAM_POOL_GIB, Obj.DRAM_RATE, Obj.FLT_CLEAR, Obj.FLT_FEC_CLEAR, Obj.STR_ABORT]; omega))) only [State.writeRule, State.writeLast, ↓if_pos, ↓if_neg]

theorem Obj.kind_STR_ABORT : Obj.kind Obj.STR_ABORT = some (4, .wo, false) := by decide

theorem State.writeRule_STR_ABORT (s : State) (c : Ctx) (v : Int) (d : Bytes) (l : Spans) :
    s.writeRule c Obj.STR_ABORT v d l = s.strAbortSet v.toNat := by
  have hk : ∃ k, k = Obj.STR_ABORT ∧ k = 0x700001 := ⟨_, rfl, by simp only [Obj.STR_ABORT]⟩
  obtain ⟨k, hk, hv⟩ := hk
  rw [← hk]
  simp (disch := (first | omega | (simp only [Obj.DIAG_INJECT, Obj.DRAM_POOL_GIB, Obj.DRAM_RATE, Obj.FLT_CLEAR, Obj.FLT_FEC_CLEAR, Obj.STR_ABORT]; omega))) only [State.writeRule, State.writeLast, ↓if_pos, ↓if_neg]

theorem Obj.kind_FLT_CLEAR : Obj.kind Obj.FLT_CLEAR = some (4, .wo, false) := by decide

theorem State.writeRule_FLT_CLEAR (s : State) (c : Ctx) (v : Int) (d : Bytes) (l : Spans) :
    s.writeRule c Obj.FLT_CLEAR v d l = s.fltClearSet v.toNat c.sess (s.isSuper c.sess) := by
  have hk : ∃ k, k = Obj.FLT_CLEAR ∧ k = 0x780002 := ⟨_, rfl, by simp only [Obj.FLT_CLEAR]⟩
  obtain ⟨k, hk, hv⟩ := hk
  rw [← hk]
  simp (disch := (first | omega | (simp only [Obj.DIAG_INJECT, Obj.DRAM_POOL_GIB, Obj.DRAM_RATE, Obj.FLT_CLEAR, Obj.FLT_FEC_CLEAR, Obj.STR_ABORT]; omega))) only [State.writeRule, State.writeLast, ↓if_pos, ↓if_neg]

theorem Obj.kind_FLT_FEC_CLEAR : Obj.kind Obj.FLT_FEC_CLEAR = some (2, .wo, false) := by decide

theorem State.writeRule_FLT_FEC_CLEAR (s : State) (c : Ctx) (v : Int) (d : Bytes) (l : Spans) :
    s.writeRule c Obj.FLT_FEC_CLEAR v d l = (s.fecClearSet v.toNat, 0) := by
  have hk : ∃ k, k = Obj.FLT_FEC_CLEAR ∧ k = 0x780006 := ⟨_, rfl, by simp only [Obj.FLT_FEC_CLEAR]⟩
  obtain ⟨k, hk, hv⟩ := hk
  rw [← hk]
  simp (disch := (first | omega | (simp only [Obj.DIAG_INJECT, Obj.DRAM_POOL_GIB, Obj.DRAM_RATE, Obj.FLT_CLEAR, Obj.FLT_FEC_CLEAR, Obj.STR_ABORT]; omega))) only [State.writeRule, State.writeLast, ↓if_pos, ↓if_neg]

theorem Obj.kind_DIAG_INJECT : Obj.kind Obj.DIAG_INJECT = some (4, .wo, false) := by decide

theorem State.writeRule_DIAG_INJECT (s : State) (c : Ctx) (v : Int) (d : Bytes) (l : Spans) :
    s.writeRule c Obj.DIAG_INJECT v d l = s.injectSet v.toNat := by
  have hk : ∃ k, k = Obj.DIAG_INJECT ∧ k = 0xf00001 := ⟨_, rfl, by simp only [Obj.DIAG_INJECT]⟩
  obtain ⟨k, hk, hv⟩ := hk
  rw [← hk]
  simp (disch := (first | omega | (simp only [Obj.DIAG_INJECT, Obj.DRAM_POOL_GIB, Obj.DRAM_RATE, Obj.FLT_CLEAR, Obj.FLT_FEC_CLEAR, Obj.STR_ABORT]; omega))) only [State.writeRule, State.writeLast, ↓if_pos, ↓if_neg]

end Sys2Proof.Machine
end

