-- ==== Sys2Proof/Tests/Slice0.lean ====
section
/-! SUPPORT. Tests. Well-formedness refuses an ill-formed command for each of its checks; a few results worked out by hand from
the spec's tables; and for every statement one theorem (`witness_…`) that shows, for each of its clauses, a concrete state and
operands that meet its hypotheses together. -/

open Sys2Proof Sys2Proof.Machine

namespace Sys2Proof.Tests

set_option Elab.async false
set_option linter.unusedVariables false

/-! ### Well-formedness -/

theorem test_wf_registerWriteValue : Instr.wf (.registerWrite (.bar0 0 4 (2 ^ 32))) = false := by decide +kernel

theorem test_wf_registerWriteSize : Instr.wf (.registerWrite (.bar0 0 3 0)) = false := by decide +kernel

theorem test_wf_registerWriteLength : Instr.wf (.registerWrite (.bar2 0 (List.replicate 4097 0))) = false := by decide +kernel

theorem test_wf_registerWriteSession : Instr.wf (.registerWrite (.object ⟨2 ^ 32, 0⟩ 0 0 0 [])) = false := by decide +kernel

theorem test_wf_registerWriteTransport : Instr.wf (.registerWrite (.object ⟨1, 4⟩ 0 0 0 [])) = false := by decide +kernel

theorem test_wf_registerWriteIndex : Instr.wf (.registerWrite (.object ⟨1, 0⟩ (2 ^ 16) 0 0 [])) = false := by decide +kernel

theorem test_wf_registerWriteSub : Instr.wf (.registerWrite (.object ⟨1, 0⟩ 0 256 0 [])) = false := by decide +kernel

theorem test_wf_registerWriteType : Instr.wf (.registerWrite (.object ⟨1, 0⟩ 0 0 256 [])) = false := by decide +kernel

theorem test_wf_counterClear : Instr.wf (.counterClear (.bar0 0 8 (2 ^ 64))) = false := by decide +kernel

theorem test_wf_descriptorFetch : Instr.wf (.descriptorFetch 0 (some [0])) = false := by decide +kernel

theorem test_wf_bar0BadAccess : Instr.wf (.bar0BadAccess true 0 0) = false := by decide +kernel

theorem test_wf_announcePriority : Instr.wf (.ptpAnnounce 0 ⟨256, 6, 0x21, 0, 128, 6, 0, 0, 37⟩) = false := by decide +kernel

theorem test_wf_announceClass : Instr.wf (.ptpAnnounce 0 ⟨128, 256, 0x21, 0, 128, 6, 0, 0, 37⟩) = false := by decide +kernel

theorem test_wf_announceAccuracy : Instr.wf (.ptpAnnounce 0 ⟨128, 6, 256, 0, 128, 6, 0, 0, 37⟩) = false := by decide +kernel

theorem test_wf_announceVariance : Instr.wf (.ptpAnnounce 0 ⟨128, 6, 0x21, 2 ^ 16, 128, 6, 0, 0, 37⟩) = false := by decide +kernel

theorem test_wf_announcePriority2 : Instr.wf (.ptpAnnounce 0 ⟨128, 6, 0x21, 0, 256, 6, 0, 0, 37⟩) = false := by decide +kernel

theorem test_wf_announceId : Instr.wf (.ptpAnnounce 0 ⟨128, 6, 0x21, 0, 128, 2 ^ 64, 0, 0, 37⟩) = false := by decide +kernel

theorem test_wf_announceSteps : Instr.wf (.ptpAnnounce 0 ⟨128, 6, 0x21, 0, 128, 6, 2 ^ 16, 0, 37⟩) = false := by decide +kernel

theorem test_wf_announcePort : Instr.wf (.ptpAnnounce 0 ⟨128, 6, 0x21, 0, 128, 6, 0, 2, 37⟩) = false := by decide +kernel

theorem test_wf_controlCseq : Instr.wf (.assign 0 0 (2 ^ 16) 0 0) = false := by decide +kernel

theorem test_wf_controlArg0 : Instr.wf (.hotLimit 0 0 0 (2 ^ 32) 0) = false := by decide +kernel

theorem test_wf_controlArg1 : Instr.wf (.slots 0 0 0 0 (2 ^ 64)) = false := by decide +kernel

theorem test_wf_openNonce : Instr.wf (.openSession 0 1 [0]) = false := by decide +kernel

theorem test_wf_itemIndex : Instr.wf (.read ⟨1, 0⟩ [⟨2 ^ 16, 0, 0, []⟩]) = false := by decide +kernel

theorem test_wf_itemSub : Instr.wf (.write ⟨1, 0⟩ [⟨0, 256, 0, []⟩]) = false := by decide +kernel

theorem test_wf_itemType : Instr.wf (.blockWrite ⟨1, 0⟩ [⟨0, 0, 256, []⟩]) = false := by decide +kernel

theorem test_wf_faultCode : Instr.wf (.faultLatch (2 ^ 16) 0 0) = false := by decide +kernel

theorem test_wf_faultInstance : Instr.wf (.faultLatch 0 (2 ^ 16) 0) = false := by decide +kernel

theorem test_wf_cicadaWake : Instr.wf (.cicadaWake [0] 0) = false := by decide +kernel

theorem test_wf_dramWriteEmpty : Instr.wf (.dramWrite 0 0 [] 0 []) = false := by decide +kernel

theorem test_wf_dramWriteCrossing : Instr.wf (.dramWrite 0 255 [0, 0] 0 []) = false := by decide +kernel

theorem test_wf_accepts : Instr.wf (.dramWrite 0 255 [0] 0 []) = true ∧ Instr.wf (.openSession 0 1 (List.replicate 16 0)) = true := by
  decide +kernel

/-! ### Results worked out from the spec -/

/-- R504: the CRC-32C of the nine ASCII bytes "123456789". -/
theorem test_crc32c : crc32c [0x31, 0x32, 0x33, 0x34, 0x35, 0x36, 0x37, 0x38, 0x39] = 0xE3069283 := by decide +kernel

/-! ### States that the witnesses share -/

/-- Hold a value in the object store as it stands. -/
def put (k : Nat) (v : Int) (s : State) : State := { s with objs := Tab.insert k v (Tab.erase k s.objs) }

def puts (l : List (Nat × Int)) (s : State) : State := l.foldl (fun s e => put e.1 e.2 s) s

/-- The instant, in ns of the stamp accumulator. -/
def atNs (n : Nat) (s : State) : State := { s with time := { s.time with acc := n * 2 ^ 32 } }

def onHq (f : Hq → Hq) (s : State) : State := { s with hq := f s.hq }

def onWeb (f : Web → Web) (s : State) : State := { s with web := f s.web }

/-- Reset, then clocked, booted and cleared of RESET_SAFE, with the PCI Express link up and DRAM READY with 64 GiB. -/
def up : State :=
  puts [(Obj.CLK_STATUS, 3), (Obj.DRAM_STATE, 3), (Obj.DRAM_GIB, 64), (Obj.DRAM_USABLE_MIB, 52428), (Obj.SEC_LIFECYCLE, 2)]
    { State.reset with halo := {}, jnl := { booted := true } }

/-- A session with supervisor rights, on the BAR2 window. -/
def cx : Ctx := ⟨5, 3⟩

def su : State := { up with toa := { sessions := [{ id := 5, seqHi := 1, super := true, transport := 3 }] } }

def dsc (l : List (Nat × Nat × Nat)) : Bytes := layout 60 l ++ le 4 (crc32c (layout 60 l))

/-- A job of four lines on bar 0. -/
def jb : Job := { id := 7, psn := 1, lines := 4, mask := 1, chunks := [1], st := .accepted }

def jobs (l : List Job) (s : State) : State := onHq (fun h => { h with jobs := l }) s

def bases (l : List Base) (s : State) : State := onHq (fun h => { h with bases := l }) s

/-- A running ring that holds a descriptor at its head. -/
def hd (q : Nat) (d : Bytes) (s : State) : State := s.setRing q { en := true, prod := 1, head := some d }

theorem slice_zeros (n a b : Nat) : slice (zeros n) a b = zeros b := by
  simp only [slice, zeros, List.drop_replicate, List.take_replicate, List.length_replicate, List.replicate_append_replicate]
  congr 1
  omega

theorem getN_zeros (n a b : Nat) : getN (zeros n) a b = 0 := by
  rw [getN, slice_zeros]
  induction b with
  | zero => rfl
  | succ b ih => rw [show zeros (b + 1) = 0 :: zeros b from rfl, unle, ih]; rfl

/-- A table whose check holds passes, whatever the bytes: what steps 1 to 4 look at beside its length is decided. -/
theorem passes_table {s : State} {c : Ctx} {k n : Nat} {d : Bytes} (h1 : s.toaUp = true) (h2 : (s.session? c.sess).isSome = true)
    (h3 : (s.touch c).writeAccess c.sess k = 0) (h4 : ((s.touch c).offDomain k).isNone = true)
    (h5 : (Obj.find k).any (fun x => x.1.ty == 13 && lengthOk k x.1 n &&
      (if x.1.ctr then x.1.esz != 0 else (paramHead k).isNone)) = true) (h6 : d = zeros n) (h7 : tableOk k d = true) :
    s.passes c k 13 d = true := by
  subst h6
  unfold State.passes
  cases hf : Obj.find k with
  | none => simp [hf] at h5
  | some x =>
    simp only [hf, Option.any_some, Bool.and_eq_true, beq_iff_eq] at h5
    obtain ⟨⟨h8, h9⟩, h10⟩ := h5
    have h11 : (zeros n).length = n := by simp [zeros]
    simp only [h1, h2, h3, h4, h8, h11, h9, State.valueOk, beq_self_eq_true, Bool.and_self, if_true, Bool.true_and]
    cases hc : x.1.ctr with
    | true => simp only [if_true, spansZero, List.all_eq_true, slice_zeros]; intro y _; simp [allZero, zeros]
    | false =>
      simp only [hc, Bool.false_eq_true, if_false, Option.isNone_iff_eq_none] at h10
      simp only [Bool.false_eq_true, if_false, h10, h7]

theorem passes_wear : su.passes cx (Obj.WEAR 0) 13 (zeros 65536) = true :=
  passes_table (n := 65536) (by decide +kernel) (by decide +kernel) (by decide +kernel) (by decide +kernel) (by decide +kernel) rfl (by
    simp [tableOk, waveBar, Obj.WEAR, Obj.NIM_S3_RECT, Obj.CIC_CAP_GPIO, Obj.CIC_ADC_WIN, Obj.HALO_PRES_WIN, Obj.DRAM_PORT_TARGET])

theorem passes_wearRestore : su.passes cx (Obj.WEAR_RESTORE 0) 13 (zeros 65536) = true :=
  passes_table (n := 65536) (by decide +kernel) (by decide +kernel) (by decide +kernel) (by decide +kernel) (by decide +kernel) rfl (by
    simp [tableOk, waveBar, Obj.WEAR_RESTORE, Obj.NIM_S3_RECT, Obj.CIC_CAP_GPIO, Obj.CIC_ADC_WIN, Obj.HALO_PRES_WIN,
      Obj.DRAM_PORT_TARGET, tableWords, getN_zeros, field])

theorem crc32c_lt (b : Bytes) : crc32c b < 2 ^ 32 := BitVec.isLt _

/-- A body followed by its CRC-32C passes the check of a frame. -/
theorem frameOk_withCrc {n : Nat} {b : Bytes} (h : b.length + 4 = n) : frameOk n (withCrc b) = true := by
  subst h
  have h1 : (withCrc b).drop b.length = le 4 (crc32c b) := by simp [withCrc]
  have h2 : (withCrc b).take b.length = b := by simp [withCrc]
  have h3 : (withCrc b).length = b.length + 4 := by simp [withCrc]
  have h4 : getN (withCrc b) b.length 4 = crc32c b := by
    rw [getN, slice, h1, List.take_of_length_le (by simp), le_length, show zeros (4 - 4) = [] from rfl, List.append_nil, unle_le,
      Nat.mod_eq_of_lt (show crc32c b < 256 ^ 4 from crc32c_lt b)]
  simp [frameOk, h2, h3, h4]

/-- An announce of grandmaster 6. -/
def an : Announce := ⟨128, 6, 0x21, 0, 128, 6, 0, 0, 37⟩

/-- A job whose page has gone past bar 0 whole. -/
def jp : Job := { jb with st := .fired, bars := List.replicate 8 { start := some 0, checked := 4, passed := 4, fired := 4, departed := 4 } }

/-- A session that has begun to authenticate with slot 0. -/
def au : State :=
  puts [(Obj.SEC_KEY_STATE, 1)] { up with
    toa := { sessions := [{ id := 5, seqHi := 1, transport := 3, auth := some (0, zeros 16, zeros 16) }] }
    jnl := { booted := true, keys := [(0, zeros 32)] } }

/-- Beyond its first MiB DRAM is reachable, whatever the number of ranks. -/
theorem reachable (s : State) (a : Nat) (h : 2 ^ 20 ≤ a) : s.unreachable a = false := by
  have hb : Config.dramTwoRanks.toNat ≤ 1 := Bool.toNat_le _
  simp only [State.unreachable, State.region, regTraining, State.regionSizes, decide_eq_false_iff_not, Nat.zero_lt_succ, if_true,
    List.getD_cons_zero]
  omega

/-- Errors in nine symbols: more than the code corrects. -/
def nine : List (Nat × Nat) := (List.range 9).map (fun i => (i, 1 + i))

theorem decode_nine : decodeBurst nine = .bad := by decide +kernel

/-- A P-384 public key and a signature under it over SHA-384 of 64 zero bytes, SCOPE 1 and the key: computed outside the model. -/
def dbgKey : Bytes :=
  [0x04, 0x8f, 0x8a, 0xa5, 0xc1, 0x3a, 0x41, 0x4b, 0x28, 0x48, 0x47, 0xb3, 0xa5, 0x45, 0xb1, 0xfd, 0x3c, 0x38, 0xbf, 0x56,
   0x6c, 0x20, 0x85, 0x8d, 0xf1, 0xea, 0xf8, 0x30, 0xf0, 0xe2, 0x2a, 0x3b, 0x53, 0xe6, 0x17, 0xf8, 0x0c, 0xdc, 0x4d, 0x9b,
   0x3a, 0xa2, 0xd0, 0x2d, 0x68, 0xce, 0xaa, 0x82, 0xdc, 0x60, 0xf2, 0x81, 0x6c, 0x6d, 0xdc, 0x05, 0x91, 0xb9, 0x01, 0xeb,
   0x93, 0x50, 0xee, 0xaf, 0x2a, 0x6c, 0xee, 0x40, 0xdd, 0xd3, 0x13, 0x38, 0x95, 0x60, 0x6c, 0x73, 0x78, 0x61, 0xfb, 0xb1,
   0x21, 0x49, 0x3b, 0x47, 0xa5, 0xbb, 0x48, 0xfd, 0x8e, 0x7d, 0x30, 0x6d, 0x76, 0xf7, 0x9c, 0x0a, 0xbc]

def dbgSig : Bytes :=
  [0x33, 0x68, 0x15, 0x6e, 0xae, 0x74, 0x4a, 0x5e, 0xd6, 0xc9, 0xe3, 0x8e, 0x80, 0x3a, 0x52, 0xe6, 0x9b, 0x52, 0xd1, 0xdc,
   0x16, 0xac, 0xe9, 0x2e, 0x1e, 0x7e, 0xbf, 0xdb, 0x6d, 0xbf, 0x0b, 0x4e, 0x47, 0x6b, 0xe9, 0xa7, 0x1b, 0x02, 0x5b, 0xe8,
   0xcd, 0x84, 0x49, 0x3c, 0xf9, 0x54, 0xaf, 0x74, 0xeb, 0xb8, 0x32, 0x1f, 0x3f, 0x46, 0x69, 0xe8, 0x94, 0xa1, 0xbe, 0xf8,
   0x79, 0x8c, 0x36, 0xfa, 0x20, 0x77, 0x47, 0x40, 0x2f, 0x32, 0x5a, 0x23, 0xef, 0x2f, 0xce, 0xbe, 0x24, 0x96, 0xa6, 0x8b,
   0x9b, 0xd8, 0x4d, 0x43, 0x02, 0x4c, 0xe0, 0x89, 0xb1, 0x3f, 0xf5, 0xf4, 0x27, 0xc1, 0xf4, 0xda]

def dbgResponse : Bytes := le 4 1 ++ dbgKey ++ dbgSig

theorem dbg_verifies : ecdsaVerify (slice dbgResponse 4 97) (sha384 (zeros 64 ++ slice dbgResponse 0 101)) (slice dbgResponse 101 96) = true := by
  decide +kernel

/-- A FIELD card that has given out a challenge and holds the digest of the key. -/
def dbg : State :=
  { su with jnl := { su.jnl with challenge := some (zeros 64), debugFused := false, debugKey := some (sha384 (slice dbgResponse 4 97)) } }

/-- The card of a twin, in a state. -/
def twin (st : Int) (t : Twin) : State := { puts [(Obj.TWIN_STATE, st), (Obj.TWIN_ENABLE, 1)] su with twin := t }

/-- An OPEN request. -/
def ping : Bytes := withCrc (layout 48 [(0, 2, 0x4F54), (2, 1, 1), (12, 1, 1)])

theorem crc_withCrc {n : Nat} {b : Bytes} (h : b.length = n) : crc32c ((b ++ le 4 (crc32c b)).take n) = getN (b ++ le 4 (crc32c b)) n 4 := by
  subst h
  have h1 : (b ++ le 4 (crc32c b)).drop b.length = le 4 (crc32c b) := by simp
  have h2 : (b ++ le 4 (crc32c b)).take b.length = b := by simp
  rw [h2, getN, slice, h1, List.take_of_length_le (by simp), le_length, show zeros (4 - 4) = [] from rfl, List.append_nil, unle_le,
    Nat.mod_eq_of_lt (show crc32c b < 256 ^ 4 from crc32c_lt b)]

/-- A table that is no table of counters passes, whatever the bytes, where its own check holds. -/
theorem passes_bytes {s : State} {c : Ctx} {k n : Nat} {d : Bytes} (h1 : s.toaUp = true) (h2 : (s.session? c.sess).isSome = true)
    (h3 : (s.touch c).writeAccess c.sess k = 0) (h4 : ((s.touch c).offDomain k).isNone = true)
    (h5 : (Obj.find k).any (fun x => x.1.ty == 13 && lengthOk k x.1 n && !x.1.ctr && (paramHead k).isNone) = true)
    (h6 : d.length = n) (h7 : tableOk k d = true) : s.passes c k 13 d = true := by
  subst h6
  unfold State.passes
  cases hf : Obj.find k with
  | none => simp [hf] at h5
  | some x =>
    simp only [hf, Option.any_some, Bool.and_eq_true, beq_iff_eq, Bool.not_eq_true', Option.isNone_iff_eq_none] at h5
    obtain ⟨⟨⟨h8, h9⟩, h10⟩, h11⟩ := h5
    simp only [h1, h2, h3, h4, h8, h9, State.valueOk, beq_self_eq_true, Bool.and_self, if_true, h10, h11, h7,
      Bool.false_eq_true, if_false]

/-- A CAM_TABLE of zeros with its CRC-32C. -/
def camZeros : Bytes := zeros 4096 ++ le 4 (crc32c (zeros 4096))

theorem zeros_length (n : Nat) : (zeros n).length = n := List.length_replicate ..

theorem cam_length : camZeros.length = 4100 := by rw [camZeros, List.length_append, zeros_length, le_length]

theorem cam_crc : crc32c (camZeros.take 4096) = getN camZeros 4096 4 := crc_withCrc (zeros_length 4096)

theorem tableOk_cam (d : Bytes) : tableOk (Obj.CAM_TABLE 0) d = true := by
  simp [tableOk, waveBar, Obj.CAM_TABLE, Obj.NIM_S3_RECT, Obj.CIC_CAP_GPIO, Obj.CIC_ADC_WIN, Obj.HALO_PRES_WIN, Obj.DRAM_PORT_TARGET]

theorem passes_camTable : su.passes cx (Obj.CAM_TABLE (0 : Fin 8).val) 13 camZeros = true :=
  passes_bytes (n := 4100) (by decide +kernel) (by decide +kernel) (by decide +kernel) (by decide +kernel) (by decide +kernel) cam_length
    (tableOk_cam _)

/-- Booted, the card of a twin whose partner is gone goes on alone, whatever block of DRAM it drives. -/
theorem boot_twin (s : State) (b : Bool) (x : Nat) (r : Int) (h1 : s.twin.presLow = true) (h2 : s.obj Obj.TWIN_ENABLE = 1) :
    let u2 := s.setObj Obj.BOOT_TIME ((x % 2 ^ 32 : Nat) : Int)
    let u3 := if b then (u2.setObj Obj.DRAM_STATE 1).setObj Obj.DRAM_RATE r else u2
    u3.twin.presLow = true ∧ u3.obj Obj.TWIN_ENABLE = 1 := by
  cases b <;> refine ⟨h1, ?_⟩ <;>
    simp only [State.obj_setObj, Obj.BOOT_TIME, Obj.DRAM_STATE, Obj.DRAM_RATE, Obj.TWIN_ENABLE, if_true, Bool.false_eq_true, if_false] <;> exact h2

/-- A spit on bar 0, at its first line. -/
def spitP : Spit := { dom := 4, bars := [0], since := 0, ready := true }

/-- The card in the middle of a spit of `n` lines. -/
def spitting (n : Int) : State :=
  { puts ([(Obj.CIC_SPIT_LINES, n)] ++ ((List.range 16).map (fun h => [(Obj.HL_STATE h, 2), (Obj.HL_HEAD_STATE h, 32)])).flatten) su with
    cic := { spit := some spitP } }

/-- An ARP request for 0.0.0.1. -/
def arp : Bytes := zeros 12 ++ be 2 0x0806 ++ be 8 0x0001080006040001 ++ zeros 16 ++ be 4 1

/-! ### Witnesses -/

/-- The hypotheses of `Obligations.EmptyQueueTicks` can be met. -/
theorem witness_EmptyQueueTicks :
  (∃ (s : State), s.pending = []) :=
  ⟨State.reset, by rfl⟩

/-- The hypotheses of `Obligations.ResetState` can be met. -/
theorem witness_ResetState :
  (∃ b, b < 8) :=
  ⟨7, by decide +kernel⟩

/-- The hypotheses of `Obligations.HostRingsServe` can be met, clause by clause. -/
theorem witness_HostRingsServe :
  (∃ (q : RingNo) (d : BitVec 32) (s : State), s.hq.linkUp = true ∧ s.ready 3 = true ∧ (s.ring q.val).active = true ∧ isRecordRing q.val = false ∧ d.toNat ≠ (s.ring q.val).prod ∧ fwd32 (s.ring q.val).prod d.toNat ≤ fwd32 (s.ring q.val).prod (((s.ring q.val).cons + (s.ring q.val).size) % 2 ^ 32)) ∧
  (∃ (q : RingNo) (d : BitVec 32) (s : State), s.hq.linkUp = true ∧ s.ready 3 = true ∧ (s.ring q.val).active = true ∧ isRecordRing q.val = false ∧ d.toNat ≠ (s.ring q.val).prod ∧ fwd32 (s.ring q.val).prod (((s.ring q.val).cons + (s.ring q.val).size) % 2 ^ 32) < fwd32 (s.ring q.val).prod d.toNat) ∧
  (∃ (q : RingNo) (cfg : BitVec 32) (s : State), s.hq.linkUp = true ∧ s.ready 3 = true ∧ (s.ring q.val).en = false ∧ 6 ≤ field cfg.toNat 0 5 ∧ field cfg.toNat 0 5 ≤ 16 ∧ (s.ring q.val).base % 4096 = 0 ∧ (s.ring q.val).wb % 4 = 0) ∧
  (∃ (q : RingNo) (cfg : BitVec 32) (s : State), s.hq.linkUp = true ∧ s.ready 3 = true) ∧
  (∃ (q : RingNo) (d : Bytes) (s : State), isRecordRing q.val = false ∧ s.ringRuns q.val = true ∧ (s.ring q.val).cons ≠ (s.ring q.val).prod ∧ (s.ring q.val).head = none ∧ getN (slice d 0 64) 60 4 = crc32c ((slice d 0 64).take 60) ∧ descTypeOk q.val (byteAt (slice d 0 64) 0) = true) ∧
  (∃ (q : RingNo) (b : Bytes) (l : List Bytes) (s : State), isRecordRing q.val = true ∧ s.ringRuns q.val = true ∧ (s.ring q.val).used < (s.ring q.val).size ∧ (s.ring q.val).held = b :: l) ∧
  (∃ (q : RingNo) (s : State), isRecordRing q.val = true ∧ s.ringRuns q.val = true ∧ 0 < (s.ring q.val).modCount ∧ 0 < (s.ring q.val).modTime ∧ 0 < (s.ring q.val).unsig ∧ (s.ring q.val).unsigSince + 1000 * (s.ring q.val).modTime ≤ s.now) :=
  ⟨⟨0, 3#32, up.setRing 0 { en := true }, by decide +kernel⟩,
   ⟨0, 100#32, up.setRing 0 { en := true }, by decide +kernel⟩,
   ⟨16, 10#32, up, by decide +kernel⟩,
   ⟨0, 0#32, up, by decide +kernel⟩,
   ⟨0, dsc [(0, 1, 1)], up.setRing 0 { en := true, prod := 1 }, by decide +kernel⟩,
   ⟨16, [1], [], up.setRing 16 { en := true, held := [[1]] }, by decide +kernel⟩,
   ⟨16, atNs 2000 (up.setRing 16 { en := true, modTime := 1, unsig := 1 }), by decide +kernel⟩⟩

/-- The hypotheses of `Obligations.PageJobsLand` can be met, clause by clause. -/
theorem witness_PageJobsLand :
  (∃ (cls : Fin 8) (d : Bytes) (s : State), s.headOfType cls.val 1 = some d ∧ s.psnStale (getN d 8 4) = true ∧ s.job? (getN d 4 4) = none) ∧
  (∃ (cls : Fin 8) (d : Bytes) (s : State), s.headOfType cls.val 1 = some d ∧ getN d 8 4 = s.hq.psnNext ∧ s.hq.jobs.length < 128 ∧ s.jobReason d = none ∧ s.heldFailure false (getN d 4 4) = none ∧ s.orderOk false (getN d 4 4) = true ∧ s.countsOk false (getN d 4 4) (descChunks d) = true) ∧
  (∃ (t : Nat) (s : State), s.hq.waitSince = some t ∧ s.psnBlocked = true ∧ s.hq.waitRaised = false ∧ t + 10000000 ≤ s.now) ∧
  (∃ (cls : Fin 8) (d : Bytes) (s : State), s.headOfType cls.val 2 = some d ∧ byteAt d 1 = 0 ∧ allZero (slice d 8 12) = true ∧ allZero (slice d 21 3) = true ∧ allZero (slice d 48 12) = true ∧ 0 < getN d 2 2 ∧ chunksOk (byteAt d 20) (descChunks d) = true ∧ getN d 4 4 ≠ 0 ∧ s.base? (getN d 4 4) = none ∧ s.hq.bases.length < 16 ∧ s.heldFailure true (getN d 4 4) = none ∧ s.orderOk true (getN d 4 4) = true ∧ s.countsOk true (getN d 4 4) (descChunks d) = true) ∧
  (∃ (cls : Fin 8) (d : Bytes) (x : Base) (s : State), s.headOfType cls.val 3 = some d ∧ allZero (slice d 1 3) = true ∧ allZero (slice d 8 52) = true ∧ s.base? (getN d 4 4) = some x ∧ x.st = .registered) :=
  ⟨⟨0, dsc [(0, 1, 1), (4, 4, 9), (8, 4, 0xFFFFFFFF)], hd 0 (dsc [(0, 1, 1), (4, 4, 9), (8, 4, 0xFFFFFFFF)]) up, by decide +kernel⟩,
   ⟨0, dsc [(0, 1, 1), (2, 2, 4), (4, 4, 7), (8, 4, 1), (20, 1, 1), (24, 2, 1)], hd 0 (dsc [(0, 1, 1), (2, 2, 4), (4, 4, 7), (8, 4, 1), (20, 1, 1), (24, 2, 1)]) up, by decide +kernel⟩,
   ⟨0, onHq (fun h => { h with waitSince := some 0 }) (atNs 10000000 (hd 0 (dsc [(0, 1, 1), (8, 4, 5)]) up)), by decide +kernel⟩,
   ⟨0, dsc [(0, 1, 2), (2, 2, 4), (4, 4, 7), (20, 1, 1), (24, 2, 1)], hd 0 (dsc [(0, 1, 2), (2, 2, 4), (4, 4, 7), (20, 1, 1), (24, 2, 1)]) up, by decide +kernel⟩,
   ⟨0, dsc [(0, 1, 3), (4, 4, 7)], { id := 7, st := .registered }, bases [{ id := 7, st := .registered }] (hd 0 (dsc [(0, 1, 3), (4, 4, 7)]) up), by decide +kernel⟩⟩

/-- The hypotheses of `Obligations.PageJobsRun` can be met, clause by clause. -/
theorem witness_PageJobsRun :
  (∃ (id : Nat) (j : Job) (s : State), s.job? id = some j ∧ j.st = .landing ∧ s.allLanded false id j.chunks = true ∧ (j.baseId = 0 ∨ (s.base? j.baseId).any (fun x => x.st != .landing) = true) ∧ s.firstUndecided id = true ∧ s.dramReady = true ∧ s.jnlHigh = false ∧ let body := s.acceptBody false id j.psn j.baseId j.tag j.lines j.mask j.cls j.mark j.gap j.chunks
    s.jnlFits body.length 720 = true) ∧
  (∃ (id : Nat) (x : Base) (s : State), s.base? id = some x ∧ x.st = .landing ∧ s.allLanded true id x.chunks = true ∧ s.dramReady = true ∧ let body := s.acceptBody true id 0 0 x.tag x.lines x.mask x.cls false 0 x.chunks
    s.jnlFits body.length 0 = true) ∧
  (∃ (id : Nat) (x : Base) (s : State), s.base? id = some x ∧ x.st = .retiring ∧ s.hq.jobs.any (fun j => j.baseId == id) = false) ∧
  (∃ (b : Bar) (id : Nat) (j : Job) (s : State), b.val ≠ 0 ∧ s.job? id = some j ∧ j.st = .accepted ∧ (s.hq.jobs.takeWhile (fun k => k.id ≠ id)).all (fun k => (k.bar b.val).firing || (k.bar b.val).done || k.st == .aborted) = true ∧ s.hq.jobs.any (fun k => (k.bar b.val).staged) = false ∧ (j.bar b.val).staged = false ∧ (j.bar b.val).firing = false ∧ (j.bar b.val).done = false ∧ s.time.stepHeads = []) ∧
  (∃ (id : Nat) (j : Job) (s : State), s.job? id = some j ∧ j.st = .accepted ∧ s.markMode j = false ∧ (s.hq.jobs.takeWhile (fun k => k.id ≠ id)).all (fun k => (k.bar 0).firing || (k.bar 0).done || k.st == .aborted) = true ∧ s.hq.jobs.any (fun k => (k.bar 0).staged) = false ∧ (j.bar 0).staged = false ∧ (j.bar 0).firing = false ∧ (j.bar 0).done = false ∧ s.time.stepHeads = [] ∧ s.obj Obj.PWR_STATE ≠ 1) ∧
  (∃ (b : Bar) (d : Departed) (l : List Departed) (u : Nat) (s : State), s.departed b.val = d :: l ∧ s.hq.jobs.find? (fun j => j.st == .aborted && j.onWeb && decide ((j.bar b.val).passed < j.lines)) = none ∧ d.barTime = some u ∧ u ≤ s.now) ∧
  (∃ (j : Job) (s : State), s.hq.jobs.head? = some j ∧ j.ended = true ∧ s.complRoom j.cls = true) ∧
  (∃ (id : BitVec 32) (j : Job) (s : State), s.hq.linkUp = true ∧ s.ready 3 = true ∧ s.job? id.toNat = some j ∧ j.st = .fired) ∧
  (∃ (id : BitVec 32) (s : State), s.hq.linkUp = true ∧ s.ready 3 = true ∧ (s.abortJob id.toNat).2 = 0) ∧
  (∃ (b : Bar) (j : Job) (st : Int) (s : State), s.hasAuthority = true ∧ s.ffy.track = true ∧ s.ffy.suspended = false ∧ s.ready (4 + b.val / 2) = true ∧ s.ready 11 = true ∧ s.departJob b.val = some j ∧ j.startOn b.val = some st ∧ s.departDue (s.snapOf j b.val) st (j.bar b.val).departed = true) :=
  ⟨⟨7, { jb with st := .landing }, onHq (fun h => { h with streams := [{ isBase := false, id := 7, bar := 0, chunks := [⟨0, true, [], some [], 0⟩] }], acceptQ := [⟨7, 0, false, none⟩] }) (jobs [{ jb with st := .landing }] up), by decide +kernel⟩,
   ⟨7, { id := 7, mask := 1, chunks := [1] }, onHq (fun h => { h with streams := [{ isBase := true, id := 7, bar := 0, chunks := [⟨0, true, [], some [], 0⟩] }] }) (bases [{ id := 7, mask := 1, chunks := [1] }] up), by decide +kernel⟩,
   ⟨7, { id := 7, st := .retiring }, bases [{ id := 7, st := .retiring }] up, by decide +kernel⟩,
   ⟨1, 7, jb, jobs [jb] up, by decide +kernel⟩,
   ⟨7, jb, jobs [jb] up, by decide +kernel⟩,
   ⟨0, ⟨0, 7, 0, false, some 0, false, [], []⟩, [], 0, { jobs [jb] up with ffy := { departed := [(0, [⟨0, 7, 0, false, some 0, false, [], []⟩])] } }, by decide +kernel⟩,
   ⟨{ jb with st := .fired, verdict := some 0 }, jobs [{ jb with st := .fired, verdict := some 0 }] (up.setRing 16 { en := true }), by decide +kernel⟩,
   ⟨7#32, { jb with st := .fired }, jobs [{ jb with st := .fired }] up, by decide +kernel⟩,
   ⟨7#32, jobs [{ jb with st := .landing }] up, by decide +kernel⟩,
   ⟨0, { jb with bars := [{ staged := true, start := some 0 }] }, 0, { jobs [{ jb with bars := [{ staged := true, start := some 0 }] }] up with ffy := { track := true, v := 1, first := some (0, 0) } }, by decide +kernel⟩⟩

/-- The hypotheses of `Obligations.ChunksLand` can be met, clause by clause. -/
theorem witness_ChunksLand :
  (∃ (b : Bar) (d bytes : Bytes) (s : State), s.headOfType (8 + b.val) 8 = some d ∧ s.dramReady = true ∧ byteAt d 1 < 4 ∧ allZero (slice d 20 40) = true ∧ 1 ≤ getN d 16 4 ∧ getN d 16 4 ≤ 65536 ∧ getN d 2 2 ≤ 65534 ∧ s.poolFill + getN d 16 4 ≤ s.objN Obj.DRAM_POOL_GIB * 2 ^ 30 ∧ let isBase := bitAt (byteAt d 1) 1
    let s1 := (s.consume (8 + b.val)).forward (.descriptor (8 + b.val) (s.ring (8 + b.val)).cons d)
    let c : Chunk := { idx := getN d 2 2, last := bitAt (byteAt d 1) 0, bytes := slice bytes 0 (getN d 16 4), since := s1.now }
    (s.chunkOwner isBase (getN d 4 4) b.val = .nothing ∨
      ∃ m, s.chunkOwner isBase (getN d 4 4) b.val = .landing m ∧ c.countOk m = true) ∧ getN d 2 2 = ((s1.stream? isBase (getN d 4 4) b.val).map Stream.next).getD 0) ∧
  (∃ (b : Bar) (isBase : Bool) (id : Nat) (x : Stream) (c : Chunk) (s : State), s.stream? isBase id b.val = some x ∧ x.chunks.find? (fun c => c.digest.isNone) = some c) ∧
  (∃ (b : Bar) (isBase : Bool) (id : Nat) (x : Stream) (s : State), s.stream? isBase id b.val = some x ∧ s.chunkOwner isBase id b.val = .nothing ∧ 0 < (x.chunks.filter (Chunk.stale s.now)).length ∧ x.chunks.filter (fun c => !c.stale s.now) = [] ∧ x.since + 10000000000 ≤ s.now) :=
  ⟨⟨0, dsc [(0, 1, 8), (1, 1, 1), (4, 4, 7), (16, 4, 1)], [5], hd 8 (dsc [(0, 1, 8), (1, 1, 1), (4, 4, 7), (16, 4, 1)]) up, by decide +kernel, by decide +kernel, by decide +kernel, by decide +kernel, by decide +kernel, by decide +kernel, by decide +kernel, by decide +kernel, .inl (by decide +kernel), by decide +kernel⟩,
   ⟨0, false, 7, { isBase := false, id := 7, bar := 0, chunks := [⟨0, true, [], none, 0⟩] }, ⟨0, true, [], none, 0⟩, onHq (fun h => { h with streams := [{ isBase := false, id := 7, bar := 0, chunks := [⟨0, true, [], none, 0⟩] }] }) up, by decide +kernel⟩,
   ⟨0, false, 7, { isBase := false, id := 7, bar := 0, chunks := [⟨0, true, [], none, 0⟩] }, atNs 10000000000 (onHq (fun h => { h with streams := [{ isBase := false, id := 7, bar := 0, chunks := [⟨0, true, [], none, 0⟩] }] }) up), by decide +kernel⟩⟩

/-- The hypotheses of `Obligations.HostRegistersServe` can be met, clause by clause. -/
theorem witness_HostRegistersServe :
  (∃ (isRead : Bool) (off size : Nat) (s : State), s.hq.linkUp = true ∧ s.ready 3 = true ∧ bar0Ok off size = false) ∧
  (∃ (off len : Nat) (s : State), s.hq.linkUp = true ∧ s.ready 2 = true) ∧
  (∃ (off len : Nat) (s : State), s.hq.linkUp = true ∧ s.ready 2 = true) ∧
  (∃ (q : RingNo) (v : Nat) (s : State), s.hq.linkUp = true ∧ s.ready 3 = true ∧ v < 2 ^ 32) ∧
  (∃ (q : RingNo) (s : State), s.hq.linkUp = true ∧ s.ready 3 = true) ∧
  (∃ (s : State), s.hq.linkUp = true) :=
  ⟨⟨true, 1, 4, up, by decide +kernel⟩,
   ⟨0, 1, up, by decide +kernel⟩,
   ⟨0, 1, up, by decide +kernel⟩,
   ⟨0, 0xFFFFFFFF, up, by decide +kernel⟩,
   ⟨63, up, by decide +kernel⟩,
   ⟨up, by decide +kernel⟩⟩

/-- The hypotheses of `Obligations.WebEncodersCount` can be met, clause by clause. -/
theorem witness_WebEncodersCount :
  (∃ (w : WebNo) (a b : Bool) (s : State), s.obj (Obj.ENC_ENABLE w.val) = 1 ∧ s.ready 11 = true ∧ let c := s.chan (.web w.val)
    (a ≠ c.a ∧ b = c.b)) ∧
  (∃ (w : WebNo) (a b : Bool) (s : State), s.obj (Obj.ENC_ENABLE w.val) = 1 ∧ s.ready 11 = true ∧ let c := s.chan (.web w.val)
    (a = c.a ∧ b ≠ c.b)) ∧
  (∃ (w : WebNo) (a b : Bool) (s : State), s.obj (Obj.ENC_ENABLE w.val) = 1 ∧ s.ready 11 = true ∧ s.obj (Obj.ENC_PATH w.val) = 1 ∧ a ≠ (s.chan (.web w.val)).a ∧ b ≠ (s.chan (.web w.val)).b) ∧
  (∃ (w : WebNo) (s : State), s.obj (Obj.ENC_ENABLE w.val) = 1 ∧ s.ready 11 = true ∧ bitAt (s.objN (Obj.ENC_STATUS w.val)) bDir = true ∧ bitAt (s.objN (Obj.ENC_STATUS w.val)) bIndexSeen = false ∧ s.obj (Obj.ENC_REV_COUNTS w.val) ≠ 0) ∧
  (∃ (w : WebNo) (s : State), s.obj (Obj.ENC_ENABLE w.val) = 1 ∧ s.ready 11 = true ∧ bitAt (s.objN (Obj.ENC_STATUS w.val)) bStandstill = false ∧ (s.chan (.web w.val)).lastNs + s.objN (Obj.ENC_STANDSTILL_MS w.val) * msNs ≤ s.now) ∧
  (∃ (c : Ctx) (w : WebNo) (v : BitVec 8) (s : State), s.passes c (Obj.ENC_ENABLE w.val) 1 (le 1 v.toNat) = true ∧ let u := s.touch c
    let k := Obj.ENC_ENABLE w.val
    v.toNat = 1 ∧ u.obj k ≠ 1) ∧
  (∃ (c : Ctx) (w : WebNo) (v : BitVec 8) (s : State), s.passes c (Obj.ENC_ENABLE w.val) 1 (le 1 v.toNat) = true ∧ let u := s.touch c
    let k := Obj.ENC_ENABLE w.val
    v.toNat = 0 ∧ u.obj k = 1 ∧ u.web.driver ≠ w.val) ∧
  (∃ (c : Ctx) (v : BitVec 8) (s : State), s.passes c Obj.WEB_SEL 2 (le 1 v.toNat) = true ∧ (s.touch c).obj (Obj.ENC_ENABLE v.toNat) = 1) ∧
  (∃ (s : State), s.obj (Obj.ENC_ENABLE 0) = 1 ∧ s.obj (Obj.ENC_ENABLE 1) = 1 ∧ s.ready 11 = true ∧ s.web.spanStart + s.obj Obj.WEB_CMP_SPAN ≤ s.web.pos ∧ let d0 := (s.chan (.web 0)).pos - s.web.span0
    let d1 := (s.chan (.web 1)).pos - s.web.span1
    ((d0 - d1).natAbs : Int) ≤ s.obj Obj.WEB_CMP_WINDOW) ∧
  (∃ (s : State), s.obj (Obj.ENC_ENABLE 0) = 1 ∧ s.obj (Obj.ENC_ENABLE 1) = 1 ∧ s.ready 11 = true ∧ s.web.spanStart + s.obj Obj.WEB_CMP_SPAN ≤ s.web.pos ∧ let d0 := (s.chan (.web 0)).pos - s.web.span0
    let d1 := (s.chan (.web 1)).pos - s.web.span1
    s.obj Obj.WEB_CMP_WINDOW < ((d0 - d1).natAbs : Int) ∧ s.objBit Obj.WEB_DISAGREE 0 = false) :=
  ⟨⟨0, true, false, put (Obj.ENC_ENABLE 0) 1 up, by decide +kernel⟩,
   ⟨0, false, true, put (Obj.ENC_ENABLE 0) 1 up, by decide +kernel⟩,
   ⟨0, true, true, puts [(Obj.ENC_ENABLE 0, 1), (Obj.ENC_PATH 0, 1)] up, by decide +kernel⟩,
   ⟨0, puts [(Obj.ENC_ENABLE 0, 1), (Obj.ENC_STATUS 0, 2 ^ bDir), (Obj.ENC_REV_COUNTS 0, 4)] up, by decide +kernel⟩,
   ⟨0, atNs 100000000000 (puts [(Obj.ENC_ENABLE 0, 1), (Obj.ENC_STATUS 0, 0)] up), by decide +kernel⟩,
   ⟨cx, 1, 1#8, puts [(Obj.ENC_ENABLE 1, 0)] su, by decide +kernel⟩,
   ⟨cx, 1, 0#8, put (Obj.ENC_ENABLE 1) 1 su, by decide +kernel⟩,
   ⟨cx, 0#8, put (Obj.ENC_ENABLE 0) 1 su, by decide +kernel⟩,
   ⟨onWeb (fun w => { w with pos := 2 ^ 40 }) (puts [(Obj.ENC_ENABLE 0, 1), (Obj.ENC_ENABLE 1, 1)] up), by decide +kernel⟩,
   ⟨onWeb (fun w => { w with pos := 2 ^ 40, span0 := -2 ^ 40 }) (puts [(Obj.ENC_ENABLE 0, 1), (Obj.ENC_ENABLE 1, 1)] up), by decide +kernel⟩⟩

/-- The hypotheses of `Obligations.WebMarksAndCompares` can be met, clause by clause. -/
theorem witness_WebMarksAndCompares :
  (∃ (t : Fin 8) (rising : Bool) (s : State), s.ready 11 = true ∧ s.objN (Obj.TOF_EDGE t.val) = (if rising then 1 else 2) ∧ s.webForward = false) ∧
  (∃ (t : Fin 8) (rising : Bool) (s : State), s.ready 11 = true ∧ s.objN (Obj.TOF_EDGE t.val) = (if rising then 1 else 2) ∧ s.webForward = true ∧ s.web.recent.find? (fun e => decide (e.2 ≤ s.now - 2 - s.objN (Obj.TOF_FILTER t.val))) = none) ∧
  (∃ (t : Fin 8) (r : Int) (s : State), s.ready 11 = true ∧ (s.tof t.val).ref = some r ∧ s.obj (Obj.TOF_PITCH t.val) ≠ 0 ∧ let m := r + s.obj (Obj.TOF_PITCH t.val) * 2 ^ 32
    m + s.obj (Obj.TOF_TOL t.val) * 2 ^ 32 < s.webQ) ∧
  (∃ (c : Ctx) (k : CmpNo) (v : BitVec 8) (s : State), s.passes c (Obj.CMP_ARM k.val) 2 (le 1 v.toNat) = true) ∧
  (∃ (k v : Nat) (u : State), v = 0) ∧
  (∃ (k v : Nat) (u : State), v = 1) ∧
  (∃ (k : CmpNo) (s : State) (p16 : Int), (s.cmp k.val).due = some p16 ∧ let w := cmpWalk k.val p16 (s.cmpFuel k.val p16 (s.cmp k.val).last) { st := s, c := { s.cmp k.val with due := none } }
    w.passed = 1 ∧ w.act = 2 ∧ w.c.armed = true) ∧
  (∃ (k : CmpNo) (t : Nat) (s : State), (s.cmp k.val).pulseEnd = some t ∧ t ≤ s.now) ∧
  (∃ (x : Axis) (a b : Bool) (s : State), s.obj (Obj.AXE_MODE x.val) = 1 ∧ s.ready 11 = true ∧ let c := s.chan (.axis x.val)
    (a ≠ c.a ∧ b = c.b)) ∧
  (∃ (x : Axis) (a b : Bool) (s : State), s.obj (Obj.AXE_MODE x.val) = 1 ∧ s.ready 11 = true ∧ let c := s.chan (.axis x.val)
    (a = c.a ∧ b ≠ c.b)) ∧
  (∃ (x : Axis) (s : State), s.obj (Obj.AXE_MODE x.val) = 1 ∧ s.ready 11 = true ∧ bitAt (s.objN (Obj.AXE_STATUS x.val)) bDir = true) ∧
  (∃ (x : Axis) (bits : List Bool) (s : State), s.obj (Obj.AXE_MODE x.val) = 2 ∧ s.ready 11 = true ∧ (s.chan (.axis x.val)).ssiGood = none ∧ s.objBit (Obj.AXE_STATUS x.val) bSsiInvalid = false ∧ let f := s.objN (Obj.AXE_SSI_FRAME x.val)
    field f 20 2 = 0 ∧ bitAt f 22 = false ∧ bitAt f 23 = false ∧ field f 16 4 + field f 0 6 = bits.length) :=
  ⟨⟨0, true, puts [(Obj.TOF_EDGE 0, 1), (Obj.ENC_STATUS 0, 0)] up, by decide +kernel⟩,
   ⟨0, false, puts [(Obj.TOF_EDGE 0, 2), (Obj.ENC_STATUS 0, 2 ^ bDir)] up, by decide +kernel⟩,
   ⟨0, 0, onWeb (fun w => { w with pos := 2 ^ 40, tofs := [(0, { ref := some 0 })] }) (put (Obj.TOF_PITCH 0) 100 up), by decide +kernel⟩,
   ⟨cx, 0, 1#8, su, by decide +kernel⟩,
   ⟨0, 0, up, by decide +kernel⟩,
   ⟨0, 1, up, by decide +kernel⟩,
   ⟨0, { onWeb (fun w => { w with cmps := [(0, { armed := true, due := some 0 })] }) (put (Obj.CMP_LIST 0) 16 up) with blobs := [(blobAddr (Obj.CMP_LIST 0) 7, 0x80), (blobAddr (Obj.CMP_LIST 0) 8, 1)] }, 0, by decide +kernel⟩,
   ⟨0, 0, onWeb (fun w => { w with cmps := [(0, { active := true, pulseEnd := some 0 })] }) up, by decide +kernel⟩,
   ⟨0, true, false, put (Obj.AXE_MODE 0) 1 up, by decide +kernel⟩,
   ⟨0, false, true, put (Obj.AXE_MODE 0) 1 up, by decide +kernel⟩,
   ⟨0, puts [(Obj.AXE_MODE 0, 1), (Obj.AXE_STATUS 0, 2 ^ bDir)] up, by decide +kernel⟩,
   ⟨0, List.replicate 12 true, puts [(Obj.AXE_MODE 0, 2), (Obj.AXE_SSI_FRAME 0, 12)] up, by decide +kernel⟩⟩

/-- The hypotheses of `Obligations.LanesDecode` can be met, clause by clause. -/
theorem witness_LanesDecode :
  (∃ (b : Bar) (j : Job) (s : State), s.nextFireLine b.val = some j ∧ s.ready (4 + b.val / 2) = true ∧ s.dramReady = true ∧ (s.fireLane b.val).buf.length < 64) ∧
  (∃ (j : Job) (p : Int) (s : State), s.nextCheckLine = some j ∧ s.camPos j (j.bar 0).checked = some p ∧ s.ready 8 = true ∧ s.dramReady = true ∧ p - 64 * s.pitchR ≤ s.webQ) ∧
  (∃ (j : Job) (p : Int) (s : State), s.nextCheckLine = some j ∧ s.camPos j (j.bar 0).checked = some p ∧ p ≤ s.webQ ∧ s.ready 8 = true ∧ let late := (List.range 8).filter (fun b => s.checkedOn j b (j.bar 0).checked)
    late ≠ []) :=
  ⟨⟨0, jb, jobs [jb] up, by decide +kernel⟩,
   ⟨{ jb with st := .fired, bars := [{ start := some 0 }] }, 0, jobs [{ jb with st := .fired, bars := [{ start := some 0 }] }] up, by decide +kernel⟩,
   ⟨{ jb with st := .fired, bars := [{ start := some 0 }] }, 0, jobs [{ jb with st := .fired, bars := [{ start := some 0 }] }] up, by decide +kernel⟩⟩

/-- The hypotheses of `Obligations.PrintObjectsWrite` can be met, clause by clause. -/
theorem witness_PrintObjectsWrite :
  (∃ (c : Ctx) (id : BitVec 32) (s : State), s.passes c Obj.JOB_ABORT 4 (le 4 id.toNat) = true ∧ ((s.touch c).abortJob id.toNat).2 = 0) ∧
  (∃ (c : Ctx) (v : BitVec 32) (s : State), s.passes c Obj.PSN_NEXT 4 (le 4 v.toNat) = true ∧ s.hq.jobs = []) ∧
  (∃ (c : Ctx) (v : BitVec 8) (s : State), s.passes c Obj.FFY_RESUME 2 (le 1 v.toNat) = true) ∧
  (∃ (c : Ctx) (n : BitVec 32) (x : CommitSet) (s : State), s.passes c Obj.COMMIT_CANCEL 4 (le 4 n.toNat) = true ∧ s.toa.pending.find? (fun y => y.number == n.toNat) = some x ∧ x.doneBars = 0 ∧ x.doneCams = 0 ∧ (x.super = true → (s.touch c).isSuper c.sess = true)) ∧
  (∃ (c : Ctx) (h : Head) (d : Bytes) (s : State), s.passes c (Obj.WEAR h.val) 13 d = true ∧ d.length = 65536) ∧
  (∃ (c : Ctx) (h : Head) (d : Bytes) (s : State), s.passes c (Obj.WEAR_RESTORE h.val) 13 d = true ∧ let u := (s.touch c).dropTransfer c.sess
    (u.headDev h.val).drops = false) :=
  ⟨⟨cx, 7#32, jobs [{ jb with st := .landing }] su, by decide +kernel⟩,
   ⟨cx, 9#32, su, by decide +kernel⟩,
   ⟨cx, 1#8, su, by decide +kernel⟩,
   ⟨cx, 3#32, { number := 3, cls := 1 }, { su with toa := { su.toa with pending := [{ number := 3, cls := 1 }] } }, by decide +kernel⟩,
   ⟨cx, 0, zeros 65536, su, passes_wear, List.length_replicate⟩,
   ⟨cx, 0, zeros 65536, su, passes_wearRestore, by decide +kernel⟩⟩

/-- The hypotheses of `Obligations.HeadLinksTrain` can be met, clause by clause. -/
theorem witness_HeadLinksTrain :
  (∃ (h : Head) (s : State), s.ready (headDomain h.val) = true) ∧
  (∃ (h : Head) (s : State), s.hlOn h.val = true ∧ (s.headDev h.val).lock = false ∧ s.obj (Obj.HL_STATE h.val) = 0 ∧ (s.headDev h.val).retryAt ≤ s.aclkNs) ∧
  (∃ (h : Head) (s : State), (s.headDev h.val).lock = true) ∧
  (∃ (h : Head) (s : State), (s.headDev h.val).lock = true ∧ (s.headDev h.val).trained = false ∧ s.obj (Obj.HL_STATE h.val) = 1 ∧ bitAt (s.headDev h.val).stat 6 = true) ∧
  (∃ (h : Head) (body : Bytes) (s : State), (s.headDev h.val).lock = true ∧ frameOk 16 body = true ∧ (s.headDev h.val).trained = false) ∧
  (∃ (h : Head) (s : State), s.obj (Obj.HL_STATE h.val) = 1 ∧ (s.headDev h.val).trained = false ∧ (s.headDev h.val).trainSince + s.objN Obj.HL_TRAIN_TIMEOUT * msNs ≤ s.aclkNs) ∧
  (∃ (c : Ctx) (h : Head) (v : BitVec 8) (s : State), s.passes c (Obj.HL_ENABLE h.val) 1 (le 1 v.toNat) = true ∧ let u := s.touch c
    v.toNat = 1 ∧ u.obj (Obj.LANE_MODE h.val) ≠ 1) ∧
  (∃ (c : Ctx) (h : Head) (v : BitVec 8) (s : State), s.passes c (Obj.HL_ENABLE h.val) 1 (le 1 v.toNat) = true ∧ v.toNat = 0) :=
  ⟨⟨0, up, by decide +kernel⟩,
   ⟨0, put (Obj.HL_ENABLE 0) 1 up, by decide +kernel⟩,
   ⟨0, up.setHeadDev 0 { lock := true }, by decide +kernel⟩,
   ⟨0, put (Obj.HL_STATE 0) 1 (up.setHeadDev 0 { lock := true, stat := 64 }), by decide +kernel⟩,
   ⟨0, withCrc (zeros 12), up.setHeadDev 0 { lock := true }, by decide +kernel⟩,
   ⟨0, atNs 100000000000 (put (Obj.HL_STATE 0) 1 up), by decide +kernel⟩,
   ⟨cx, 0, 1#8, su, by decide +kernel⟩,
   ⟨cx, 0, 0#8, su, by decide +kernel⟩⟩

/-- The hypotheses of `Obligations.HeadFramesServe` can be met, clause by clause. -/
theorem witness_HeadFramesServe :
  (∃ (h : Head) (body : Bytes) (s : State), (s.headDev h.val).lock = true ∧ frameOk 32 body = true ∧ (s.headDev h.val).trained = true) ∧
  (∃ (h : Head) (s : State), (s.headDev h.val).trained = true ∧ 2 ≤ s.objN (Obj.HL_STATE h.val) ∧ s.objN (Obj.HL_STATE h.val) ≤ 5 ∧ (s.headDev h.val).teleNs + 1000 * s.objN Obj.HL_TELE_TIMEOUT ≤ s.aclkNs) ∧
  (∃ (h : Head) (body : Bytes) (s : State), (s.headDev h.val).lock = true ∧ frameOk 48 body = true ∧ (s.headDev h.val).trained = true ∧ s.obj (Obj.HL_STATE h.val) = 1 ∧ (s.headDev h.val).stage = 0 ∧ ∃ c, enumCause body = some c) ∧
  (∃ (h : Head) (body : Bytes) (s : State), (s.headDev h.val).lock = true ∧ frameOk 48 body = true ∧ (s.headDev h.val).trained = true ∧ s.obj (Obj.HL_STATE h.val) = 1 ∧ (s.headDev h.val).stage = 0 ∧ enumCause body = none ∧ (s.headDev h.val).keep = false) ∧
  (∃ (h : Head) (c : Ctl) (q : Nat) (s : State), (s.headDev h.val).cur = some (c, q) ∧ (s.headDev h.val).sentNs + 20000 ≤ s.aclkNs ∧ (s.headDev h.val).sends < 50) ∧
  (∃ (h : Head) (body : Bytes) (rtt : Int) (s : State), (s.headDev h.val).lock = true ∧ frameOk 24 body = true ∧ (s.headDev h.val).trained = true ∧ getN body 0 2 = (s.headDev h.val).timeSeq ∧ (s.headDev h.val).accepted < s.objN Obj.HL_DELAY_AVG) ∧
  (∃ (h : Head) (s : State), (s.headDev h.val).trained = true ∧ (s.headDev h.val).timeNs + 1000 * s.objN Obj.HL_TIME_PERIOD ≤ s.aclkNs) ∧
  (∃ (h : Head) (s : State), s.takesAuth h.val = true) ∧
  (∃ (c : Ctx) (n : LaneNo) (v : BitVec 8) (s : State), s.passes c (Obj.LANE_SLIP n.val) 2 (le 1 v.toNat) = true) :=
  ⟨⟨0, withCrc (zeros 28), up.setHeadDev 0 { lock := true, trained := true }, by decide +kernel⟩,
   ⟨0, atNs 10000000000 (put (Obj.HL_STATE 0) 5 (up.setHeadDev 0 { trained := true })), by decide +kernel⟩,
   ⟨0, withCrc (zeros 44), put (Obj.HL_STATE 0) 1 (up.setHeadDev 0 { lock := true, trained := true }), by decide +kernel, by decide +kernel, by decide +kernel, by decide +kernel, by decide +kernel, 1, by decide +kernel⟩,
   ⟨0, withCrc (layout 44 [(12, 1, 1), (14, 2, 72), (16, 2, 8192), (18, 1, 16), (20, 2, 1)]), put (Obj.HL_STATE 0) 1 (up.setHeadDev 0 { lock := true, trained := true }), by decide +kernel⟩,
   ⟨0, ⟨1, 0, 0⟩, 1, atNs 20000 (up.setHeadDev 0 { cur := some (⟨1, 0, 0⟩, 1) }), by decide +kernel⟩,
   ⟨0, withCrc (zeros 20), 0, up.setHeadDev 0 { lock := true, trained := true }, by decide +kernel⟩,
   ⟨0, atNs 10000000000 (up.setHeadDev 0 { trained := true }), by decide +kernel⟩,
   ⟨0, put (Obj.HL_STATE 0) 5 (up.setHeadDev 0 { trained := true }), by decide +kernel⟩,
   ⟨cx, 144, 1#8, su, by decide +kernel⟩⟩

/-- The hypotheses of `Obligations.HeadModulesReceive` can be met, clause by clause. -/
theorem witness_HeadModulesReceive :
  (∃ (h : Head) (p : Fin 2) (body : Bytes) (s : State), frameOk 16 body = true) ∧
  (∃ (h : Head) (p : Fin 2) (s : State), ((s.headSide h.val).port p.val).fresh = true ∧ ((s.headSide h.val).port p.val).authNs + ((s.headSide h.val).port p.val).lease ≤ s.now) ∧
  (∃ (h : Head) (p : Fin 2) (body : Bytes) (e : Int) (s : State), frameOk 24 body = true ∧ (s.headSide h.val).obeyed = some p.val ∧ ((s.headSide h.val).synced = false ∨ bitAt (byteAt body 2) 1 = true)) ∧
  (∃ (h : Head) (p : Fin 2) (body : Bytes) (s : State), body.length = 2080 ∧ getN body 28 4 = crc32c (body.take 28) ∧ let x := (s.headSide h.val).reap (s.headNs h.val)
    x.takes p.val (byteAt body 7) = true ∧ getN body 8 4 = (x.port p.val).epoch ∧ x.isCommitted (getN body 0 4) = false) ∧
  (∃ (h : Head) (p : Fin 2) (body : Bytes) (a b : FireTime) (s : State), frameOk 32 body = true ∧ let ns := s.headNs h.val
    let x := (s.headSide h.val).reap ns
    bitAt (byteAt body 4) 0 = true ∧ bitAt (byteAt body 4) 1 = true ∧ bitAt (byteAt body 4) 2 = false ∧ fireTimeOf (ns / 1000000000) (getN body 8 8) = some a ∧ fireTimeOf (ns / 1000000000) (getN body 16 8) = some b ∧ isCancel (getN body 8 8) = false ∧ isCancel (getN body 16 8) = false ∧ x.takes p.val (byteAt body 5) = true ∧ ({ x with lastFt := some (getN body 0 4) } : HeadSide).isCommitted (getN body 0 4) = false) ∧
  (∃ (h : Head) (p : Fin 2) (body : Bytes) (s : State), frameOk 144 body = true ∧ (s.headSide h.val).obeyed = some p.val ∧ let k := getN body 2 2
    byteAt body 0 = 0 ∧ k < 2) ∧
  (∃ (h : Head) (p : Fin 2) (body : Bytes) (s : State), frameOk 144 body = true ∧ (s.headSide h.val).obeyed = some p.val ∧ let k := getN body 2 2
    byteAt body 0 = 1 ∧ k < 256) :=
  ⟨⟨0, 0, withCrc (zeros 12), up, by decide +kernel⟩,
   ⟨0, 0, up.setHeadSide 0 { ports := [{ fresh := true }, {}] }, by decide +kernel⟩,
   ⟨0, 0, withCrc (zeros 20), 5, up.setHeadSide 0 { obeyed := some 0 }, by decide +kernel⟩,
   ⟨0, 0, layout 28 [(0, 4, 1)] ++ le 4 (crc32c (layout 28 [(0, 4, 1)])) ++ zeros 2048, up.setHeadSide 0 { obeyed := some 0, assigned := some 0 }, by decide +kernel⟩,
   ⟨0, 0, withCrc (layout 28 [(0, 4, 1), (4, 1, 3), (8, 8, 5), (16, 8, 6)]), .at 5, .at 6, up.setHeadSide 0 { obeyed := some 0, assigned := some 0 }, by decide +kernel⟩,
   ⟨0, 0, withCrc (zeros 140), up.setHeadSide 0 { obeyed := some 0 }, frameOk_withCrc (by decide +kernel), by decide +kernel, by decide +kernel⟩,
   ⟨0, 0, withCrc (layout 140 [(0, 1, 1), (2, 2, 255)]), up.setHeadSide 0 { obeyed := some 0 }, frameOk_withCrc (by decide +kernel), by decide +kernel, by decide +kernel⟩⟩

/-- The hypotheses of `Obligations.HeadModulesFire` can be met, clause by clause. -/
theorem witness_HeadModulesFire :
  (∃ (h : Head) (lseq : Nat) (c : HSlot) (r t : Nat) (s : State), let x := (s.headSide h.val).reap (s.headNs h.val)
    x.slot? lseq = some c ∧ c.first = some (r, t) ∧ c.committed = false ∧ t ≤ s.headNs h.val ∧ (c.hdrBad && c.line.isNone) = false ∧ s.mayCommit (x.reach lseq) c = true) ∧
  (∃ (h : Head) (lseq : Nat) (row : Fin 2) (c : HSlot) (t : Nat) (s : State), (s.headSide h.val).slot? lseq = some c ∧ (if row.val = 0 then c.tA else c.tB).ns? = some t ∧ c.committed = true ∧ (if row.val = 0 then c.firedA else c.firedB) = false ∧ t ≤ s.headNs h.val) ∧
  (∃ (h : Head) (p : Fin 2) (s : State), s.portTrained h.val p.val = true ∧ ((s.headSide h.val).port p.val).asn = false ∧ ((s.headSide h.val).port p.val).enumNs.any (fun t => decide (s.now < t + 100000)) = false) ∧
  (∃ (h : Head) (p : Fin 2) (s : State), s.portTrained h.val p.val = true ∧ (((s.headSide h.val).port p.val).teleDue = true ∨
      (s.headSide h.val).lastCommitNs + 10000 ≤ s.now ∧ ((s.headSide h.val).port p.val).teleNs + 10000 ≤ s.now)) :=
  ⟨⟨0, 1, { lseq := 1, line := some (0, 0, []), tA := .at 5, tB := .at 6 }, 0, 5, { (up.setHeadSide 0 { obeyed := some 0, timeLock := true, inService := true, ports := [{ fresh := true, lease := 9 }, {}], slots := [{ lseq := 1, line := some (0, 0, []), tA := .at 5, tB := .at 6 }] }) with time := { ns := 100 } }, by decide +kernel⟩,
   ⟨0, 1, 1, { lseq := 1, tB := .at 5, committed := true }, 5, { (up.setHeadSide 0 { slots := [{ lseq := 1, tB := .at 5, committed := true }] }) with time := { ns := 100 } }, by decide +kernel⟩,
   ⟨0, 0, up.setHeadDev 0 { lock := true, trained := true }, by decide +kernel⟩,
   ⟨0, 0, (up.setHeadDev 0 { lock := true, trained := true }).setHeadSide 0 { ports := [{ asn := true, teleDue := true }, {}] }, by decide +kernel⟩⟩

/-- The hypotheses of `Obligations.HeadControlsApply` can be met, clause by clause. -/
theorem witness_HeadControlsApply :
  (∃ (h : Head) (p : Fin 2) (cseq a b : Nat) (s : State), ((s.headSide h.val).assigned = none ∨ (s.headSide h.val).assigned = some (a % 128))) ∧
  (∃ (h : Head) (p : Fin 2) (cseq a b : Nat) (s : State), (s.headSide h.val).obeyed = some p.val ∧ (((s.headSide h.val).port p.val).cseq + 1 = cseq ∨ ((s.headSide h.val).port p.val).cseq = 2 ^ 16 - 1 ∧ cseq = 0)) :=
  ⟨⟨0, 0, 1, 0, 0, up, by decide +kernel⟩,
   ⟨0, 0, 0, 0, 0, up.setHeadSide 0 { obeyed := some 0, ports := [{ cseq := 65535 }, {}] }, by decide +kernel⟩⟩

/-- The hypotheses of `Obligations.LanesTest` can be met, clause by clause. -/
theorem witness_LanesTest :
  (∃ (c : Ctx) (n : LaneNo) (v : BitVec 8) (s : State), s.passes c (Obj.LANE_RETRAIN n.val) 2 (le 1 v.toNat) = true ∧ let u := s.touch c
    laneGroup n.val = 0 ∧ u.inService n.val = true) ∧
  (∃ (c : Ctx) (n : LaneNo) (v : BitVec 8) (s : State), s.passes c (Obj.LANE_RETRAIN n.val) 2 (le 1 v.toNat) = true ∧ let u := s.touch c
    laneGroup n.val = 0 ∧ u.inService n.val = false) ∧
  (∃ (c : Ctx) (n : LaneNo) (v : BitVec 8) (s : State), s.passes c (Obj.LANE_RETRAIN n.val) 2 (le 1 v.toNat) = true ∧ laneGroup n.val = 3) ∧
  (∃ (c : Ctx) (n : LaneNo) (v : BitVec 8) (s : State), s.passes c (Obj.LANE_RETRAIN n.val) 2 (le 1 v.toNat) = true ∧ laneGroup n.val ≠ 0 ∧ laneGroup n.val ≠ 3) ∧
  (∃ (n : LaneNo) (s : State), laneGroup n.val = 0 ∧ bitAt (s.objN (Obj.LANE_STATUS n.val)) 9 = true ∧ s.barIdle (n.val / 16) = true) ∧
  (∃ (c : Ctx) (n : LaneNo) (v : BitVec 8) (s : State), s.passes c (Obj.LANE_EYE_START n.val) 2 (le 1 v.toNat) = true ∧ let u := s.touch c
    u.obj (Obj.LANE_EYE_STATE n.val) ≠ 1) ∧
  (∃ (n : LaneNo) (dis : List Nat) (s : State), s.obj (Obj.LANE_EYE_STATE n.val) = 1) ∧
  (∃ (c : Ctx) (n : LaneNo) (v : BitVec 8) (s : State), s.passes c (Obj.LANE_MODE n.val) 2 (le 1 v.toNat) = true ∧ let u := s.touch c
    (v.toNat = 1 → u.heldDown n.val c.transport = true) ∧ u.obj (Obj.LANE_MODE n.val) ≠ (v.toNat : Int)) ∧
  (∃ (c : Ctx) (n : LaneNo) (v : BitVec 8) (s : State), s.passes c (Obj.LANE_LOOP n.val) 2 (le 1 v.toNat) = true ∧ let u := s.touch c
    u.laneTest n.val = true) ∧
  (∃ (c : Ctx) (n : LaneNo) (v : BitVec 8) (s : State), s.passes c (Obj.LANE_INJECT n.val) 2 (le 1 v.toNat) = true ∧ let u := s.touch c
    u.patOn n.val = true) ∧
  (∃ (n : LaneNo) (bits errors : Nat) (s : State), s.patRuns n.val = true ∧ 512 ≤ errors ∧ bits ≤ 1024) ∧
  (∃ (n : LaneNo) (s : State), s.laneTest n.val = true ∧ s.obj (Obj.LANE_PAT_CHK n.val) ≠ 0 ∧ s.obj (Obj.LANE_LOOP n.val) ≠ 2 ∧ bitAt (s.objN (Obj.LANE_PAT_STATUS n.val)) 0 = false ∧ (s.obj (Obj.LANE_LOOP n.val) = 1 → s.obj (Obj.LANE_PAT_GEN n.val) = s.obj (Obj.LANE_PAT_CHK n.val))) ∧
  (∃ (n : LaneNo) (dis : List Nat) (s : State), s.obj (Obj.LANE_EYE_STATE n.val) = 1 ∧ (s.lane n.val).eye ≠ 2) :=
  ⟨⟨cx, 0, 1#8, put (Obj.HL_STATE 0) 5 su, by decide +kernel⟩,
   ⟨cx, 0, 1#8, su, by decide +kernel⟩,
   ⟨cx, 160, 1#8, su, by decide +kernel⟩,
   ⟨cx, 144, 1#8, su, by decide +kernel⟩,
   ⟨0, put (Obj.LANE_STATUS 0) 512 up, by decide +kernel⟩,
   ⟨cx, 0, 1#8, su, by decide +kernel⟩,
   ⟨0, [], put (Obj.LANE_EYE_STATE 0) 1 up, by decide +kernel⟩,
   ⟨cx, 144, 1#8, su, by decide +kernel⟩,
   ⟨cx, 0, 1#8, put (Obj.LANE_MODE 0) 1 su, by decide +kernel⟩,
   ⟨cx, 0, 1#8, puts [(Obj.LANE_MODE 0, 1), (Obj.LANE_PAT_GEN 0, 1), (Obj.LANE_PAT_CHK 0, 1)] su, by decide +kernel⟩,
   ⟨0, 1024, 512, puts [(Obj.LANE_MODE 0, 1), (Obj.LANE_PAT_CHK 0, 1), (Obj.LANE_PAT_STATUS 0, 1)] up, by decide +kernel⟩,
   ⟨0, puts [(Obj.LANE_MODE 0, 1), (Obj.LANE_PAT_CHK 0, 1), (Obj.LANE_PAT_STATUS 0, 0), (Obj.LANE_LOOP 0, 0)] up, by decide +kernel⟩,
   ⟨0, [], (put (Obj.LANE_EYE_STATE 0) 1 up).setLane 0 { eye := 1 }, by decide +kernel⟩⟩

/-- The hypotheses of `Obligations.CamerasConnect` can be met, clause by clause. -/
theorem witness_CamerasConnect :
  (∃ (c : Ctx) (i : CamNo) (v : BitVec 8) (s : State), s.passes c (Obj.CAM_ENABLE i.val) 1 (le 1 v.toNat) = true ∧ v.toNat = 0) ∧
  (∃ (c : Ctx) (i : CamNo) (v : BitVec 8) (s : State), s.passes c (Obj.CAM_ENABLE i.val) 1 (le 1 v.toNat) = true ∧ let u := s.touch c
    v.toNat = 1 ∧ u.camState i.val = camOff ∧ let f := u.objN (Obj.CAM_LINK_FIRST i.val)
      let n := u.objN (Obj.CAM_LINKS i.val)
      f + n ≤ 16 ∧ (List.range 4).all (fun d => d == i.val || u.obj (Obj.CAM_ENABLE d) != 1) = true ∧ u.rangesOk [] (if u.camsEnabled.contains i.val then u.camsEnabled else i.val :: u.camsEnabled) = true ∧ ((List.range n).map (fun x => f + x)).any (fun x => u.laneTest (144 + x)) = false) ∧
  (∃ (i : CamNo) (d : Discovery) (s : State), s.camState i.val = camDiscovery ∧ let n := s.objN (Obj.CAM_LINKS i.val)
    d.links = n ∧ d.speedOk = true ∧ d.masterOk = true) ∧
  (∃ (i : CamNo) (d : Discovery) (s : State), s.camState i.val = camDiscovery ∧ let n := s.objN (Obj.CAM_LINKS i.val)
    d.links ≠ n) ∧
  (∃ (c : Ctx) (i : CamNo) (v : BitVec 8) (s : State), s.passes c (Obj.CAM_ACQUIRE i.val) 2 (le 1 v.toNat) = true ∧ let u := s.touch c
    u.camState i.val = camConfig ∧ u.hq.jobs = []) ∧
  (∃ (c : Ctx) (i : CamNo) (op : Nat) (s : State), s.passes c (Obj.CAM_REG_OP i.val) 2 (le 1 op) = true ∧ let u := s.touch c
    u.obj (Obj.CAM_REG_STATUS i.val) ≠ 1 ∧ (u.camState i.val = camConfig ∨ u.camState i.val = camAcquiring) ∧ op = 1) ∧
  (∃ (c : Ctx) (i : CamNo) (op : Nat) (s : State), s.passes c (Obj.CAM_REG_OP i.val) 2 (le 1 op) = true ∧ let u := s.touch c
    u.obj (Obj.CAM_REG_STATUS i.val) ≠ 1 ∧ (u.camState i.val = camConfig ∨ u.camState i.val = camAcquiring) ∧ op = 2) ∧
  (∃ (c : Ctx) (i : CamNo) (op : Nat) (s : State), s.passes c (Obj.CAM_REG_OP i.val) 2 (le 1 op) = true ∧ let u := s.touch c
    u.obj (Obj.CAM_REG_STATUS i.val) ≠ 1 ∧ (u.camState i.val = camConfig ∨ u.camState i.val = camAcquiring) ∧ op = 3) ∧
  (∃ (i : CamNo) (tag op n t : Nat) (ok : Bool) (old data : Bytes) (s : State), (s.cam i.val).reg = some (op, tag, n, t, old)) ∧
  (∃ (i : CamNo) (op tag n t : Nat) (data : Bytes) (s : State), (s.cam i.val).reg = some (op, tag, n, t, data) ∧ t + 50 * msNs ≤ s.now ∧ n < 3) ∧
  (∃ (i : CamNo) (op tag n t : Nat) (data : Bytes) (s : State), (s.cam i.val).reg = some (op, tag, n, t, data) ∧ t + 50 * msNs ≤ s.now ∧ 3 ≤ n) ∧
  (∃ (i : CamNo) (ev : Nat) (data : Bytes) (s : State), (s.camState i.val = camConfig ∨ s.camState i.val = camAcquiring)) :=
  ⟨⟨cx, 0, 0#8, su, by decide +kernel⟩,
   ⟨cx, 0, 1#8, su, by decide +kernel⟩,
   ⟨0, { links := 4, speedOk := true, masterOk := true }, puts [(Obj.CAM_STATE 0, 1), (Obj.CAM_LINKS 0, 4)] up, by decide +kernel⟩,
   ⟨0, { links := 3, speedOk := true, masterOk := true }, puts [(Obj.CAM_STATE 0, 1), (Obj.CAM_LINKS 0, 4)] up, by decide +kernel⟩,
   ⟨cx, 0, 1#8, put (Obj.CAM_STATE 0) 2 su, by decide +kernel⟩,
   ⟨cx, 0, 1, put (Obj.CAM_STATE 0) 2 su, by decide +kernel⟩,
   ⟨cx, 0, 2, put (Obj.CAM_STATE 0) 2 su, by decide +kernel⟩,
   ⟨cx, 0, 3, put (Obj.CAM_STATE 0) 3 su, by decide +kernel⟩,
   ⟨0, 1, 1, 1, 0, true, [], [], up.setCam 0 { reg := some (1, 1, 1, 0, []) }, by decide +kernel⟩,
   ⟨0, 1, 1, 2, 0, [], atNs 50000000 (up.setCam 0 { reg := some (1, 1, 2, 0, []) }), by decide +kernel⟩,
   ⟨0, 1, 1, 3, 0, [], atNs 50000000 (up.setCam 0 { reg := some (1, 1, 3, 0, []) }), by decide +kernel⟩,
   ⟨0, 1, [], put (Obj.CAM_STATE 0) 2 up, by decide +kernel⟩⟩

/-- The hypotheses of `Obligations.CameraFramesRun` can be met, clause by clause. -/
theorem witness_CameraFramesRun :
  (∃ (i : CamNo) (p : Int) (f : Frame) (at_ : Nat) (s : State), s.hasAuthority = true ∧ s.ready 9 = true ∧ s.camState i.val = camAcquiring ∧ firstTrig (s.trigs i.val) = some (p, .line f) ∧ s.tpredQ p = some at_ ∧ at_ - s.objN (Obj.CAM_TRIG_LAT i.val) ≤ s.now ∧ (s.cam i.val).trigBusy ≤ at_ - s.objN (Obj.CAM_TRIG_LAT i.val)) ∧
  (∃ (i : CamNo) (link : Fin 4) (px : Bytes) (f : Frame) (s : State), s.camState i.val = camAcquiring ∧ (s.cam i.val).frames.find? (fun f => !f.closed) = some f ∧ f.lines.length < f.height ∧ px.length = s.camLineBytes i.val) ∧
  (∃ (i : CamNo) (f : Frame) (s : State), (s.cam i.val).frames.find? (fun f => !f.closed) = some f ∧ s.camState i.val = camAcquiring) ∧
  (∃ (i : CamNo) (f : Frame) (s : State), (s.cam i.val).frames.find? (fun f => !f.closed) = some f ∧ f.endNs.any (fun t => decide (t + 1000 * s.objN (Obj.CAM_CLOSE_US i.val) ≤ s.now)) = true) ∧
  (∃ (i : CamNo) (s : State), s.camState i.val = camAcquiring ∧ (s.cam i.val).lastPkt + s.objN (Obj.CAM_TIMEOUT i.val) * msNs ≤ s.now) ∧
  (∃ (i : CamNo) (link : Fin 16) (s : State), s.objN (Obj.CAM_LINK_FIRST i.val) ≤ link.val ∧ link.val < s.objN (Obj.CAM_LINK_FIRST i.val) + s.objN (Obj.CAM_LINKS i.val) ∧ s.camState i.val ≠ camOff) :=
  ⟨⟨0, 0, { job := 7, number := 1, height := 4, lambda := 2 ^ 32 }, 0, { (put (Obj.CAM_STATE 0) 3 up).setCam 0 { frames := [{ job := 7, number := 1, height := 4, lambda := 2 ^ 32 }] } with ffy := { track := true, v := 1 } }, by decide +kernel, by decide +kernel, by decide +kernel, rfl, by decide +kernel, by decide +kernel, by decide +kernel⟩,
   ⟨0, 0, [], { job := 7, number := 1, height := 4 }, (puts [(Obj.CAM_STATE 0, 3), (Obj.CAM_WIDTH 0, 0)] up).setCam 0 { frames := [{ job := 7, number := 1, height := 4 }] }, by decide +kernel⟩,
   ⟨0, { job := 7, number := 1 }, (put (Obj.CAM_STATE 0) 3 up).setCam 0 { frames := [{ job := 7, number := 1 }] }, by decide +kernel⟩,
   ⟨0, { job := 7, number := 1, endNs := some 0 }, atNs 100000000000 (up.setCam 0 { frames := [{ job := 7, number := 1, endNs := some 0 }] }), by decide +kernel⟩,
   ⟨0, atNs 100000000000 (put (Obj.CAM_STATE 0) 3 up), by decide +kernel⟩,
   ⟨0, 0, puts [(Obj.CAM_STATE 0, 3), (Obj.CAM_LINKS 0, 4), (Obj.CAM_LINK_FIRST 0, 0)] up, by decide +kernel⟩⟩

/-- The hypotheses of `Obligations.NimbusJudges` can be met, clause by clause. -/
theorem witness_NimbusJudges :
  (∃ (j : Job) (s : State), s.nimJob = some j ∧ s.nim.pages.any (fun p => p.job == j.id) = true ∧ let p := s.pageOf j.id
    let k := p.bands
    let l1 := min j.lines (2048 * k + 2048)
    k < j.bands ∧ s.linesSeen j l1 = true ∧ s.nimRuns p = false) ∧
  (∃ (j : Job) (s : State), s.nimJob = some j ∧ s.nim.pages.any (fun p => p.job == j.id) = true ∧ let p := s.pageOf j.id
    let k := p.bands
    let l1 := min j.lines (2048 * k + 2048)
    k < j.bands ∧ s.linesSeen j l1 = true ∧ s.nimRuns p = true) ∧
  (∃ (j : Job) (s : State), s.nimJob = some j ∧ j.bands ≤ (s.pageOf j.id).bands ∧ j.st = .fired ∧ (s.nimCams j).any (fun c => (s.cam c).frames.any (fun f => f.job == j.id && !f.closed)) = false) ∧
  (∃ (i : Fin 4) (b : StreamBlk) (s : State), s.nim.blocks.find? (fun b => b.stream == i.val) = some b ∧ b.drop = false ∧ (i.val = 2 → s.ready 10 = true)) ∧
  (∃ (c : Ctx) (v : BitVec 32) (s : State), s.passes c Obj.NIM_EVID_FREE 4 (le 4 v.toNat) = true ∧ let u := s.touch c
    fwd32 v.toNat (u.objN Obj.NIM_EVID_PROD) ≤ u.evidUnits) :=
  ⟨⟨jp, { puts [(Obj.NIM_ENABLE, 0)] (jobs [jp] up) with nim := { pages := [{ job := 7, objs := [(Obj.NIM_ENABLE, 0)] }] } }, by decide +kernel⟩,
   ⟨jp, { jobs [jp] up with nim := { pages := [{ job := 7, objs := [(Obj.NIM_ENABLE, 1)] }] } }, by decide +kernel⟩,
   ⟨jp, { jobs [jp] up with nim := { pages := [{ job := 7, bands := 1 }] } }, by decide +kernel⟩,
   ⟨0, { stream := 0, format := 0, job := 7, x0 := 0, w := 1, y0 := 0, h := 1, data := [] }, { up with nim := { blocks := [{ stream := 0, format := 0, job := 7, x0 := 0, w := 1, y0 := 0, h := 1, data := [] }] } }, by decide +kernel⟩,
   ⟨cx, 0#32, su, by decide +kernel⟩⟩

/-- The hypotheses of `Obligations.CalibrationRuns` can be met, clause by clause. -/
theorem witness_CalibrationRuns :
  (∃ (cls inst : Nat) (s : State), calExists cls inst = true ∧ s.calState cls inst = 1 ∧ (s.calUnit cls inst).retryAt = none ∧ s.calRuns cls inst = true) ∧
  (∃ (c : Ctx) (v : BitVec 32) (s : State), s.passes c Obj.CAL_RUN 4 (le 4 v.toNat) = true ∧ let u := s.touch c
    let cls := field v.toNat 24 8
    let inst := field v.toNat 0 16
    calExists cls inst = true ∧ field v.toNat 16 8 = 0 ∧ u.ready (calDomain cls inst) = true ∧ (cls = 1 → bitAt (u.objN (Obj.LANE_STATUS inst)) lnLocked = true) ∧ u.calState cls inst < 2) ∧
  (∃ (cls inst : Nat) (r : List Int) (s : State), (cls = 1 ∨ cls = 2) ∧ calExists cls inst = true ∧ 2 ≤ s.calState cls inst ∧ s.calRuns cls inst = true ∧ (s.calUnit cls inst).first = none) ∧
  (∃ (cls inst : Nat) (r : List Int) (s : State), (cls = 1 ∨ cls = 2) ∧ calExists cls inst = true ∧ 2 ≤ s.calState cls inst ∧ s.calRuns cls inst = true ∧ ∃ a, (s.calUnit cls inst).first = some a ∧ s.calDelta (s.calTemp cls inst r) (s.calUnit cls inst).temp0 = false ∧ s.calAgrees cls inst a r = true) ∧
  (∃ (cls inst t : Nat) (s : State), (s.calUnit cls inst).retryAt = some t ∧ t ≤ s.now ∧ s.calRuns cls inst = true) ∧
  (∃ (c : Ctx) (v : BitVec 32) (p : Proposal) (s : State), s.passes c Obj.CAL_ACCEPT 4 (le 4 v.toNat) = true ∧ let u := s.touch c
    u.proposal? v.toNat = some p ∧ p.cls ≠ 5) ∧
  (∃ (c : Ctx) (v : BitVec 32) (p : Proposal) (s : State), s.passes c Obj.CAL_ACCEPT 4 (le 4 v.toNat) = true ∧ let u := s.touch c
    u.proposal? v.toNat = some p ∧ p.cls = 5) ∧
  (∃ (c : Ctx) (v : BitVec 32) (p : Proposal) (s : State), s.passes c Obj.CAL_REJECT 4 (le 4 v.toNat) = true ∧ (s.touch c).proposal? v.toNat = some p) ∧
  (∃ (q : Nat) (s : State), s.proposal? q = none) ∧
  (∃ (c : Ctx) (d : Bytes) (l : List (Nat × Nat × Int × Bytes)) (s : State), s.passes c Obj.CAL_RESTORE 13 d = true ∧ 16 ≤ d.length ∧ byteAt d 0 = 1 ∧ getN d 4 4 = d.length ∧ getN d 12 4 = crc32c (d.take 12 ++ d.drop 16) ∧ calEntries (getN d 2 2) (d.drop 16) = some l) :=
  ⟨⟨2, 0, put (calStateKey 2 0) 1 up, by decide +kernel⟩,
   ⟨cx, 0x02000000#32, su, by decide +kernel⟩,
   ⟨2, 0, [], put (calStateKey 2 0) 2 up, by decide +kernel⟩,
   ⟨2, 0, [100], { puts [(calStateKey 2 0, 3), (Obj.DRAM_EYE_MIN, 0)] up with cal := { units := [(0x20000, { first := some [100] })] } }, by decide +kernel, by decide +kernel, by decide +kernel, by decide +kernel, [100], by decide +kernel, by decide +kernel, by decide +kernel⟩,
   ⟨2, 0, 0, up.setCalUnit 2 0 { retryAt := some 0 }, by decide +kernel⟩,
   ⟨cx, 3#32, ⟨3, 4, 0, 0, 0, 0, 0⟩, { su with cal := { props := [⟨3, 4, 0, 0, 0, 0, 0⟩] } }, by decide +kernel⟩,
   ⟨cx, 3#32, ⟨3, 5, 0, 0, 0, 0, 0⟩, { su with cal := { props := [⟨3, 5, 0, 0, 0, 0, 0⟩] } }, by decide +kernel⟩,
   ⟨cx, 3#32, ⟨3, 5, 0, 0, 0, 0, 0⟩, { su with cal := { props := [⟨3, 5, 0, 0, 0, 0, 0⟩] } }, by decide +kernel⟩,
   ⟨3, up, by decide +kernel⟩,
   ⟨cx, layout 16 [(0, 1, 1), (4, 4, 16), (12, 4, crc32c (layout 12 [(0, 1, 1), (4, 4, 16)]))], [], su, by decide +kernel⟩⟩

/-- The hypotheses of `Obligations.PtpSourcesFeed` can be met, clause by clause. -/
theorem witness_PtpSourcesFeed :
  (∃ (a : Bytes) (l : List Bytes) (s : State), s.time.anchors = a :: l) ∧
  (∃ (d : Fin 2) (m : Announce) (s : State), s.obj (Obj.PTP_ENABLE d.val) ≠ 0 ∧ bitAt (s.objN (Obj.PTP_PORTS d.val)) m.port = true ∧ (s.ptp d.val).master = none) ∧
  (∃ (d : Fin 2) (m : Announce) (s : State), s.obj (Obj.PTP_ENABLE d.val) ≠ 0 ∧ bitAt (s.objN (Obj.PTP_PORTS d.val)) m.port = true ∧ ∃ o, (s.ptp d.val).master = some o ∧ o.gmId ≠ m.gmId ∧ announceBetter m o = true) ∧
  (∃ (d : Fin 2) (m : PtpMeas) (s : State), s.obj (Obj.PTP_ENABLE d.val) ≠ 0 ∧ bitAt (s.objN (Obj.PTP_PORTS d.val)) m.port = true ∧ (s.ptp d.val).master.isSome = true ∧ (s.ptp d.val).state ≠ ptpLost ∧ let theta := m.offset - s.obj (Obj.PTP_ASYM d.val) * 65536 / 1000
    ∃ f, (s.ptp d.val).filt = some f ∧ 8 * s.lockWindow d.val < (theta - f).natAbs) ∧
  (∃ (d : Fin 2) (m : PtpMeas) (s : State), s.obj (Obj.PTP_ENABLE d.val) ≠ 0 ∧ bitAt (s.objN (Obj.PTP_PORTS d.val)) m.port = true ∧ (s.ptp d.val).master.isSome = true ∧ (s.ptp d.val).state ≠ ptpLost ∧ let theta := m.offset - s.obj (Obj.PTP_ASYM d.val) * 65536 / 1000
    (∀ f, (s.ptp d.val).filt = some f → (theta - f).natAbs ≤ 8 * s.lockWindow d.val)) ∧
  (∃ (d : Fin 2) (s : State), ((s.ptp d.val).state = ptpUncal ∨ (s.ptp d.val).state = ptpLocked) ∧ (s.ptp d.val).lastNs + s.objN (Obj.PTP_LOSS_MS d.val) * msNs ≤ s.now) ∧
  (∃ (c : Ctx) (v : BitVec 8) (s : State), s.passes c Obj.TIME_PREF 2 (le 1 v.toNat) = true ∧ (s.touch c).srcLocked v.toNat = true) :=
  ⟨⟨[], [], { up with time := { anchors := [[]] } }, by decide +kernel⟩,
   ⟨0, an, puts [(Obj.PTP_ENABLE 0, 1), (Obj.PTP_PORTS 0, 3)] up, by decide +kernel⟩,
   ⟨0, { an with priority1 := 1, gmId := 1 }, { puts [(Obj.PTP_ENABLE 0, 1), (Obj.PTP_PORTS 0, 3)] up with time := { slots := [(0, { master := some an, state := 2 })] } }, by decide +kernel, by decide +kernel, an, by decide +kernel, by decide +kernel, by decide +kernel⟩,
   ⟨0, ⟨2 ^ 60, 0, 0, 37⟩, { puts [(Obj.PTP_ENABLE 0, 1), (Obj.PTP_PORTS 0, 3)] up with time := { slots := [(0, { master := some an, state := 2, filt := some 0 })] } }, by decide +kernel, by decide +kernel, by decide +kernel, by decide +kernel, 0, by decide +kernel, by decide +kernel⟩,
   ⟨0, ⟨0, 0, 0, 37⟩, { puts [(Obj.PTP_ENABLE 0, 1), (Obj.PTP_PORTS 0, 3)] up with time := { slots := [(0, { master := some an, state := 2 })] } }, by decide +kernel, by decide +kernel, by decide +kernel, by decide +kernel, fun f h => nomatch (show (none : Option Int) = some f from h)⟩,
   ⟨0, { (atNs 100000000000 up) with time := { acc := 100000000000 * 2 ^ 32, slots := [(0, { state := 3 })] } }, by decide +kernel⟩,
   ⟨cx, 0#8, { su with time := { slots := [(0, { state := 3 })] } }, by decide +kernel⟩⟩

/-- The hypotheses of `Obligations.TimeStepsAndPulses` can be met, clause by clause. -/
theorem witness_TimeStepsAndPulses :
  (∃ (c : Ctx) (d : Bytes) (s : State), s.passes c Obj.TIME_STEP 13 d = true ∧ d.length = 16 ∧ getN d 6 2 = 0 ∧ getN d 8 4 < nsPerSec ∧ let u := (s.touch c).dropTransfer c.sess
    let t : Int := ((getN d 0 6 * nsPerSec + getN d 8 4) * 2 ^ 32 + getN d 12 4 : Nat)
    let x := t - ((u.devNs * 2 ^ 32 + u.time.frac : Nat) : Int)
    u.objN Obj.TIME_STEP_MIN * 2 ^ 32 < x.natAbs ∧ u.mayStep = true) ∧
  (∃ (s : State), s.time.stepPending = true ∧ s.mayStep = true) ∧
  (∃ (s : State), s.obj Obj.PPS_IN_ENABLE ≠ 0 ∧ let t := (((s.devNs * 2 ^ 32 + s.time.frac : Nat) : Int) - s.obj Obj.PPS_IN_DELAY * 2 ^ 32).toNat
    let ns := t / 2 ^ 32 % nsPerSec
    let err : Int := if ns ≤ nsPerSec / 2 then (ns : Nat) else (ns : Int) - (nsPerSec : Nat)
    let s1 := (s.setBlob Obj.PPS_IN_EDGE 0 (le 6 (t / 2 ^ 32 / nsPerSec) ++ [0, 0] ++ le 4 ns ++ le 4 (t % 2 ^ 32))).setObj Obj.PPS_IN_ERR err
    s1.obj Obj.PPS_IN_SOURCE = 0) ∧
  (∃ (s : State), s.obj Obj.PPS_IN_ENABLE ≠ 0 ∧ let t := (((s.devNs * 2 ^ 32 + s.time.frac : Nat) : Int) - s.obj Obj.PPS_IN_DELAY * 2 ^ 32).toNat
    let ns := t / 2 ^ 32 % nsPerSec
    let err : Int := if ns ≤ nsPerSec / 2 then (ns : Nat) else (ns : Int) - (nsPerSec : Nat)
    let s1 := (s.setBlob Obj.PPS_IN_EDGE 0 (le 6 (t / 2 ^ 32 / nsPerSec) ++ [0, 0] ++ le 4 ns ++ le 4 (t % 2 ^ 32))).setObj Obj.PPS_IN_ERR err
    s1.obj Obj.PPS_IN_SOURCE ≠ 0) ∧
  (∃ (s : State), ((s.ptp 2).state = ptpUncal ∨ (s.ptp 2).state = ptpLocked) ∧ (s.ptp 2).lastNs + 3 * nsPerSec / 2 ≤ s.now) ∧
  (∃ (k : Fin 2) (s : State), (s.obj (Obj.PPS_OUT_MODE k.val) = 1 ∨ s.obj (Obj.PPS_OUT_MODE k.val) = 2 ∧ s.time.state = 2) ∧ s.ppsEnd k.val = 0 ∧ s.passesSecond (s.obj (Obj.PPS_OUT_OFFSET k.val)) = true) ∧
  (∃ (k : Fin 2) (s : State), s.ppsEnd k.val ≤ s.now) :=
  ⟨⟨cx, layout 16 [(0, 6, 100)], su, by decide +kernel⟩,
   ⟨{ up with time := { stepPending := true } }, by decide +kernel⟩,
   ⟨puts [(Obj.PPS_IN_ENABLE, 1), (Obj.PPS_IN_SOURCE, 0)] up, by decide +kernel⟩,
   ⟨puts [(Obj.PPS_IN_ENABLE, 1), (Obj.PPS_IN_SOURCE, 1)] up, by decide +kernel⟩,
   ⟨{ up with time := { acc := 1500000000 * 2 ^ 32, pps := { state := 3 } } }, by decide +kernel⟩,
   ⟨0, put (Obj.PPS_OUT_MODE 0) 1 up, by decide +kernel⟩,
   ⟨0, up, by decide +kernel⟩⟩

/-- The hypotheses of `Obligations.SessionsServe` can be met, clause by clause. -/
theorem witness_SessionsServe :
  (∃ (t : Fin 4) (seq : BitVec 32) (nonce : Bytes) (s : State), s.toaUp = true ∧ let fresh := s.toa.opens.filter (fun (e : Bytes × Nat × Nat) => decide (s.aclkNs ≤ e.2.2 + s.objN Obj.SESSION_IDLE_S * 10 ^ 9))
    fresh.find? (fun (e : Bytes × Nat × Nat) => e.1 == nonce && (s.session? e.2.1).isSome) = none ∧ s.toa.sessions.length < 16) ∧
  (∃ (c : Ctx) (s : State), s.toaUp = true ∧ (s.session? c.sess).isSome = true) ∧
  (∃ (c : Ctx) (slot : Nat) (nonce : Bytes) (s : State), s.toaUp = true ∧ (s.session? c.sess).isSome = true ∧ slot ≤ 3 ∧ (s.touch c).slotUsable slot = true) ∧
  (∃ (c : Ctx) (proof : Bytes) (s : State) (x : Session) (slot : Nat) (nh nd : Bytes), s.toaUp = true ∧ (s.session? c.sess).isSome = true ∧ (s.touch c).session? c.sess = some x ∧ x.auth = some (slot, nh, nd) ∧ let u := (s.touch c).mapSession c.sess (fun y => { y with auth := none })
    u.slotUsable slot = true ∧ (hmac256 (u.slotKey slot) (authMsg tagProof c.sess nh nd)).take 16 = proof ∧ u.heldElsewhere c.sess = false) ∧
  (∃ (c : Ctx) (proof : Bytes) (s : State) (x : Session) (slot : Nat) (nh nd : Bytes), s.toaUp = true ∧ (s.session? c.sess).isSome = true ∧ (s.touch c).session? c.sess = some x ∧ x.auth = some (slot, nh, nd) ∧ let u := (s.touch c).mapSession c.sess (fun y => { y with auth := none })
    u.slotUsable slot = true ∧ (hmac256 (u.slotKey slot) (authMsg tagProof c.sess nh nd)).take 16 ≠ proof) ∧
  (∃ (c : Ctx) (s : State), s.toaUp = true ∧ (s.session? c.sess).isSome = true) ∧
  (∃ (id : Nat) (x : Session) (s : State), s.toaUp = true ∧ s.session? id = some x ∧ s.idleDue x = true) ∧
  (∃ (x : Session) (s : State), s.toaUp = true ∧ s.toa.sessions.find? s.leaseDue = some x) :=
  ⟨⟨0, 0#32, zeros 16, up, by decide +kernel⟩,
   ⟨cx, su, by decide +kernel⟩,
   ⟨cx, 0, zeros 16, put Obj.SEC_KEY_STATE 1 su, by decide +kernel⟩,
   ⟨cx, (hmac256 (au.slotKey 0) (authMsg tagProof cx.sess (zeros 16) (zeros 16))).take 16, au, { id := 5, seqHi := 1, transport := 3, auth := some (0, zeros 16, zeros 16) }, 0, zeros 16, zeros 16, by decide +kernel, by decide +kernel, by decide +kernel, by decide +kernel, by decide +kernel, rfl, by decide +kernel⟩,
   ⟨cx, [], au, { id := 5, seqHi := 1, transport := 3, auth := some (0, zeros 16, zeros 16) }, 0, zeros 16, zeros 16, by decide +kernel⟩,
   ⟨cx, su, by decide +kernel⟩,
   ⟨5, { id := 5, seqHi := 1 }, { atNs 10000000000000 up with toa := { sessions := [{ id := 5, seqHi := 1 }] } }, by decide +kernel⟩,
   ⟨{ id := 5, seqHi := 1, super := true }, { atNs 10000000000000 up with toa := { sessions := [{ id := 5, seqHi := 1, super := true }] } }, by decide +kernel⟩⟩

/-- The hypotheses of `Obligations.ObjectCommandsServe` can be met, clause by clause. -/
theorem witness_ObjectCommandsServe :
  (∃ (c : Ctx) (l : List Item) (s : State), s.toaUp = true ∧ (s.session? c.sess).isSome = true ∧ itemsOk 0x10 l = true) ∧
  (∃ (c : Ctx) (l : List Item) (s : State), s.toaUp = true ∧ (s.session? c.sess).isSome = true) ∧
  (∃ (c : Ctx) (l : List Item) (s : State), s.toaUp = true ∧ (s.session? c.sess).isSome = true ∧ itemsOk 0x12 l = true) ∧
  (∃ (c : Ctx) (l : List Item) (s : State), s.toaUp = true ∧ (s.session? c.sess).isSome = true) ∧
  (∃ (c : Ctx) (l : List Item) (s : State), s.toaUp = true ∧ (s.session? c.sess).isSome = true) ∧
  (∃ (cmd : Nat) (c : Ctx) (whole left : Nat) (acc : List ItemRes) (pos : Option Nat) (i : Item) (l : List Item)
    (s : State), let x := runItem cmd c whole (left - 8 * l.length) s i
    left - 8 * l.length < x.2.bytes.length) ∧
  (∃ (cmd : Nat) (c : Ctx) (whole left : Nat) (acc : List ItemRes) (pos : Option Nat) (i : Item) (l : List Item)
    (s : State), let x := runItem cmd c whole (left - 8 * l.length) s i
    x.2.bytes.length ≤ left - 8 * l.length ∧ (x.1.pwr.asked = true → s.pwr.asked = true)) ∧
  (∃ (c : Ctx) (s : State), s.toaUp = true ∧ (s.session? c.sess).isSome = true ∧ let u := s.touch c
    ∃ x, u.session? c.sess = some x ∧ x.staging = []) ∧
  (∃ (c : Ctx) (s : State), s.toaUp = true ∧ (s.session? c.sess).isSome = true ∧ let u := s.touch c
    ∃ x y l, u.session? c.sess = some x ∧ x.staging = y :: l ∧ l.all (fun z => keyClass z.key == keyClass y.key) = true ∧ u.gainsBad (y :: l) = false ∧ u.toa.pending.length < 8) ∧
  (∃ (c : Ctx) (s : State), s.toaUp = true ∧ (s.session? c.sess).isSome = true) :=
  ⟨⟨cx, [⟨0x1000, 1, 0, []⟩], su, by decide +kernel⟩,
   ⟨cx, [], su, by decide +kernel⟩,
   ⟨cx, [], su, by decide +kernel⟩,
   ⟨cx, [], su, by decide +kernel⟩,
   ⟨cx, [], su, by decide +kernel⟩,
   ⟨0x11, cx, 100, 0, [], none, ⟨0x1000, 1, 4, []⟩, [], su, by decide +kernel⟩,
   ⟨0x11, cx, 100, 100, [], none, ⟨0x1000, 1, 4, []⟩, [], su, by decide +kernel⟩,
   ⟨cx, su, by decide +kernel, by decide +kernel, { id := 5, seqHi := 1, super := true, transport := 3 }, by decide +kernel, by decide +kernel⟩,
   ⟨cx, { su with toa := { sessions := [{ id := 5, seqHi := 1, super := true, transport := 3, staging := [⟨Obj.FFY_TOF_OFFSET 0, zeros 8⟩] }] } }, by decide +kernel, by decide +kernel, { id := 5, seqHi := 1, super := true, transport := 3, staging := [⟨Obj.FFY_TOF_OFFSET 0, zeros 8⟩] }, ⟨Obj.FFY_TOF_OFFSET 0, zeros 8⟩, [], by decide +kernel, by decide +kernel, by decide +kernel, by decide +kernel, by decide +kernel⟩,
   ⟨cx, su, by decide +kernel⟩⟩

/-- The hypotheses of `Obligations.TransportsServe` can be met, clause by clause. -/
theorem witness_TransportsServe :
  (∃ (t : Fin 4) (f : Bytes) (s : State), s.toaUp = true ∧ t.val ≤ 1 ∧ s.enUp t.val = true) ∧
  (∃ (t : Fin 4) (f : Bytes) (s : State), s.toaUp = true ∧ 1 < t.val) ∧
  (∃ (t : Fin 4) (f : Bytes) (s : State), s.toaUp = true ∧ 1 < t.val ∧ toaFrameOk f = false) ∧
  (∃ (t : Fin 4) (f : Bytes) (s : State), s.toaUp = true ∧ 1 < t.val ∧ (s.request t.val 65536 65536 f).waits = false ∧ ∃ r, (s.request t.val 65536 65536 f).frame = some r) ∧
  (∃ (q : Fin 2) (f d : Bytes) (s : State), s.toaUp = true ∧ s.headOfType (60 + q.val) 0x40 = some d ∧ mbSizeOk (getN d 4 4) = true ∧ mbSizeOk (getN d 24 4) = true) ∧
  (∃ (len : BitVec 32) (s : State), s.hq.linkUp = true ∧ s.ready 1 = true ∧ s.jnl.booted = true ∧ s.hq.mbBusy = false ∧ 20 ≤ len.toNat ∧ len.toNat ≤ 65536) ∧
  (∃ (n : Nat) (c : CommitSet) (s : State), s.toa.pending.find? (fun c => c.number == n) = some c ∧ c.cls = 1 ∧ c.passedBars = c.bars ∧ c.boundJob.isSome = true) ∧
  (∃ (n : Nat) (c : CommitSet) (s : State), s.toa.pending.find? (fun c => c.number == n) = some c ∧ c.cls = 2 ∧ (∀ b, b < 8 → bitAt c.bars b = true → s.barIdle b = true) ∧ s.earlierOverlap c = false ∧ s.gainsBad c.items = false ∧ c.items.any (fun x => x.key == Obj.FFY_SLOT_NS || x.key == Obj.FFY_ROTATE) = false ∧ (c.items.filter (fun x => x.key % 256 == 1 && x.key / 256 % 0x100 == 0 && decide (x.key / 256 / 0x1000 = 3))) = []) ∧
  (∃ (n : Nat) (c : CommitSet) (s : State), s.toa.pending.find? (fun c => c.number == n) = some c ∧ c.cls = 3 ∧ c.items.all (fun x => isNimbusKey x.key) = true ∧ s.earlierOverlap c = false ∧ (∀ i, i < 4 → s.obj (Obj.CAM_STATE i) ≠ 3) ∧ ∃ j, s.unseenJob = some j) ∧
  (∃ (c : Ctx) (p : Fin 2) (sub : Fin 256) (ty : Nat) (d : Bytes) (s : State), let k := (0x1110 + p.val) * 256 + sub.val
    Obj.kind k = some (ty, .rws, false) ∧ s.passes c k ty d = true ∧ let u := if ty = 13 then (s.touch c).dropTransfer c.sess else s.touch c
    u.enRefusal p.val sub.val (Obj.decode ty d).toNat d = 0) :=
  ⟨⟨0, [], puts [(Obj.EN_LINK 0, 1), (Obj.EN_ENABLE 0, 1)] up, by decide +kernel⟩,
   ⟨2, [], up, by decide +kernel⟩,
   ⟨2, [], up, by decide +kernel⟩,
   ⟨2, ping, su, by decide +kernel, by decide +kernel, by decide +kernel, Option.isSome_iff_exists.mp (by decide +kernel)⟩,
   ⟨0, zeros 20, dsc [(0, 1, 0x40), (4, 4, 20), (8, 8, 0), (16, 8, 0), (24, 4, 65536)], hd 60 (dsc [(0, 1, 0x40), (4, 4, 20), (8, 8, 0), (16, 8, 0), (24, 4, 65536)]) up, by decide +kernel⟩,
   ⟨20#32, up, by decide +kernel⟩,
   ⟨3, { number := 3, cls := 1, boundJob := some 7 }, { up with toa := { pending := [{ number := 3, cls := 1, boundJob := some 7 }] } }, by decide +kernel⟩,
   ⟨3, { number := 3, cls := 2 }, { up with toa := { pending := [{ number := 3, cls := 2 }] } }, by decide +kernel, by decide +kernel, fun b _ h => absurd h (by simp [bitAt]), by decide +kernel, by decide +kernel, by decide +kernel, by decide +kernel⟩,
   ⟨3, { number := 3, cls := 3 }, { jobs [{ jb with bars := [{ staged := true, passed := 1 }] }] up with toa := { pending := [{ number := 3, cls := 3 }] } }, by decide +kernel, by decide +kernel, by decide +kernel, by decide +kernel, by decide +kernel, { jb with bars := [{ staged := true, passed := 1 }] }, by decide +kernel⟩,
   ⟨cx, 0, 5, 2, [24], su, by decide +kernel⟩⟩

/-- The hypotheses of `Obligations.PowerStates` can be met, clause by clause. -/
theorem witness_PowerStates :
  (∃ (c : Ctx) (v : BitVec 8) (s : State), s.passes c Obj.PWR_TARGET 2 (le 1 v.toNat) = true ∧ let u := s.touch c
    v.toNat % 128 ≤ 4 ∧ (128 ≤ v.toNat → v.toNat % 128 = pwOff) ∧ u.pwrRunning = false ∧ v.toNat % 128 ≠ u.pwState) ∧
  (∃ (c : Ctx) (v : BitVec 8) (s : State), s.passes c Obj.PWR_TARGET 2 (le 1 v.toNat) = true ∧ let u := s.touch c
    v.toNat % 128 ≤ 4 ∧ (128 ≤ v.toNat → v.toNat % 128 = pwOff) ∧ u.pwrRunning = false ∧ v.toNat % 128 = u.pwState) ∧
  (∃ (s : State), s.pwrRunning = true ∧ s.pwr.rising = none ∧ s.pwr.off = false ∧ s.pwr.asked = true) ∧
  (∃ (s : State), s.pwrRunning = true ∧ s.pwr.rising = none ∧ s.pwr.off = false ∧ s.pwr.asked = false ∧ bitAt s.pwr.ctrl 31 = false ∧ s.pwState < field s.pwr.ctrl 0 3) ∧
  (∃ (s : State), s.pwrRunning = true ∧ s.pwr.rising = none ∧ s.pwr.off = false ∧ s.pwr.asked = false ∧ bitAt s.pwr.ctrl 31 = false ∧ field s.pwr.ctrl 0 3 ≤ s.pwState) ∧
  (∃ (s : State), s.pwrRunning = true ∧ s.pwr.rising = none ∧ s.pwr.off = false ∧ s.pwr.asked = false ∧ bitAt s.pwr.ctrl 31 = true) ∧
  (∃ (d : Fin 12) (s : State), s.fallAsks d.val = true ∧ s.pwr.rising = none ∧ s.pwr.off = false ∧ s.pwr.asked = false) ∧
  (∃ (s : State), let v := s.objN Obj.PWR_VCORE
    v ≠ s.pwr.goal ∧ (10 < ((s.pwr.goal : Int) - (v : Int)).natAbs → s.pwr.stepNs + 100000 ≤ s.aclkNs) ∧ s.pwr.rising = none) ∧
  (∃ (s : State), let v := s.objN Obj.PWR_VCORE
    v ≠ s.pwr.goal ∧ (10 < ((s.pwr.goal : Int) - (v : Int)).natAbs → s.pwr.stepNs + 100000 ≤ s.aclkNs) ∧ ∃ mode cause, s.pwr.rising = some (mode, cause)) :=
  ⟨⟨cx, 1#8, su, by decide +kernel⟩,
   ⟨cx, 0#8, su, by decide +kernel⟩,
   ⟨{ put Obj.PWR_STATUS 4 up with pwr := { asked := true, ctrl := 1 } }, by decide +kernel⟩,
   ⟨{ put Obj.PWR_STATUS 4 up with pwr := { ctrl := 1 } }, by decide +kernel⟩,
   ⟨{ put Obj.PWR_STATUS 4 up with pwr := { ctrl := 0 } }, by decide +kernel⟩,
   ⟨{ put Obj.PWR_STATUS 4 up with pwr := { ctrl := 4 + 2 ^ 31 } }, by decide +kernel⟩,
   ⟨4, { put Obj.PWR_STATUS 4 up with pwr := { ctrl := 3 } }, by decide +kernel⟩,
   ⟨put Obj.PWR_VCORE 760 { up with pwr := { goal := 750 } }, by decide +kernel⟩,
   ⟨put Obj.PWR_VCORE 760 { up with pwr := { goal := 750, rising := some (0, 1) } }, by decide +kernel, by decide +kernel, 0, 1, by decide +kernel⟩⟩

/-- The hypotheses of `Obligations.AxesMove` can be met, clause by clause. -/
theorem witness_AxesMove :
  (∃ (x : Axis) (s : State), s.ready 11 = true ∧ (s.ax x.val).wake ≤ s.now ∧ (s.ax x.val).dirty = false ∧ s.slaved x.val = false ∧ let r := (s.ax x.val).kin.sample axDt (s.ax x.val).plan
    r.2 ≠ []) ∧
  (∃ (c : Ctx) (x : Axis) (v : BitVec 64) (s : State), s.passes c (Obj.AX_TARGET x.val) 11 (le 8 v.toNat) = true ∧ let u := s.touch c
    let y := Obj.decode 11 (le 8 v.toNat)
    u.axRefuses x.val = false ∧ (u.axBit x.val bHomed = true → u.obj (Obj.AX_SOFT_MIN x.val) ≤ y ∧ y ≤ u.obj (Obj.AX_SOFT_MAX x.val)) ∧ (u.limActive x.val true = true → q32Val y ≤ (u.ax x.val).p) ∧ (u.limActive x.val false = true → (u.ax x.val).p ≤ q32Val y) ∧ (u.ax x.val).moving = false) ∧
  (∃ (c : Ctx) (x : Axis) (v : BitVec 64) (s : State), s.passes c (Obj.AX_TARGET x.val) 11 (le 8 v.toNat) = true ∧ let u := s.touch c
    let y := Obj.decode 11 (le 8 v.toNat)
    u.axRefuses x.val = false ∧ (u.axBit x.val bHomed = true → u.obj (Obj.AX_SOFT_MIN x.val) ≤ y ∧ y ≤ u.obj (Obj.AX_SOFT_MAX x.val)) ∧ (u.limActive x.val true = true → q32Val y ≤ (u.ax x.val).p) ∧ (u.limActive x.val false = true → (u.ax x.val).p ≤ q32Val y) ∧ (u.ax x.val).moving = true ∧ (u.ax x.val).abort = false) ∧
  (∃ (c : Ctx) (x : Axis) (v : BitVec 64) (s : State), s.passes c (Obj.AX_TARGET x.val) 11 (le 8 v.toNat) = true ∧ let u := s.touch c
    let y := Obj.decode 11 (le 8 v.toNat)
    u.axRefuses x.val = false ∧ (u.axBit x.val bHomed = true → u.obj (Obj.AX_SOFT_MIN x.val) ≤ y ∧ y ≤ u.obj (Obj.AX_SOFT_MAX x.val)) ∧ (u.limActive x.val true = true → q32Val y ≤ (u.ax x.val).p) ∧ (u.limActive x.val false = true → (u.ax x.val).p ≤ q32Val y) ∧ (u.ax x.val).moving = true ∧ (u.ax x.val).abort = true) ∧
  (∃ (c : Ctx) (x : Axis) (s : State), s.passes c (Obj.AX_STOP x.val) 2 (le 1 1) = true ∧ ((s.touch c).ax x.val).moving = true) ∧
  (∃ (c : Ctx) (x : Axis) (v : BitVec 8) (s : State), s.passes c (Obj.AX_ENABLE x.val) 1 (le 1 v.toNat) = true ∧ let u := s.touch c
    v = 1#8 ∧ u.stoHeld (x.val / 3) = false ∧ u.axBit x.val bAxen = false) ∧
  (∃ (c : Ctx) (x : Axis) (v : BitVec 8) (s : State), s.passes c (Obj.AX_ENABLE x.val) 1 (le 1 v.toNat) = true ∧ let u := s.touch c
    v = 0#8 ∧ u.axBit x.val bAxen = true ∧ (u.ax x.val).moving = false ∧ (u.ax x.val).atRest = true) ∧
  (∃ (c : Ctx) (x : Axis) (v : BitVec 8) (s : State), s.passes c (Obj.AX_ENABLE x.val) 1 (le 1 v.toNat) = true ∧ let u := s.touch c
    v = 0#8 ∧ u.axBit x.val bAxen = true ∧ ((u.ax x.val).moving = true ∨ (u.ax x.val).atRest = false)) :=
  ⟨⟨0, up.setAx 0 (fun m => { m with v := 1, moving := true, plan := [(1, 0)] }), by decide +kernel⟩,
   ⟨cx, 0, 5#64, (put (Obj.AX_STATUS 0) (2 ^ bAxen) su).setAx 0 (fun m => { m with accept := true }), by decide +kernel⟩,
   ⟨cx, 0, 5#64, (put (Obj.AX_STATUS 0) (2 ^ bAxen) su).setAx 0 (fun m => { m with accept := true, moving := true }), by decide +kernel⟩,
   ⟨cx, 0, 5#64, (put (Obj.AX_STATUS 0) (2 ^ bAxen) su).setAx 0 (fun m => { m with accept := true, moving := true, abort := true }), by decide +kernel⟩,
   ⟨cx, 0, su.setAx 0 (fun m => { m with moving := true }), by decide +kernel⟩,
   ⟨cx, 0, 1#8, su, by decide +kernel⟩,
   ⟨cx, 0, 0#8, put (Obj.AX_STATUS 0) (2 ^ bAxen) su, by decide +kernel⟩,
   ⟨cx, 0, 0#8, (put (Obj.AX_STATUS 0) (2 ^ bAxen) su).setAx 0 (fun m => { m with moving := true }), by decide +kernel⟩⟩

/-- The hypotheses of `Obligations.AxesGuard` can be met, clause by clause. -/
theorem witness_AxesGuard :
  (∃ (x : Axis) (s : State), s.axBit x.val bAxen = true ∧ (s.ax x.val).accept = false ∧ (s.ax x.val).enabledAt + s.objN (Obj.AX_EN_DELAY x.val) * 1000000 ≤ s.now) ∧
  (∃ (x : Axis) (positive : Bool) (s : State), s.limActive x.val positive = true ∧ s.ready 11 = true ∧ (if positive then (s.ax x.val).limPos else (s.ax x.val).limNeg) = false) ∧
  (∃ (x : Axis) (t : Nat) (s : State), (s.ax x.val).feSince = some t ∧ s.ready 11 = true ∧ (s.axError x.val).isSome = true ∧ t + s.objN (Obj.AX_FE_MS x.val) * 1000000 ≤ s.now) ∧
  (∃ (c : Ctx) (x : Axis) (s : State), s.passes c (Obj.AX_HOME x.val) 2 (le 1 1) = true ∧ let u := s.touch c
    u.axRefuses x.val = false ∧ (u.ax x.val).abort = false) ∧
  (∃ (x : Axis) (s : State), s.objN (Obj.AX_CUR_PWM x.val) < 32 ∧ (s.ax x.val).atRest = true ∧ (s.ax x.val).moving = false ∧ s.slaved x.val = false ∧ s.axBit x.val bCurReduced = false ∧ s.ready 11 = true ∧ (s.ax x.val).still + s.objN (Obj.AX_IDLE_MS x.val) * 1000000 ≤ s.now) ∧
  (∃ (c : Ctx) (x : Axis) (v : BitVec 8) (s : State), s.passes c (Obj.AX_CAM_ENGAGE x.val) 2 (le 1 v.toNat) = true ∧ let u := s.touch c
    v = 1#8 ∧ u.slaved x.val = false ∧ u.axRefuses x.val = false ∧ (u.ax x.val).moving = false ∧ u.camLoops x.val 24 x.val = false) ∧
  (∃ (c : Ctx) (x : Axis) (v : BitVec 8) (s : State), s.passes c (Obj.AX_CAM_ENGAGE x.val) 2 (le 1 v.toNat) = true ∧ let u := s.touch c
    v = 0#8 ∧ u.slaved x.val = true) ∧
  (∃ (c : Ctx) (k : Fin 8) (d : Bytes) (s : State), s.passes c (Obj.CAM_TABLE k.val) 13 d = true ∧ d.length = 4100 ∧ crc32c (d.take 4096) = getN d 4096 4 ∧ let u := (s.touch c).dropTransfer c.sess
    (∀ x, x < 24 → u.slaved x = true → u.objN (Obj.AX_CAM_TABLE x) ≠ k.val)) ∧
  (∃ (c : Ctx) (x : Axis) (v : BitVec 8) (s : State), s.passes c (Obj.AX_MODE x.val) 2 (le 1 v.toNat) = true ∧ let u := s.touch c
    let w := u.setObj (Obj.AX_MODE x.val) (v.toNat : Nat)
    (v = 1#8 → u.obj (Obj.AX_OUT_MODE x.val) ≠ 1) ∧ w.axLoop x.val = none) ∧
  (∃ (c : Ctx) (x : Axis) (v : BitVec 8) (s : State), s.passes c (Obj.AX_MODE x.val) 2 (le 1 v.toNat) = true ∧ let u := s.touch c
    let w := u.setObj (Obj.AX_MODE x.val) (v.toNat : Nat)
    (v = 1#8 → u.obj (Obj.AX_OUT_MODE x.val) ≠ 1) ∧ ∃ l, w.axLoop x.val = some l) ∧
  (∃ (x : Axis) (t : Nat) (s : State), (s.ax x.val).contactSince = some t ∧ s.ready 11 = true ∧ s.axBit x.val bContact = false ∧ t + s.objN (Obj.AX_CONTACT_MS x.val) * 1000000 ≤ s.now) :=
  ⟨⟨0, atNs 100000000000 (put (Obj.AX_STATUS 0) (2 ^ bAxen) up), by decide +kernel⟩,
   ⟨0, true, puts [(Obj.AX_LIM_POS_PIN 0, 3), (Obj.AX_LIM_POL 0, 3), (Obj.GPIO_IN, 255), (Obj.GPIO_DIR, 0)] up, by decide +kernel⟩,
   ⟨0, 0, atNs 100000000000 (put (Obj.AX_ENC 0) 0 (up.setAx 0 (fun m => { m with feSince := some 0, p := 1000000 }))), by decide +kernel⟩,
   ⟨cx, 0, (put (Obj.AX_STATUS 0) (2 ^ bAxen) su).setAx 0 (fun m => { m with accept := true }), by decide +kernel⟩,
   ⟨0, atNs 100000000000 (put (Obj.AX_CUR_PWM 0) 3 up), by decide +kernel⟩,
   ⟨cx, 0, 1#8, (puts [(Obj.AX_STATUS 0, 2 ^ bAxen), (Obj.AX_CAM_MASTER 0, 1)] su).setAx 0 (fun m => { m with accept := true }), by decide +kernel⟩,
   ⟨cx, 0, 0#8, put (Obj.AX_CAM_ENGAGE 0) 1 su, by decide +kernel⟩,
   ⟨cx, 0, camZeros, su, passes_camTable, cam_length, cam_crc, by decide +kernel⟩,
   ⟨cx, 0, 1#8, su, by decide +kernel⟩,
   ⟨cx, 0, 1#8, puts [(Obj.AX_OUT_MODE 0, 2), (Obj.AX_LOOP 0, 0)] su, by decide +kernel, by decide +kernel, 0, by decide +kernel⟩,
   ⟨0, 0, atNs 100000000000 ((put (Obj.AX_STATUS 0) 0 up).setAx 0 (fun m => { m with contactSince := some 0 })), by decide +kernel⟩⟩

/-- The hypotheses of `Obligations.LoopsRun` can be met, clause by clause. -/
theorem witness_LoopsRun :
  (∃ (l : LoopNo) (s : State), s.ready 11 = true ∧ s.obj (Obj.LP_STATE l.val) = 1 ∧ let e := s.evaluate l.val
    e.bad = [] ∧ e.notFinite = none) ∧
  (∃ (l : LoopNo) (s : State), s.ready 11 = true ∧ s.obj (Obj.LP_STATE l.val) = 1 ∧ let e := s.evaluate l.val
    ∃ i, e.bad = [] ∧ e.notFinite = some i) ∧
  (∃ (l : LoopNo) (s : State), s.ready 11 = true ∧ s.obj (Obj.LP_STATE l.val) = 1 ∧ let e := s.evaluate l.val
    ∃ b t, e.bad = b :: t ∧ e.notFinite = none ∧ let s2 := ((s.setLpBit l.val bInvalid true).count (Obj.LP_INVALID_CNT l.val) 1).setLoop l.val (fun t => { t with bad := t.bad + 1 })
      s2.objN (Obj.LP_INVALID_MAX l.val) ≤ (s2.loop l.val).bad) ∧
  (∃ (l : LoopNo) (s : State), s.ready 11 = true ∧ s.obj (Obj.LP_STATE l.val) = 1 ∧ let e := s.evaluate l.val
    ∃ b t, e.bad = b :: t ∧ e.notFinite = none ∧ let s2 := ((s.setLpBit l.val bInvalid true).count (Obj.LP_INVALID_CNT l.val) 1).setLoop l.val (fun t => { t with bad := t.bad + 1 })
      (s2.loop l.val).bad < s2.objN (Obj.LP_INVALID_MAX l.val)) ∧
  (∃ (c : Ctx) (l : LoopNo) (v : BitVec 8) (s : State), s.passes c (Obj.LP_ENABLE l.val) 1 (le 1 v.toNat) = true ∧ let u := s.touch c
    v = 1#8 ∧ u.obj (Obj.LP_ENABLE l.val) ≠ 1 ∧ (u.dests l.val).any (fun k => u.ownerOf k != 0 || decide (1 < (u.dests l.val).count k)) = false ∧ (u.loopAdc l.val).any (fun a => !u.objBit Obj.ADC_ENABLE a) = false) ∧
  (∃ (c : Ctx) (l : LoopNo) (v : BitVec 8) (s : State), s.passes c (Obj.LP_ENABLE l.val) 1 (le 1 v.toNat) = true ∧ v = 0#8) ∧
  (∃ (c : Ctx) (l : LoopNo) (v : BitVec 8) (s : State), s.passes c (Obj.LP_MODE l.val) 2 (le 1 v.toNat) = true ∧ (s.touch c).loopAxis l.val = none) ∧
  (∃ (l : LoopNo) (s : State), s.obj (Obj.LP_STATE l.val) = 1 ∧ s.ready 11 = true ∧ s.objN (Obj.LP_FE_MS l.val) * 1000000 ≤ (s.loop l.val).feNs ∧ let act := s.objN (Obj.LP_FE_ACTION l.val)
    act = 0) ∧
  (∃ (l : LoopNo) (s : State), s.obj (Obj.LP_STATE l.val) = 1 ∧ s.ready 11 = true ∧ s.objN (Obj.LP_FE_MS l.val) * 1000000 ≤ (s.loop l.val).feNs ∧ let act := s.objN (Obj.LP_FE_ACTION l.val)
    act = 1) ∧
  (∃ (l : LoopNo) (s : State), s.obj (Obj.LP_STATE l.val) = 1 ∧ s.ready 11 = true ∧ s.objN (Obj.LP_FE_MS l.val) * 1000000 ≤ (s.loop l.val).feNs ∧ let act := s.objN (Obj.LP_FE_ACTION l.val)
    act = 2) ∧
  (∃ (c : Ctx) (l : LoopNo) (v : BitVec 8) (s : State), s.passes c (Obj.LP_TR_ARM l.val) 2 (le 1 v.toNat) = true ∧ let u := s.touch c
    v = 1#8 ∧ u.obj (Obj.LP_TR_STATE l.val) ≠ 1 ∧ u.obj (Obj.LP_TR_STATE l.val) ≠ 2) ∧
  (∃ (c : Ctx) (l : LoopNo) (v : BitVec 8) (s : State), s.passes c (Obj.LP_TR_ARM l.val) 2 (le 1 v.toNat) = true ∧ v = 0#8) ∧
  (∃ (c : Ctx) (l : LoopNo) (s : State), s.passes c (Obj.LP_TR_FORCE l.val) 2 (le 1 1) = true) :=
  ⟨⟨0, put (Obj.LP_STATE 0) 1 up, by decide +kernel⟩,
   ⟨0, { put (Obj.LP_STATE 0) 1 up with blobs := [(blobAddr (Obj.LP_IN_OFFS 0) 2, 0x80), (blobAddr (Obj.LP_IN_OFFS 0) 3, 0x7F)] }, by decide +kernel, by decide +kernel, 0, by decide +kernel, by decide +kernel⟩,
   ⟨0, puts [(Obj.LP_STATE 0, 1), (Obj.LP_IN_SRC 0, 0x94), (Obj.LP_INVALID_MAX 0, 1)] up, by decide +kernel, by decide +kernel, 0, [], by decide +kernel, by decide +kernel, by decide +kernel⟩,
   ⟨0, puts [(Obj.LP_STATE 0, 1), (Obj.LP_IN_SRC 0, 0x94), (Obj.LP_INVALID_MAX 0, 5)] up, by decide +kernel, by decide +kernel, 0, [], by decide +kernel, by decide +kernel, by decide +kernel⟩,
   ⟨cx, 0, 1#8, su, by decide +kernel⟩,
   ⟨cx, 0, 0#8, su, by decide +kernel⟩,
   ⟨cx, 0, 1#8, su, by decide +kernel⟩,
   ⟨0, puts [(Obj.LP_STATE 0, 1), (Obj.LP_FE_MS 0, 0), (Obj.LP_FE_ACTION 0, 0)] up, by decide +kernel⟩,
   ⟨0, puts [(Obj.LP_STATE 0, 1), (Obj.LP_FE_MS 0, 0), (Obj.LP_FE_ACTION 0, 1)] up, by decide +kernel⟩,
   ⟨0, puts [(Obj.LP_STATE 0, 1), (Obj.LP_FE_MS 0, 0), (Obj.LP_FE_ACTION 0, 2)] up, by decide +kernel⟩,
   ⟨cx, 0, 1#8, su, by decide +kernel⟩,
   ⟨cx, 0, 0#8, su, by decide +kernel⟩,
   ⟨cx, 0, su, by decide +kernel⟩⟩

/-- The hypotheses of `Obligations.InputsAndOutputs` can be met, clause by clause. -/
theorem witness_InputsAndOutputs :
  (∃ (ch : Fin 16) (raw : BitVec 16) (s : State), s.ready 11 = true ∧ s.objBit Obj.ADC_ENABLE ch.val = true ∧ s.inPresWin ch.val raw.toNat = true) ∧
  (∃ (ch : Fin 16) (raw : BitVec 16) (s : State), s.ready 11 = true ∧ s.objBit Obj.ADC_ENABLE ch.val = true ∧ s.inPresWin ch.val raw.toNat = false ∧ Tab.get 0 s.io.outSince ch.val = 0) ∧
  (∃ (ch : Fin 16) (raw : BitVec 16) (s : State), s.ready 11 = true ∧ s.objBit Obj.ADC_ENABLE ch.val = true ∧ s.inPresWin ch.val raw.toNat = false ∧ Tab.get 0 s.io.outSince ch.val ≠ 0) ∧
  (∃ (c : Ctx) (v : BitVec 32) (s : State), let u := s.touch c
    s.passes c Obj.ADC_RATE 4 (le 4 v.toNat) = true ∧ 1000 ≤ v.toNat ∧ v.toNat ≤ 1000000 ∧ v.toNat * popCount 16 (u.objN Obj.ADC_ENABLE) ≤ 1000000) ∧
  (∃ (c : Ctx) (v : BitVec 32) (s : State), let u := s.touch c
    s.passes c Obj.ADC_ENABLE 3 (le 2 v.toNat) = true ∧ v.toNat < 2 ^ 16 ∧ u.objN Obj.ADC_RATE * popCount 16 v.toNat ≤ 1000000 ∧ let gone := (List.range 16).filter (fun a => bitAt (u.objN Obj.ADC_ENABLE) a && !bitAt v.toNat a)
      gone.any (fun a => (u.presWin a).2.2.2 || (List.range 32).any (fun l => u.obj (Obj.LP_ENABLE l) == 1 && (u.loopAdc l).contains a)) = false) ∧
  (∃ (i : Fin 32) (s : State), s.ready 11 = true) ∧
  (∃ (c : Ctx) (i : Fin 32) (v : BitVec 32) (s : State), let u := s.touch c
    s.passes c (Obj.PWM_DUTY i.val) 10 (le 4 v.toNat) = true ∧ u.ownerOf i.val = 0) ∧
  (∃ (c : Ctx) (i : Fin 32) (v : BitVec 32) (s : State), let u := s.touch c
    i.val < 16 ∧ s.passes c (Obj.VALVE_DUTY i.val) 10 (le 4 v.toNat) = true ∧ u.ownerOf (0x40 + i.val) = 0) ∧
  (∃ (c : Ctx) (v : BitVec 32) (s : State), s.passes c Obj.GPIO_DIR 4 (le 4 v.toNat) = true ∧ (s.touch c).gpioUse &&& v.toNat = 0) ∧
  (∃ (pin : Fin 32) (level : Bool) (s : State), s.objBit Obj.GPIO_DIR pin.val = false ∧ s.objBit Obj.GPIO_IN pin.val = !level) :=
  ⟨⟨0, 0#16, put Obj.ADC_ENABLE 1 up, by decide +kernel⟩,
   ⟨0, 0xFFFF#16, { put Obj.ADC_ENABLE 1 up with blobs := [(blobAddr Obj.HALO_PRES_WIN 2, 1), (blobAddr Obj.HALO_PRES_WIN 6, 1)] }, by decide +kernel⟩,
   ⟨0, 0xFFFF#16, { put Obj.ADC_ENABLE 1 up with blobs := [(blobAddr Obj.HALO_PRES_WIN 2, 1), (blobAddr Obj.HALO_PRES_WIN 6, 1)], io := { outSince := [(0, 5)] } }, by decide +kernel⟩,
   ⟨cx, 1000#32, su, by decide +kernel⟩,
   ⟨cx, 0#32, su, by decide +kernel⟩,
   ⟨0, up, by decide +kernel⟩,
   ⟨cx, 0, 0x3F000000#32, su, by decide +kernel⟩,
   ⟨cx, 15, 0x3F000000#32, su, by decide +kernel⟩,
   ⟨cx, 0#32, su, by decide +kernel⟩,
   ⟨31, true, puts [(Obj.GPIO_DIR, 0), (Obj.GPIO_IN, 0)] up, by decide +kernel⟩⟩

/-- The hypotheses of `Obligations.DramServes` can be met, clause by clause. -/
theorem witness_DramServes :
  (∃ (port : Fin 8) (addr age : Nat) (e : List (Nat × Nat)) (s : State), s.dramReady = true ∧ addr < s.usable ∧ s.unreachable addr = false ∧ decodeBurst e = .clean) ∧
  (∃ (port : Fin 8) (addr age : Nat) (e : List (Nat × Nat)) (s : State), s.dramReady = true ∧ addr < s.usable ∧ s.unreachable addr = false ∧ ∃ f, decodeBurst e = .fixed f) ∧
  (∃ (port : Fin 8) (addr age : Nat) (e : List (Nat × Nat)) (s : State), s.dramReady = true ∧ addr < s.usable ∧ s.unreachable addr = false ∧ decodeBurst e = .bad) ∧
  (∃ (port : Fin 8) (addr : Nat) (d : Bytes) (age : Nat) (e : List (Nat × Nat)) (s : State), s.dramReady = true ∧ addr + d.length ≤ s.usable ∧ s.unreachable addr = false ∧ (d.length = 256 ∨ decodeBurst e = .clean)) ∧
  (∃ (port : Fin 8) (addr : Nat) (d : Bytes) (age : Nat) (e : List (Nat × Nat)) (s : State), s.dramReady = true ∧ addr + d.length ≤ s.usable ∧ s.unreachable addr = false ∧ ∃ f, d.length ≠ 256 ∧ decodeBurst e = .fixed f) ∧
  (∃ (port : Fin 8) (addr : Nat) (d : Bytes) (age : Nat) (e : List (Nat × Nat)) (s : State), s.dramReady = true ∧ addr + d.length ≤ s.usable ∧ s.unreachable addr = false ∧ d.length ≠ 256 ∧ decodeBurst e = .bad) ∧
  (∃ (e : List (Nat × Nat)) (s : State), s.dramReady = true ∧ let n := s.dramSt.scrub
    n < s.usable / 64 ∧ n + 1 < s.scrubTotal ∧ decodeBurst e = .clean) ∧
  (∃ (e : List (Nat × Nat)) (s : State), s.dramReady = true ∧ let n := s.dramSt.scrub
    let s1 : State := { s with dramSt := { s.dramSt with scrub := n + 1 } }
    let a := 64 * n
    n < s.usable / 64 ∧ n + 1 < s.scrubTotal ∧ decodeBurst e = .bad ∧ s.scrubTotal = (s1.dramUe 7 a 0).scrubTotal) ∧
  (∃ (e : List (Nat × Nat)) (s : State), s.dramReady = true ∧ let n := s.dramSt.scrub
    let s1 : State := { s with dramSt := { s.dramSt with scrub := n + 1 } }
    let a := 64 * n
    n < s.usable / 64 ∧ n + 1 < s.scrubTotal ∧ ∃ f, decodeBurst e = .fixed f ∧ let t := (s1.dramPut a (burstXor (errWord f) (burstXor (errWord e) (s1.dramGet a 64)))).corrected (subOf a) (s1.rankOf a) f
      s.scrubTotal = t.scrubTotal) ∧
  (∃ (c : Fin 8) (r : Fin 2) (can : Bool) (s : State), rankExists r.val = true ∧ s.ready 2 = true ∧ (s.obj Obj.DRAM_STATE = 2 ∨ s.obj Obj.DRAM_STATE = 3) ∧ (s.rank c.val r.val).mode ≠ 2 ∧ ((s.rank c.val r.val).doubled = true ∨ can = true)) ∧
  (∃ (c : Fin 8) (r : Fin 2) (can : Bool) (s : State), rankExists r.val = true ∧ s.ready 2 = true ∧ (s.obj Obj.DRAM_STATE = 2 ∨ s.obj Obj.DRAM_STATE = 3) ∧ (s.rank c.val r.val).mode ≠ 2 ∧ let n := s.owed c.val r.val
    (s.rank c.val r.val).doubled = false ∧ can = false ∧ n < s.objN Obj.DRAM_REF_POSTPONE) ∧
  (∃ (c : Fin 8) (r : Fin 2) (can : Bool) (s : State), rankExists r.val = true ∧ s.ready 2 = true ∧ (s.obj Obj.DRAM_STATE = 2 ∨ s.obj Obj.DRAM_STATE = 3) ∧ (s.rank c.val r.val).mode ≠ 2 ∧ let n := s.owed c.val r.val
    (s.rank c.val r.val).doubled = false ∧ can = false ∧ s.objN Obj.DRAM_REF_POSTPONE ≤ n) ∧
  (∃ (c : Fin 8) (r : Fin 2) (t : Int) (s : State), rankExists r.val = true ∧ s.ready 2 = true ∧ (s.obj Obj.DRAM_STATE = 2 ∨ s.obj Obj.DRAM_STATE = 3) ∧ (s.rank c.val r.val).mode ≠ 2 ∧ let s1 := s.setRank c.val r.val (fun x => { x with temp := some t })
    let s2 := s1.setObj (Obj.DRAM_TEMP c.val) (s1.dramTemp c.val)
    (s2.rank c.val r.val).doubled = false ∧ t < s2.obj Obj.DRAM_REF2X_C) ∧
  (∃ (c : Fin 8) (r : Fin 2) (t : Int) (s : State), rankExists r.val = true ∧ s.ready 2 = true ∧ (s.obj Obj.DRAM_STATE = 2 ∨ s.obj Obj.DRAM_STATE = 3) ∧ (s.rank c.val r.val).mode ≠ 2 ∧ let s1 := s.setRank c.val r.val (fun x => { x with temp := some t })
    let s2 := s1.setObj (Obj.DRAM_TEMP c.val) (s1.dramTemp c.val)
    (s2.rank c.val r.val).doubled = false ∧ s2.obj Obj.DRAM_REF2X_C ≤ t) ∧
  (∃ (c : Fin 8) (ctrl : BitVec 64) (s : State), s.dramSt.sweep = none ∧ s.ready 2 = true ∧ (s.obj Obj.DRAM_STATE = 2 ∨ s.obj Obj.DRAM_STATE = 3) ∧ field ctrl.toNat 0 3 = c.val ∧ sweepOk ctrl.toNat = true) ∧
  (∃ (l : List (Nat × Nat)) (s : State), s.dramSt.sweep.isSome = true ∧ s.dramSt.rateHeld = none) ∧
  (∃ (l : List (Nat × Nat)) (s : State), s.dramSt.sweep.isSome = true ∧ ∃ v, s.dramSt.rateHeld = some v) ∧
  (∃ (c : Fin 8) (r : Fin 2) (taps : Int) (s : State), rankExists r.val = true ∧ s.ready 2 = true ∧ s.obj Obj.DRAM_STATE = 3 ∧ s.objN Obj.DRAM_DRIFT_TAPS < taps.natAbs) ∧
  (∃ (c : Ctx) (v : BitVec 16) (s : State), s.passes c Obj.DRAM_RATE 3 (le 2 v.toNat) = true ∧ dramRates.contains v.toNat = true ∧ (s.touch c).hq.jobs = [] ∧ let u := s.touch c
    u.dramSt.sweep = none) ∧
  (∃ (c : Ctx) (v : BitVec 16) (s : State), s.passes c Obj.DRAM_RATE 3 (le 2 v.toNat) = true ∧ dramRates.contains v.toNat = true ∧ (s.touch c).hq.jobs = [] ∧ let u := s.touch c
    u.dramSt.sweep.isSome = true) ∧
  (∃ (c : Ctx) (idx sub : Nat) (v : BitVec 16) (s : State), let u := s.touch c
    let k := idx * 256 + sub
    let ok := fun (n r : Nat) => s.passes c k n (le (Obj.tyBytes n) v.toNat) = true ∧ v.toNat < 2 ^ (8 * Obj.tyBytes n) ∧
      (u.regionSet k r v.toNat).2 = 0
    k = Obj.JNL_STORE_MIB ∧ ok 3 regJournal) ∧
  (∃ (c : Ctx) (idx sub : Nat) (v : BitVec 16) (s : State), let u := s.touch c
    let k := idx * 256 + sub
    let ok := fun (n r : Nat) => s.passes c k n (le (Obj.tyBytes n) v.toNat) = true ∧ v.toNat < 2 ^ (8 * Obj.tyBytes n) ∧
      (u.regionSet k r v.toNat).2 = 0
    k = Obj.NIM_EVID_SIZE ∧ ok 2 regEvidence) ∧
  (∃ (c : Ctx) (idx sub : Nat) (v : BitVec 16) (s : State), let u := s.touch c
    let k := idx * 256 + sub
    let ok := fun (n r : Nat) => s.passes c k n (le (Obj.tyBytes n) v.toNat) = true ∧ v.toNat < 2 ^ (8 * Obj.tyBytes n) ∧
      (u.regionSet k r v.toNat).2 = 0
    k = Obj.DRAM_POOL_GIB ∧ ok 3 regPool) ∧
  (∃ (k r v : Nat) (s : State), s.regionsLive r = false ∧ s.laidOut = true ∧ s.usable < sumTo (s.setObj k (v : Nat)).regionSizes 6) ∧
  (∃ (k r v : Nat) (s : State), s.regionsLive r = false ∧ s.laidOut = false) ∧
  (∃ (k r v : Nat) (s : State), s.regionsLive r = false ∧ s.laidOut = true ∧ sumTo (s.setObj k (v : Nat)).regionSizes 6 ≤ s.usable ∧ s.objN k ≠ v) ∧
  (∃ (bank : Nat) (s : State), (Tab.get (0, 0) s.dramSt.rows bank).1 ≠ 0 ∧ (Tab.get (0, 0) s.dramSt.rows bank).2 + s.objN Obj.DRAM_ROW_IDLE_NS ≤ s.now) ∧
  (∃ (c : Fin 8) (r : Fin 2) (s : State), rankExists r.val = true ∧ s.dramReady = true ∧ (s.rank c.val r.val).mode = 0 ∧ (s.rank c.val r.val).last + s.objN Obj.DRAM_PD_NS ≤ s.now) ∧
  (∃ (s : State), s.obj Obj.DRAM_STATE = 2 ∧ s.dramSt.trainSince + s.objN Obj.BOOT_RESTORE_MS * 1000000 ≤ s.now) ∧
  (∃ (ok : Bool) (gib : Nat) (s : State), s.obj Obj.DRAM_STATE = 1 ∧ s.ready 2 = true ∧ ok = true) ∧
  (∃ (ok : Bool) (gib : Nat) (s : State), s.obj Obj.DRAM_STATE = 1 ∧ s.ready 2 = true ∧ ok = false) :=
  ⟨⟨0, 2 ^ 20, 0, [], up, by decide +kernel, by decide +kernel, reachable _ _ (by decide), by decide +kernel⟩,
   ⟨0, 2 ^ 20, 0, [(0, 1)], up, by decide +kernel, by decide +kernel, reachable _ _ (by decide), [(0, 1)], by decide +kernel⟩,
   ⟨0, 2 ^ 20, 0, nine, up, by decide +kernel, by decide +kernel, reachable _ _ (by decide), decode_nine⟩,
   ⟨7, 2 ^ 20, [1], 0, [], up, by decide +kernel, by decide +kernel, reachable _ _ (by decide), by decide +kernel⟩,
   ⟨7, 2 ^ 20, [1], 0, [(0, 1)], up, by decide +kernel, by decide +kernel, reachable _ _ (by decide), [(0, 1)], by decide +kernel, by decide +kernel⟩,
   ⟨7, 2 ^ 20, [1], 0, nine, up, by decide +kernel, by decide +kernel, reachable _ _ (by decide), by decide +kernel, decode_nine⟩,
   ⟨[], up, by decide +kernel⟩,
   ⟨nine, { up with jnl := {} }, by decide +kernel, by decide +kernel, by decide +kernel, decode_nine, by decide +kernel⟩,
   ⟨[(0, 1)], { up with jnl := {} }, by decide +kernel, by decide +kernel, by decide +kernel, [(0, 1)], by decide +kernel, by simp only [State.rankOf]; generalize Config.dramTwoRanks = b; cases b <;> decide +kernel⟩,
   ⟨0, 0, true, up, by decide +kernel⟩,
   ⟨0, 0, false, up, by decide +kernel⟩,
   ⟨0, 0, false, put Obj.DRAM_REF_POSTPONE 0 up, by decide +kernel⟩,
   ⟨0, 0, 20, up, by decide +kernel⟩,
   ⟨0, 0, 2000, up, by decide +kernel⟩,
   ⟨0, 0x0100000000010000#64, up, by decide +kernel⟩,
   ⟨[], { up with dramSt := { sweep := some 0 } }, by decide +kernel⟩,
   ⟨[], { up with dramSt := { sweep := some 0, rateHeld := some 6400 } }, by decide +kernel, 6400, by decide +kernel⟩,
   ⟨0, 0, 100, up, by decide +kernel⟩,
   ⟨cx, 6400#16, su, by decide +kernel⟩,
   ⟨cx, 6400#16, { su with dramSt := { sweep := some 0 } }, by decide +kernel⟩,
   ⟨cx, Obj.JNL_STORE_MIB / 256, Obj.JNL_STORE_MIB % 256, 64#16, puts [(Obj.DRAM_STATE, 2), (Obj.NIM_ENABLE, 0)] su, by decide +kernel⟩,
   ⟨cx, Obj.NIM_EVID_SIZE / 256, Obj.NIM_EVID_SIZE % 256, 4#16, puts [(Obj.DRAM_STATE, 2), (Obj.NIM_ENABLE, 0)] su, by decide +kernel⟩,
   ⟨cx, Obj.DRAM_POOL_GIB / 256, Obj.DRAM_POOL_GIB % 256, 4#16, put Obj.DRAM_STATE 2 su, by decide +kernel⟩,
   ⟨Obj.DRAM_POOL_GIB, 6, 1000, up, by decide +kernel, by decide +kernel, by simp only [State.regionSizes]; generalize Config.dramTwoRanks = b; cases b <;> decide +kernel⟩,
   ⟨Obj.DRAM_POOL_GIB, 6, 1000, put Obj.DRAM_STATE 2 up, by decide +kernel⟩,
   ⟨Obj.DRAM_POOL_GIB, 6, 5, up, by decide +kernel, by decide +kernel, by simp only [State.regionSizes]; generalize Config.dramTwoRanks = b; cases b <;> decide +kernel, by decide +kernel⟩,
   ⟨0, atNs 100000000000 { up with dramSt := { rows := [(0, (1, 0))] } }, by decide +kernel⟩,
   ⟨0, 0, atNs 100000000000 up, by decide +kernel⟩,
   ⟨atNs 100000000000 (put Obj.DRAM_STATE 2 up), by decide +kernel⟩,
   ⟨true, 64, put Obj.DRAM_STATE 1 up, by decide +kernel⟩,
   ⟨false, 64, put Obj.DRAM_STATE 1 up, by decide +kernel⟩⟩

/-- The hypotheses of `Obligations.StratusRuns` can be met, clause by clause. -/
theorem witness_StratusRuns :
  (∃ (q : Fin 4) (src : Option Bytes) (b : Bytes) (s : State), s.headOfType (48 + q.val) 0x50 = some b ∧ let d := strDesc b
    let u := s.consume (48 + q.val)
    s.ready 10 = true ∧ s.engine q.val = none ∧ ((d.srcDev || d.dstDev) = true → s.dramReady = true) ∧ u.str.aborts.contains d.tag = false ∧ u.strOk d = true) ∧
  (∃ (q : Fin 4) (src : Option Bytes) (b : Bytes) (s : State), s.headOfType (48 + q.val) 0x51 = some b ∧ let d := strDesc b
    let u := s.consume (48 + q.val)
    s.ready 10 = true ∧ s.engine q.val = none ∧ ((d.srcDev || d.dstDev) = true → s.dramReady = true) ∧ u.str.aborts.contains d.tag = false ∧ u.strOk d = true) ∧
  (∃ (q : Fin 4) (src : Option Bytes) (b : Bytes) (s : State), s.headOfType (48 + q.val) 0x52 = some b ∧ let d := strDesc b
    let u := s.consume (48 + q.val)
    s.ready 10 = true ∧ s.engine q.val = none ∧ ((d.srcDev || d.dstDev) = true → s.dramReady = true) ∧ u.str.aborts.contains d.tag = false ∧ u.strOk d = true) ∧
  (∃ (d : StrDesc) (src : Bytes) (s : State), s.strSource d (some src) = some src) ∧
  (∃ (q : Fin 4) (j : StrJob) (s : State), s.engine q.val = some j ∧ s.ready 10 = true) ∧
  (∃ (c : Ctx) (tag : BitVec 32) (s : State), s.passes c Obj.STR_ABORT 4 (le 4 tag.toNat) = true ∧ let u := s.touch c
    ∃ r j, (List.range 4).find? (fun r => (u.engine r).any (fun j => j.tag == tag.toNat)) = some r ∧ u.engine r = some j ∧ j.status ≠ 6 ∧ j.status ≠ 3) ∧
  (∃ (c : Ctx) (tag : BitVec 32) (s : State), s.passes c Obj.STR_ABORT 4 (le 4 tag.toNat) = true ∧ let u := s.touch c
    (List.range 4).find? (fun r => (u.engine r).any (fun j => j.tag == tag.toNat)) = none ∧ (List.range 4).any (fun r => (u.ring (48 + r)).head.any (fun d => getN d 4 4 == tag.toNat)) = true) :=
  ⟨⟨0, none, dsc [(0, 1, 0x50), (2, 1, 1), (3, 1, 12), (4, 4, 9), (16, 4, 1), (20, 4, 64)], hd 48 (dsc [(0, 1, 0x50), (2, 1, 1), (3, 1, 12), (4, 4, 9), (16, 4, 1), (20, 4, 64)]) up, by decide +kernel⟩,
   ⟨0, none, dsc [(0, 1, 0x51), (1, 1, 8), (2, 1, 1), (4, 4, 9), (16, 4, 1), (20, 4, 64), (33, 1, 10)], hd 48 (dsc [(0, 1, 0x51), (1, 1, 8), (2, 1, 1), (4, 4, 9), (16, 4, 1), (20, 4, 64), (33, 1, 10)]) up, by decide +kernel⟩,
   ⟨0, none, dsc [(0, 1, 0x52), (4, 4, 9), (16, 4, 1), (20, 4, 64)], hd 48 (dsc [(0, 1, 0x52), (4, 4, 9), (16, 4, 1), (20, 4, 64)]) up, by decide +kernel⟩,
   ⟨{ ty := 0x50, flags := 0, level := 1, log2 := 12, tag := 9, src := 0, srcLen := 0, dstMax := 64, dst := 0, stream := 0, window := 0, rsvd := 0 }, [], up, by decide +kernel⟩,
   ⟨0, default, up.setEngine 0 (some default), by decide +kernel⟩,
   ⟨cx, 9#32, su.setEngine 0 (some { (default : StrJob) with tag := 9 }), by decide +kernel, 0, { (default : StrJob) with tag := 9 }, by decide +kernel, by decide +kernel, by decide +kernel, by decide +kernel⟩,
   ⟨cx, 9#32, hd 48 (dsc [(0, 1, 0x52), (4, 4, 9)]) su, by decide +kernel⟩⟩

/-- The hypotheses of `Obligations.FaultsLatch` can be met, clause by clause. -/
theorem witness_FaultsLatch :
  (∃ (code inst detail cls : Nat) (s : State), faultClass code = some cls) ∧
  (∃ (s t : State), let new := t.halo.faults.any (fun f => decide (1 ≤ f.cls) && (s.fault? f.code f.inst).isNone)
    (t.pwState ≠ pwDormant ∨ new = false)) ∧
  (∃ (s t : State), let new := t.halo.faults.any (fun f => decide (1 ≤ f.cls) && (s.fault? f.code f.inst).isNone)
    t.pwState = pwDormant ∧ new = true) ∧
  (∃ (c : Ctx) (v : BitVec 32) (f : Flt) (s : State), s.passes c Obj.FLT_CLEAR 4 (le 4 v.toNat) = true ∧ let u := s.touch c
    let code := field v.toNat 0 16
    let inst := field v.toNat 16 16
    inst ≠ 0xFFFF ∧ u.halo.faults.filter (fun f => f.code == code && (inst == 0xFFFF || f.inst == inst)) = [f] ∧ (f.cls = safety → u.isSuper c.sess = true) ∧ (f.cond = true → f.injected = true)) ∧
  (∃ (c : Ctx) (v : BitVec 8) (s : State), s.passes c Obj.FLT_FEC_CLEAR 2 (le 1 v.toNat) = true) ∧
  (∃ (t : Nat) (s : State), s.halo.alert = .low t ∧ t + s.objN Obj.HALO_ALERT_US * 1000 ≤ s.now ∧ s.now < t + s.objN Obj.HALO_ALERT_US * 1000 + 1000) ∧
  (∃ (t : Nat) (s : State), s.halo.alert = .high t ∧ t + 1000 ≤ s.now ∧ s.halo.alertPending = false) ∧
  (∃ (t : Nat) (s : State), s.halo.alert = .high t ∧ t + 1000 ≤ s.now ∧ s.halo.alertPending = true) ∧
  (∃ (c : Ctx) (v : BitVec 32) (cls : Nat) (s : State), s.passes c Obj.DIAG_INJECT 4 (le 4 v.toNat) = true ∧ let u := s.touch c
    let code := field v.toNat 0 16
    let inst := field v.toNat 16 8
    let point := field v.toNat 24 8
    point ≤ 1 ∧ u.obj Obj.SEC_LIFECYCLE = 0 ∧ (point = 1 → 0x1401 ≤ code ∧ code ≤ 0x140C) ∧ faultClass code = some cls ∧ u.fault? code inst = none) ∧
  (∃ (s : State), let u : State := { s with halo := { s.halo with chainExt := false } }
    u.safeLow = true) ∧
  (∃ (s : State), let u : State := { s with halo := { s.halo with chainExt := false } }
    u.safeLow = false ∧ u.fault? 0x140D 0 = none) ∧
  (∃ (o : Nat) (s : State), o ≤ 32) ∧
  (∃ (w : WebNo) (s : State), s.web.driver = w.val ∧ s.barActive = true ∧ max (s.chan (.web w.val)).lastNs s.halo.webActiveSince + s.objN Obj.HALO_WEB_LOSS_MS * 1000000 ≤ s.now ∧ (s.fault? 0x1406 w.val).any (fun f => f.cond) = false) ∧
  (∃ (ch : Fin 16) (v : BitVec 16) (s : State), (s.presWin ch.val).2.2.2 = true ∧ s.objBit Obj.ADC_ENABLE ch.val = true ∧ Tab.get 0 s.io.outSince ch.val ≠ 0 ∧ s.inPresWin ch.val v.toNat = false ∧ Tab.get 0 s.io.outSince ch.val + (s.presWin ch.val).2.2.1 * 100000 ≤ s.now + 1 ∧ (s.fault? 0x1404 ch.val).any (fun f => f.cond) = false) ∧
  (∃ (n : Fin 10) (mv : Int) (s : State), (mv < (s.supplyWindow n.val).1 ∨ (s.supplyWindow n.val).2 < mv)) ∧
  (∃ (code cls inst : Nat) (detail : Bytes) (cond injected : Bool) (f : Flt) (s : State), s.fault? code inst = some f) :=
  ⟨⟨0x1402, 3, 0, 2, up, by decide +kernel⟩,
   ⟨up, up, by decide +kernel⟩,
   ⟨up, { put Obj.PWR_STATE 3 up with halo := { faults := [{ code := 0x1402, cls := 3, inst := 0 }] } }, by decide +kernel⟩,
   ⟨cx, 0x00031402#32, { code := 0x1402, cls := 2, inst := 3, cond := false }, { su with halo := { faults := [{ code := 0x1402, cls := 2, inst := 3, cond := false }] } }, by decide +kernel⟩,
   ⟨cx, 7#8, su, by decide +kernel⟩,
   ⟨0, put Obj.HALO_ALERT_US 1 { atNs 1000 up with halo := { alert := .low 0 } }, by decide +kernel⟩,
   ⟨0, { atNs 1000 up with halo := { alert := .high 0 } }, by decide +kernel⟩,
   ⟨0, { atNs 1000 up with halo := { alert := .high 0, alertPending := true } }, by decide +kernel⟩,
   ⟨cx, 0x00031402#32, 2, put Obj.SEC_LIFECYCLE 0 su, by decide +kernel⟩,
   ⟨{ up with halo := { faults := [{ code := 0x1401, cls := 2, inst := 0 }] } }, by decide +kernel⟩,
   ⟨up, by decide +kernel⟩,
   ⟨32, up, by decide +kernel⟩,
   ⟨0, atNs 100000000000 { up with ffy := { departed := [(0, [⟨0, 7, 0, false, some 0, false, [], []⟩])] } }, by decide +kernel⟩,
   ⟨0, 0xFFFF#16, atNs 100000000000 { put Obj.ADC_ENABLE 1 up with blobs := [(blobAddr Obj.HALO_PRES_WIN 2, 1), (blobAddr Obj.HALO_PRES_WIN 6, 1)], io := { outSince := [(0, 5)] } }, by decide +kernel⟩,
   ⟨0, 100000, up, by decide +kernel⟩,
   ⟨0x1402, 3, 0, [], true, false, { code := 0x1402, cls := 3, inst := 0 }, { up with halo := { faults := [{ code := 0x1402, cls := 3, inst := 0 }] } }, by decide +kernel⟩⟩

/-- The hypotheses of `Obligations.TwinRuns` can be met, clause by clause. -/
theorem witness_TwinRuns :
  (∃ (trained : Bool) (s : State), let u := if trained then s.twinTrained else s
    u.twinState = twElecting ∧ u.headsObey = true) ∧
  (∃ (trained : Bool) (s : State), let u := if trained then s.twinTrained else s
    u.twinState = twElecting ∧ u.headsObey = false ∧ u.twin.up = true) ∧
  (∃ (s : State), s.twinState = twElecting ∧ s.twin.up = false ∧ s.twin.electSince + s.objN Obj.TWIN_ELECT_MS * msNs ≤ s.now ∧ s.headsObey = true) ∧
  (∃ (s : State), s.twinState = twElecting ∧ s.twin.up = false ∧ s.twin.electSince + s.objN Obj.TWIN_ELECT_MS * msNs ≤ s.now ∧ s.headsObey = false) ∧
  (∃ (s : State), let u := (s.setTwin (fun t => { t with presLow := true })).setBit Obj.TWIN_STATUS 3 true
    u.twinState = twSolo ∧ u.obj Obj.TWIN_ENABLE = 1) ∧
  (∃ (s : State), let u := (s.setTwin (fun t => { t with presLow := true })).setBit Obj.TWIN_STATUS 3 true
    (u.twinState ≠ twSolo ∨ u.obj Obj.TWIN_ENABLE ≠ 1)) ∧
  (∃ (s : State), s.twinState = twActive ∧ s.twin.partner = twStandby ∧ s.twin.handing = false ∧ s.twinSilent = true) ∧
  (∃ (c : Ctx) (v : BitVec 8) (s : State), s.passes c Obj.TWIN_ENABLE 1 (le 1 v.toNat) = true ∧ v = 1#8 ∧ (∀ t, t < 12 → (s.touch c).laneTest (160 + t) = false)) ∧
  (∃ (c : Ctx) (v : BitVec 8) (s : State), s.passes c Obj.TWIN_ENABLE 1 (le 1 v.toNat) = true ∧ v = 0#8) ∧
  (∃ (c : Ctx) (s : State), s.passes c Obj.TWIN_CMD 2 (le 1 1) = true ∧ let u := s.touch c
    u.twinState = twActive ∧ u.twin.partner = twStandby ∧ u.twin.up = true ∧ u.twin.handing = false) ∧
  (∃ (c : Ctx) (s : State), s.passes c Obj.TWIN_CMD 2 (le 1 2) = true ∧ let u := s.touch c
    (u.twinState = twElecting ∨ u.twinState = twFaulted) ∧ u.twin.up = false) ∧
  (∃ (seq : Nat) (i : TwinItem) (s : State), s.obj Obj.TWIN_ENABLE ≠ 0 ∧ s.ready 3 = true ∧ ∃ e, i = .heartbeat e) ∧
  (∃ (seq : Nat) (i : TwinItem) (s : State), s.obj Obj.TWIN_ENABLE ≠ 0 ∧ s.ready 3 = true ∧ ∃ n, i = .ack n) ∧
  (∃ (seq : Nat) (i : TwinItem) (s : State), s.obj Obj.TWIN_ENABLE ≠ 0 ∧ s.ready 3 = true ∧ let u := (if s.twin.up then s else s.twinTrained)
    let w := u.setTwin (fun t => { t with lastRx := u.now })
    (∀ e, i ≠ .heartbeat e) ∧ (∀ n, i ≠ .ack n) ∧ seq = w.twin.rxSeq) ∧
  (∃ (s : State), s.twin.up = true) ∧
  (∃ (s : State), s.twin.up = true ∧ s.twin.lastTx + 1000 ≤ s.now) ∧
  (∃ (s : State), s.twinState = twStandby ∧ s.twin.up = true ∧ s.twinSilent = true) ∧
  (∃ (t : Nat) (s : State), s.twin.handing = true ∧ s.hasAuthority = true ∧ s.twin.stop = some t ∧ t ≤ s.now) ∧
  (∃ (s : State), s.twinState = twJoining ∧ s.twin.snapshot = true) ∧
  (∃ (s : State), s.twinState = twSyncing ∧ s.syncJobs = 0 ∧ (s.obj Obj.TWIN_TIME_ERR).natAbs ≤ 1000 ∧ s.fault? 0x140E 0 = none) ∧
  (∃ (l : Fin 12) (s : State), s.twin.up = true) :=
  ⟨⟨false, (twin 1 {}).setHeadDev 0 { port := 0 }, by decide +kernel⟩,
   ⟨false, twin 1 { up := true }, by decide +kernel⟩,
   ⟨atNs 100000000000 ((twin 1 {}).setHeadDev 0 { port := 0 }), by decide +kernel⟩,
   ⟨atNs 100000000000 (twin 1 {}), by decide +kernel⟩,
   ⟨twin 0 {}, by decide +kernel⟩,
   ⟨twin 3 {}, by decide +kernel⟩,
   ⟨twin 2 { partner := 5 }, by decide +kernel⟩,
   ⟨cx, 1#8, su, by decide +kernel⟩,
   ⟨cx, 0#8, su, by decide +kernel⟩,
   ⟨cx, twin 2 { partner := 5, up := true }, by decide +kernel⟩,
   ⟨cx, twin 6 {}, by decide +kernel⟩,
   ⟨0, .heartbeat 3, twin 2 { up := true }, by decide +kernel, by decide +kernel, 3, rfl⟩,
   ⟨0, .ack 3, twin 2 { up := true }, by decide +kernel, by decide +kernel, 3, rfl⟩,
   ⟨0, .handOver, twin 5 { up := true }, by decide +kernel, by decide +kernel, nofun, nofun, by decide +kernel⟩,
   ⟨twin 2 { up := true }, by decide +kernel⟩,
   ⟨atNs 1000 (twin 2 { up := true }), by decide +kernel⟩,
   ⟨atNs 100000000000 (twin 5 { up := true }), by decide +kernel⟩,
   ⟨0, twin 2 { handing := true, stop := some 0 }, by decide +kernel⟩,
   ⟨twin 3 { snapshot := true }, by decide +kernel⟩,
   ⟨twin 4 {}, by decide +kernel⟩,
   ⟨11, twin 2 { up := true }, by decide +kernel⟩⟩

/-- The hypotheses of `Obligations.SecurityObjectsWrite` can be met, clause by clause. -/
theorem witness_SecurityObjectsWrite :
  (∃ (i : Fin 4) (r0 : JRec) (s : State), s.objBit Obj.JNL_RING_MASK i.val = true ∧ s.ringRuns (56 + i.val) = true ∧ (s.ring (56 + i.val)).used < (s.ring (56 + i.val)).size ∧ s.jnlNext (56 + i.val) = some r0 ∧ let q := 56 + i.val
    let r := s.ring q
    let k := if r.fragRec = r0.num then r.fragIdx else 0
    r0.bytes.length ≤ 24 * (k + 1)) ∧
  (∃ (i : Fin 4) (r0 : JRec) (s : State), s.objBit Obj.JNL_RING_MASK i.val = true ∧ s.ringRuns (56 + i.val) = true ∧ (s.ring (56 + i.val)).used < (s.ring (56 + i.val)).size ∧ s.jnlNext (56 + i.val) = some r0 ∧ let q := 56 + i.val
    let r := s.ring q
    let k := if r.fragRec = r0.num then r.fragIdx else 0
    24 * (k + 1) < r0.bytes.length) ∧
  (∃ (c : Ctx) (v : BitVec 8) (s : State), s.passes c Obj.SEC_SVN_COMMIT 2 (le 1 v.toNat) = true ∧ let u := s.touch c
    let svn := u.objN Obj.SEC_IMAGE_SVN
    u.fwFuse < svn) ∧
  (∃ (c : Ctx) (v : BitVec 8) (s : State), s.passes c Obj.SEC_SVN_COMMIT 2 (le 1 v.toNat) = true ∧ let u := s.touch c
    let svn := u.objN Obj.SEC_IMAGE_SVN
    svn ≤ u.fwFuse) ∧
  (∃ (c : Ctx) (v : BitVec 8) (s : State), s.passes c Obj.SEC_LIFECYCLE 2 (le 1 v.toNat) = true ∧ let u := s.touch c
    (u.isSuper c.sess = true ∨ (u.lifecycle = lcProvision ∧ 2 ≤ c.transport)) ∧ v.toNat ≤ lcScrapped ∧ u.lifecycle < v.toNat ∧ u.jnl.lifecycleNext = none ∧ (v.toNat = lcField → u.makerKeyIn = true ∧ u.debugKeyIn = true ∧ (List.range 4).any u.slotIn = true)) ∧
  (∃ (c : Ctx) (d : Bytes) (s : State), s.passes c Obj.SEC_KEY_PROVISION 13 d = true ∧ let u := (s.touch c).dropTransfer c.sess
    u.provisionOk (u.isSuper c.sess) (decide (2 ≤ c.transport)) = 0 ∧ byteAt d 0 ≤ 3 ∧ u.slotIn (byteAt d 0) = false) ∧
  (∃ (c : Ctx) (d : Bytes) (s : State), s.passes c Obj.SEC_MAKER_KEY 13 d = true ∧ let u := (s.touch c).dropTransfer c.sess
    u.provisionOk (u.isSuper c.sess) (decide (2 ≤ c.transport)) = 0 ∧ u.makerKeyIn = false) ∧
  (∃ (c : Ctx) (d : Bytes) (s : State), s.passes c Obj.SEC_DEBUG_KEY 13 d = true ∧ let u := (s.touch c).dropTransfer c.sess
    u.provisionOk (u.isSuper c.sess) (decide (2 ≤ c.transport)) = 0 ∧ u.debugKeyIn = false) ∧
  (∃ (c : Ctx) (v : BitVec 8) (s : State), s.passes c Obj.SEC_KEY_REVOKE 2 (le 1 v.toNat) = true ∧ let u := s.touch c
    v.toNat ≤ 3 ∧ u.lifecycle = lcField ∧ u.slotOf c.sess ≠ v.toNat) ∧
  (∃ (c : Ctx) (s : State), s.toaUp = true ∧ (s.session? c.sess).isSome = true ∧ let u := s.touch c
    u.offDomain Obj.SEC_DEBUG_CHALLENGE = none ∧ u.lifecycle = lcField ∧ u.isSuper c.sess = true) ∧
  (∃ (c : Ctx) (d ch : Bytes) (s : State), s.passes c Obj.SEC_DEBUG_RESPONSE 13 d = true ∧ let u := (s.touch c).dropTransfer c.sess
    u.lifecycle = lcField ∧ u.isSuper c.sess = true ∧ getN d 0 4 < 8 ∧ u.jnl.challenge = some ch ∧ sha384 (slice d 4 97) = u.debugKeyDigest ∧ ecdsaVerify (slice d 4 97) (sha384 (ch ++ slice d 0 101)) (slice d 101 96) = true) ∧
  (∃ (c : Ctx) (v : BitVec 8) (s : State), s.passes c Obj.SEC_DEBUG_STATE 2 (le 1 v.toNat) = true ∧ let u := s.touch c
    u.jnl.debugOpen = true) ∧
  (∃ (c : Ctx) (v : BitVec 8) (s : State), s.passes c Obj.SEC_DEBUG_STATE 2 (le 1 v.toNat) = true ∧ let u := s.touch c
    u.jnl.debugOpen = false) :=
  ⟨⟨0, ⟨0, 0, 1, zeros 24⟩, { put Obj.JNL_RING_MASK 1 (up.setRing 56 { en := true, wb := 4 }) with jnl := { booted := true, store := [⟨0, 0, 1, zeros 24⟩] } }, by decide +kernel⟩,
   ⟨0, ⟨0, 0, 1, zeros 25⟩, { put Obj.JNL_RING_MASK 1 (up.setRing 56 { en := true, wb := 4 }) with jnl := { booted := true, store := [⟨0, 0, 1, zeros 25⟩] } }, by decide +kernel⟩,
   ⟨cx, 1#8, puts [(Obj.SEC_IMAGE_SVN, 5), (Obj.FW_COUNTER, 4)] su, by decide +kernel⟩,
   ⟨cx, 1#8, puts [(Obj.SEC_IMAGE_SVN, 5), (Obj.FW_COUNTER, 5)] su, by decide +kernel⟩,
   ⟨cx, 3#8, su, by decide +kernel⟩,
   ⟨cx, zeros 33, puts [(Obj.SEC_LIFECYCLE, 1), (Obj.SEC_KEY_STATE, 0)] su, by decide +kernel⟩,
   ⟨cx, zeros 48, { put Obj.SEC_LIFECYCLE 1 su with jnl := { booted := true, makerFused := false } }, by decide +kernel⟩,
   ⟨cx, zeros 48, { put Obj.SEC_LIFECYCLE 1 su with jnl := { booted := true, debugFused := false } }, by decide +kernel⟩,
   ⟨cx, 3#8, su, by decide +kernel⟩,
   ⟨cx, su, by decide +kernel⟩,
   ⟨cx, dbgResponse, zeros 64, dbg, by decide +kernel, by decide +kernel, by decide +kernel, by decide +kernel, by decide +kernel, by decide +kernel, dbg_verifies⟩,
   ⟨cx, 0#8, { su with jnl := { booted := true, debugOpen := true } }, by decide +kernel⟩,
   ⟨cx, 0#8, su, by decide +kernel⟩⟩

/-- The hypotheses of `Obligations.CicadaWakes` can be met, clause by clause. -/
theorem witness_CicadaWakes :
  (∃ (adc : List Nat) (pins : BitVec 32) (s : State), s.pwState = pwDormant ∧ s.cic.next ≤ s.time.dormant ∧ s.cic.late = false ∧ let u := (s.count Obj.CIC_WAKES 1).setCic (fun c => { c with wakes := c.wakes + 1, pins := pins.toNat })
    let period := u.objN Obj.CIC_PERIOD_S * 10000000
    let w := (u.cicReadings adc).setCic (fun c => { c with next := c.next + period })
    u.cic.spit = none ∧ ∃ ch v, w.cicOutside adc = some (ch, v)) ∧
  (∃ (adc : List Nat) (pins : BitVec 32) (s : State), s.pwState = pwDormant ∧ s.cic.next ≤ s.time.dormant ∧ s.cic.late = false ∧ let u := (s.count Obj.CIC_WAKES 1).setCic (fun c => { c with wakes := c.wakes + 1, pins := pins.toNat })
    let period := u.objN Obj.CIC_PERIOD_S * 10000000
    let w := (u.cicReadings adc).setCic (fun c => { c with next := c.next + period })
    u.cic.spit = none ∧ w.cicOutside adc = none ∧ 0 < w.objN Obj.CIC_SPIT_EVERY ∧ w.cic.wakes % w.objN Obj.CIC_SPIT_EVERY = 0) ∧
  (∃ (adc : List Nat) (pins : BitVec 32) (s : State), s.pwState = pwDormant ∧ s.cic.next ≤ s.time.dormant ∧ s.cic.late = false ∧ let u := (s.count Obj.CIC_WAKES 1).setCic (fun c => { c with wakes := c.wakes + 1, pins := pins.toNat })
    let period := u.objN Obj.CIC_PERIOD_S * 10000000
    let w := (u.cicReadings adc).setCic (fun c => { c with next := c.next + period })
    u.cic.spit = none ∧ w.cicOutside adc = none ∧ w.objN Obj.CIC_SPIT_EVERY = 0) ∧
  (∃ (p : Spit) (s : State), s.cic.spit = some p ∧ p.ready = true ∧ p.next ≤ s.time.dormant ∧ s.lostBars p = [] ∧ p.wake = none ∧ p.bars ≠ [] ∧ let x := s.drawNat
    let heads := (p.bars.map barHeads).flatten
    let u := heads.foldl (fun (s : State) h => s.spitHead p.line (x.1 % 2 ^ 63) (s.objN Obj.CIC_SPIT_DOT) h) x.2
    p.line + 1 < u.objN Obj.CIC_SPIT_LINES) ∧
  (∃ (p : Spit) (s : State), s.cic.spit = some p ∧ p.ready = true ∧ p.next ≤ s.time.dormant ∧ s.lostBars p = [] ∧ p.wake = none ∧ p.bars ≠ [] ∧ let x := s.drawNat
    let heads := (p.bars.map barHeads).flatten
    let u := heads.foldl (fun (s : State) h => s.spitHead p.line (x.1 % 2 ^ 63) (s.objN Obj.CIC_SPIT_DOT) h) x.2
    u.objN Obj.CIC_SPIT_LINES ≤ p.line + 1) ∧
  (∃ (p : Spit) (s : State), s.cic.spit = some p ∧ p.ready = false ∧ p.since + 1000000 ≤ s.time.dormant ∧ s.lostBars p ≠ []) ∧
  (∃ (s : State), bitAt (s.objN Obj.CIC_WAKE_PIN) 7 = false ∧ s.pwState = pwDormant) :=
  ⟨⟨[9], 0#32, { puts [(Obj.PWR_STATE, 3)] up with blobs := [(blobAddr Obj.CIC_ADC_WIN 6, 1)] }, by decide +kernel, by decide +kernel, by decide +kernel, by decide +kernel, 0, 9, by decide +kernel⟩,
   ⟨[], 0#32, puts [(Obj.PWR_STATE, 3), (Obj.CIC_SPIT_EVERY, 1)] up, by decide +kernel⟩,
   ⟨[], 0#32, puts [(Obj.PWR_STATE, 3), (Obj.CIC_SPIT_EVERY, 0)] up, by decide +kernel⟩,
   ⟨spitP, spitting 2, by decide +kernel⟩,
   ⟨spitP, spitting 1, by decide +kernel⟩,
   ⟨{ dom := 4, bars := [0], since := 0 }, { up with time := { dormant := 1000000 }, cic := { spit := some { dom := 4, bars := [0], since := 0 } } }, by decide +kernel⟩,
   ⟨puts [(Obj.PWR_STATE, 3), (Obj.CIC_WAKE_PIN, 3)] up, by decide +kernel⟩⟩

/-- The hypotheses of `Obligations.ResetAndBoot` can be met, clause by clause. -/
theorem witness_ResetAndBoot :
  (∃ (src : Fin 16) (s : State), src.val ≠ 0 ∧ src.val ≤ 7 ∧ (s.pwr.off = true → src.val ≤ 2) ∧ (src.val = 5 → ∃ t, s.pwr.resetAt = some t ∧ t ≤ s.aclkNs)) ∧
  (∃ (pair : Fin 2) (s : State), ((s.fault? 0x1407 pair.val).isSome = true ∨ (s.fault? 0x140B pair.val).isSome = true)) ∧
  (∃ (s : State), s.pwr.pllLost = false ∧ s.pwr.off = false ∧ s.pwState ≠ pwDormant) ∧
  (∃ (refclk : Bool) (s : State), s.objBit Obj.CLK_STATUS 1 = false ∧ s.jnl.booted = false ∧ let u := s.setBit Obj.CLK_STATUS 0 refclk
    u.fault? 0x1408 (b2n refclk) = none) ∧
  (∃ (s : State), s.objBit Obj.CLK_STATUS 1 = true) ∧
  (∃ (c : Ctx) (s : State), s.passes c Obj.RST_REQUEST 2 (le 1 1) = true ∧ let u := s.touch c
    u.hq.jobs = [] ∧ u.jnlFill = 0) ∧
  (∃ (c : Ctx) (s : State), s.passes c Obj.RST_REQUEST 2 (le 1 2) = true) ∧
  (∃ (s : State), s.jnl.booted = false ∧ s.ready 1 = true ∧ s.pwr.off = false ∧ let u := ({ s with jnl := { s.jnl with booted := true } } : State).journal 1 s.bootBody
    let u1 := (u.halo.faults.filter (fun f => decide (1 ≤ f.cls))).foldl (fun (s : State) f => s.journal 9 (s.faultEvent f)) u
    let x := (u1.condEnd 0x140E (u1.objN Obj.RST_SOURCE)).drawNat
    let u2 := x.2.setObj Obj.BOOT_TIME ((x.1 % 2 ^ 32 : Nat) : Int)
    let u3 := if Config.dramBlock then (u2.setObj Obj.DRAM_STATE 1).setObj Obj.DRAM_RATE Config.dramRate else u2
    u3.twin.presLow = false) ∧
  (∃ (s : State), s.jnl.booted = false ∧ s.ready 1 = true ∧ s.pwr.off = false ∧ let u := ({ s with jnl := { s.jnl with booted := true } } : State).journal 1 s.bootBody
    let u1 := (u.halo.faults.filter (fun f => decide (1 ≤ f.cls))).foldl (fun (s : State) f => s.journal 9 (s.faultEvent f)) u
    let x := (u1.condEnd 0x140E (u1.objN Obj.RST_SOURCE)).drawNat
    let u2 := x.2.setObj Obj.BOOT_TIME ((x.1 % 2 ^ 32 : Nat) : Int)
    let u3 := if Config.dramBlock then (u2.setObj Obj.DRAM_STATE 1).setObj Obj.DRAM_RATE Config.dramRate else u2
    u3.twin.presLow = true ∧ u3.obj Obj.TWIN_ENABLE = 1) ∧
  (∃ (p : Fin 2) (up : Bool) (s : State), s.ready 3 = true) ∧
  (∃ (p : Fin 2) (f : Bytes) (s : State), s.enUp p.val = true) ∧
  (∃ (p : Fin 2) (f : Bytes) (s : State), s.enUp p.val = true ∧ (s.count (Obj.EN_RX_FRAMES p.val) 1).enAnswer p.val f = none) ∧
  (∃ (p : Fin 2) (f : Bytes) (s : State), s.enUp p.val = true ∧ ∃ r, (s.count (Obj.EN_RX_FRAMES p.val) 1).enAnswer p.val f = some r) :=
  ⟨⟨7, up, by decide +kernel, by decide +kernel, by decide +kernel, fun h => absurd h (by decide)⟩,
   ⟨0, { up with halo := { faults := [{ code := 0x1407, cls := 2, inst := 0 }] } }, by decide +kernel⟩,
   ⟨up, by decide +kernel⟩,
   ⟨false, { put Obj.CLK_STATUS 0 up with jnl := {} }, by decide +kernel⟩,
   ⟨up, by decide +kernel⟩,
   ⟨cx, su, by decide +kernel⟩,
   ⟨cx, su, by decide +kernel⟩,
   ⟨{ up with jnl := {} }, by decide +kernel, by decide +kernel, by decide +kernel, by generalize Config.dramBlock = b; cases b <;> rfl⟩,
   ⟨{ put Obj.TWIN_ENABLE 1 up with jnl := {}, twin := { presLow := true } }, by decide +kernel, by decide +kernel, by decide +kernel, boot_twin _ _ _ _ (by rfl) (by decide +kernel)⟩,
   ⟨0, true, up, by decide +kernel⟩,
   ⟨0, [], puts [(Obj.EN_LINK 0, 1), (Obj.EN_ENABLE 0, 1)] up, by decide +kernel⟩,
   ⟨0, [], puts [(Obj.EN_LINK 0, 1), (Obj.EN_ENABLE 0, 1), (Obj.EN_MAC 0, 0), (Obj.IP4_ADDR 0, 0)] up, by decide +kernel⟩,
   ⟨0, arp, puts [(Obj.EN_LINK 0, 1), (Obj.EN_ENABLE 0, 1), (Obj.EN_MAC 0, 0), (Obj.IP4_ADDR 0, 1)] up, by decide +kernel, Option.isSome_iff_exists.mp (by decide +kernel)⟩⟩

/-- The hypotheses of `Obligations.GapRecords` can be met, clause by clause. -/
theorem witness_GapRecords :
  (∃ (kind : Nat) (body : Bytes) (s : State), s.jnl.booted = true ∧ let room := if kind = 4 ∨ kind = 5 ∨ kind = 6 then s.jnlCap else s.jnlCap - s.jnlReserve
    let need := 196 + body.length + (if s.jnl.gap.isSome then 208 else 0)
    room < s.jnlFill + need) ∧
  (∃ (kind : Nat) (body : Bytes) (s : State) (first n : Nat), s.jnl.booted = true ∧ s.jnl.gap = some (first, n) ∧ let room := if kind = 4 ∨ kind = 5 ∨ kind = 6 then s.jnlCap else s.jnlCap - s.jnlReserve
    s.jnlFill + 404 + body.length ≤ room) :=
  ⟨⟨4, [], put Obj.JNL_STORE_MIB 0 up, by decide +kernel⟩,
   ⟨4, [], { up with jnl := { up.jnl with gap := some (3, 2) } }, 3, 2, by decide +kernel⟩⟩

/-- The hypotheses of `Obligations.CamTableWrites` can be met, clause by clause. -/
theorem witness_CamTableWrites :
  (∃ (k : Nat), k < 8) ∧
  (∃ (c : Ctx) (k : Nat) (v : Int) (d : Bytes) (l : Spans) (s : State), k < 8 ∧ let good := d.length = 4100 ∧ crc32c (d.take 4096) = getN d 4096 4
    ¬ good) ∧
  (∃ (c : Ctx) (k : Nat) (v : Int) (d : Bytes) (l : Spans) (s : State), k < 8 ∧ let good := d.length = 4100 ∧ crc32c (d.take 4096) = getN d 4096 4
    good ∧ (∃ x, x < 24 ∧ s.slaved x = true ∧ s.objN (Obj.AX_CAM_TABLE x) = k)) ∧
  (∃ (c : Ctx) (k : Nat) (v : Int) (d : Bytes) (l : Spans) (s : State), k < 8 ∧ let good := d.length = 4100 ∧ crc32c (d.take 4096) = getN d 4096 4
    good ∧ (∀ x, x < 24 → s.slaved x = true → s.objN (Obj.AX_CAM_TABLE x) ≠ k)) :=
  ⟨⟨7, by decide +kernel⟩,
   ⟨cx, 7, 0, [], [], su, by decide +kernel⟩,
   ⟨cx, 0, 0, camZeros, [], puts [(Obj.AX_CAM_ENGAGE 0, 1), (Obj.AX_CAM_TABLE 0, 0)] su, by decide, ⟨cam_length, cam_crc⟩, ⟨0, by decide +kernel⟩⟩,
   ⟨cx, 7, 0, camZeros, [], su, by decide, ⟨cam_length, cam_crc⟩, by decide +kernel⟩⟩

/-- The hypotheses of `Obligations.EncoderSettingsHeld` can be met, clause by clause. -/
theorem witness_EncoderSettingsHeld :
  (∃ (c : Ctx) (w k : Nat) (v : Int) (d : Bytes) (l : Spans) (s : State), w < 2 ∧ s.obj (Obj.ENC_ENABLE w) = 1 ∧ (k = Obj.ENC_PATH w ∨ k = Obj.ENC_FILTER w ∨ k = Obj.ENC_REV_COUNTS w ∨ k = Obj.ENC_INDEX_POS w ∨ k = Obj.ENC_INDEX_MODE w)) ∧
  (∃ (c : Ctx) (x k : Nat) (v : Int) (d : Bytes) (l : Spans) (s : State), x < 24 ∧ s.obj (Obj.AXE_MODE x) ≠ 0 ∧ (k = Obj.AXE_FILTER x ∨ k = Obj.AXE_SSI_CLK x ∨ k = Obj.AXE_SSI_FRAME x ∨ k = Obj.AXE_SSI_RATE x ∨ k = Obj.AXE_SSI_RECOVERY x)) :=
  ⟨⟨cx, 1, Obj.ENC_INDEX_MODE 1, 1, [1], [], put (Obj.ENC_ENABLE 1) 1 su, by decide +kernel⟩,
   ⟨cx, 23, Obj.AXE_SSI_RECOVERY 23, 1, [1], [], put (Obj.AXE_MODE 23) 2 su, by decide +kernel⟩⟩

/-- The hypotheses of `Obligations.AccessRights` can be met, clause by clause. -/
theorem witness_AccessRights :
  (∃ (sess k : Nat) (st : Bool) (s : State), k % 256 ≠ 0 ∧ (Obj.find k).any (fun x => x.1.acc == .wo) = true) ∧
  (∃ (sess k : Nat) (s : State), (Obj.find k).any (fun x => x.1.acc == .ro) = true) ∧
  (∃ (sess k : Nat) (s : State), (Obj.find k).any (fun x => x.1.acc == .rws || x.1.acc == .rwbs) = true ∧ k ≠ Obj.SEC_LIFECYCLE ∧ s.hasAuthority = true) ∧
  (∃ (sess k : Nat) (st : Bool) (s : State), Obj.find k = none ∧ (k % 256 ≠ 0 ∨ Obj.countOf (k / 256) = none)) :=
  ⟨⟨5, Obj.FLT_CLEAR, false, su, by decide +kernel⟩,
   ⟨5, Obj.TIME_NOW, su, by decide +kernel⟩,
   ⟨9, Obj.RST_REQUEST, su, by decide +kernel⟩,
   ⟨5, 0xFFFF01, false, su, by decide +kernel⟩⟩

/-- The hypotheses of `Obligations.DramStops` can be met, clause by clause. -/
theorem witness_DramStops :
  (∃ (port : Fin 8) (addr age : Nat) (e : List (Nat × Nat)) (s : State), s.dramReady = true ∧ s.usable ≤ addr) ∧
  (∃ (port : Fin 8) (addr : Nat) (d : Bytes) (age : Nat) (e : List (Nat × Nat)) (s : State), s.dramReady = true ∧ s.usable < addr + d.length) :=
  ⟨⟨0, 52428 * 2 ^ 20, 0, [], up, by decide +kernel⟩,
   ⟨0, 52428 * 2 ^ 20 - 1, [0, 0], 0, [], up, by decide +kernel⟩⟩

/-- The hypotheses of `Obligations.SharedOperationsFrame` can be met, clause by clause. -/
theorem witness_SharedOperationsFrame :
  (∃ (s : State) (k o j p : Nat) (v : Byte), o < 2 ^ 24 ∧ p < 2 ^ 24) ∧
  (∃ (s : State) (k n j : Nat), counterMax (match Obj.find k with | some (r, _) => r.ty | none => 4) > s.objN k + n) :=
  ⟨⟨up, 1, 2 ^ 24 - 1, 2, 0, 5, by decide +kernel⟩,
   ⟨up, Obj.FLT_OFF_CNT, 1, 0, by decide +kernel⟩⟩

/-- The hypotheses of `Obligations.FaultsRecur` can be met. -/
theorem witness_FaultsRecur :
  (∃ (s : State) (code cls inst : Nat) (d : Bytes) (cond inj : Bool) (f : Flt), s.fault? code inst = some f) :=
  ⟨State.reset, 0x140E, 2, 1, [], true, false, { code := 0x140E, cls := 2, inst := 1, detail := List.replicate 12 0 }, by decide +kernel⟩

/-- The hypotheses of `Obligations.SessionIdsAreNew` can be met. -/
theorem witness_SessionIdsAreNew :
  (∃ (transport seq : Nat) (nonce : Bytes) (s : State), s.toa.opens.find? (fun (e : Bytes × Nat × Nat) => e.1 == nonce && (s.session? e.2.1).isSome) = none ∧ s.toa.sessions.length < 16 ∧ s.toa.closed.length + s.toa.sessions.length < 511) :=
  ⟨3, 1, zeros 8, up, by decide +kernel⟩

/-- The hypotheses of `Obligations.StoresStayCanonical` can be met. -/
theorem witness_StoresStayCanonical :
  (∃ (s t : State), s.Canonical ∧ step s = .next t) :=
  ⟨State.reset, State.reset.tick, ⟨by decide +kernel, List.Pairwise.nil, by rfl⟩, by rfl⟩

/-- The hypotheses of `Obligations.QueueAndOutputsKept` can be met. -/
theorem witness_QueueAndOutputsKept :
  (∃ (c : Instr) (s t : State), exec c s = .next t) :=
  ⟨.encIndex 0, State.reset, _, rfl⟩

end Sys2Proof.Tests
end

section
/-! Encoder settings that are held while their channel is enabled (R101). -/

namespace Sys2Proof.Machine

/-- The settings of web encoder channel w that R101 holds while ENC_ENABLE is 1. -/
def Obj.EncSetting (w k : Nat) : Prop :=
  k = Obj.ENC_PATH w ∨ k = Obj.ENC_FILTER w ∨ k = Obj.ENC_REV_COUNTS w ∨ k = Obj.ENC_INDEX_POS w ∨ k = Obj.ENC_INDEX_MODE w

/-- The SSI objects of axis x that Table 5.8 marks "set while off". -/
def Obj.SsiSetting (x k : Nat) : Prop :=
  k = Obj.AXE_SSI_CLK x ∨ k = Obj.AXE_SSI_FRAME x ∨ k = Obj.AXE_SSI_RATE x ∨ k = Obj.AXE_SSI_RECOVERY x

theorem Obj.EncSetting.index_eq {w k : Nat} (h : Obj.EncSetting w k) : k / 256 = 0x6000 + 0x80 * w := by
  simp only [Obj.EncSetting, Obj.ENC_PATH, Obj.ENC_FILTER, Obj.ENC_REV_COUNTS, Obj.ENC_INDEX_POS, Obj.ENC_INDEX_MODE] at h
  omega

theorem Obj.EncSetting.ne_enable {w k : Nat} (h : Obj.EncSetting w k) : k ≠ Obj.ENC_ENABLE w := by
  simp only [Obj.EncSetting, Obj.ENC_PATH, Obj.ENC_FILTER, Obj.ENC_REV_COUNTS, Obj.ENC_INDEX_POS, Obj.ENC_INDEX_MODE] at h
  simp only [Obj.ENC_ENABLE]
  omega

theorem Obj.AXE_FILTER_index (x : Nat) : Obj.AXE_FILTER x / 256 = 0x6100 + 0x10 * x := by
  simp only [Obj.AXE_FILTER]
  omega

theorem Obj.SsiSetting.index_eq {x k : Nat} (h : Obj.SsiSetting x k) : k / 256 = 0x6100 + 0x10 * x := by
  simp only [Obj.SsiSetting, Obj.AXE_SSI_CLK, Obj.AXE_SSI_FRAME, Obj.AXE_SSI_RATE, Obj.AXE_SSI_RECOVERY] at h
  omega

theorem Obj.SsiSetting.ne_mode_filter {x k : Nat} (h : Obj.SsiSetting x k) : k ≠ Obj.AXE_MODE x ∧ k ≠ Obj.AXE_FILTER x := by
  simp only [Obj.SsiSetting, Obj.AXE_SSI_CLK, Obj.AXE_SSI_FRAME, Obj.AXE_SSI_RATE, Obj.AXE_SSI_RECOVERY] at h
  simp only [Obj.AXE_MODE, Obj.AXE_FILTER]
  omega

/-- Indexes 0x6000 to 0x63FF have the rules of the web and its encoders. -/
theorem State.writeRule_of_web_index {k : Nat} (hlo : 0x6000 ≤ k / 256) (hhi : k / 256 < 0x6400) (s : State) (c : Ctx)
    (v : Int) (d : Bytes) (l : Spans) : s.writeRule c k v d l = s.writeWeb k v.toNat d := by
  simp (disch := omega) only [State.writeRule, ↓if_neg, ↓if_pos]

theorem State.writeWeb_encSetting {w k : Nat} (hw : w < 2) (hk : Obj.EncSetting w k) (s : State) (v : Nat) (d : Bytes) :
    s.writeWeb k v d = s.whileOff (s.obj (Obj.ENC_ENABLE w) == 1) k d := by
  have hidx := hk.index_eq
  have hchan : (k / 256 - 0x6000) / 0x80 = w := by omega
  simp only [State.writeWeb, hchan]
  rw [if_pos (by omega), if_neg hk.ne_enable]
  exact if_pos hk

theorem State.writeWeb_axeFilter {x : Nat} (hx : x < 24) (s : State) (v : Nat) (d : Bytes) :
    s.writeWeb (Obj.AXE_FILTER x) v d = s.whileOff (s.obj (Obj.AXE_MODE x) != 0) (Obj.AXE_FILTER x) d := by
  have hidx := Obj.AXE_FILTER_index x
  have haxis : (Obj.AXE_FILTER x / 256 - 0x6100) / 0x10 = x := by omega
  have hsel : Obj.AXE_FILTER x ≠ Obj.WEB_SEL := by simp only [Obj.AXE_FILTER, Obj.WEB_SEL]; omega
  have hmode : Obj.AXE_FILTER x ≠ Obj.AXE_MODE x := by simp only [Obj.AXE_FILTER, Obj.AXE_MODE]; omega
  simp only [State.writeWeb, haxis]
  rw [if_neg (by omega), if_neg hsel, if_neg (by omega), if_pos (by omega), if_neg hmode, if_pos trivial]

theorem State.writeWeb_ssiSetting {x k : Nat} (hx : x < 24) (hk : Obj.SsiSetting x k) (s : State) (v : Nat) (d : Bytes) :
    s.writeWeb k v d = s.ssiSet x k d := by
  have hidx := hk.index_eq
  have haxis : (k / 256 - 0x6100) / 0x10 = x := by omega
  have hsel : k ≠ Obj.WEB_SEL := by simp only [Obj.WEB_SEL]; omega
  obtain ⟨hmode, hfilter⟩ := hk.ne_mode_filter
  simp only [State.writeWeb, haxis]
  rw [if_neg (by omega), if_neg hsel, if_neg (by omega), if_pos (by omega), if_neg hmode, if_neg hfilter]
  exact if_pos hk

theorem State.whileOff_true (s : State) (k : Nat) (d : Bytes) : s.whileOff true k d = (s, 0x0A) := rfl

theorem State.ssiSet_of_mode_on {s : State} {x : Nat} (h : s.obj (Obj.AXE_MODE x) ≠ 0) (k : Nat) (d : Bytes) :
    s.ssiSet x k d = (s, 0x0A) := if_pos h

/-- The web encoders' half of R101. -/
theorem State.writeRule_encSetting_enabled {s : State} {w k : Nat} (hw : w < 2) (hk : Obj.EncSetting w k)
    (hon : s.obj (Obj.ENC_ENABLE w) = 1) (c : Ctx) (v : Int) (d : Bytes) (l : Spans) :
    s.writeRule c k v d l = (s, 0x0A) := by
  have hidx := hk.index_eq
  rw [State.writeRule_of_web_index (by omega) (by omega), State.writeWeb_encSetting hw hk, hon]
  exact State.whileOff_true s k d

/-- The axis encoders' half of R101: the filter. -/
theorem State.writeRule_axeFilter_on {s : State} {x : Nat} (hx : x < 24) (hon : s.obj (Obj.AXE_MODE x) ≠ 0) (c : Ctx)
    (v : Int) (d : Bytes) (l : Spans) : s.writeRule c (Obj.AXE_FILTER x) v d l = (s, 0x0A) := by
  have hidx := Obj.AXE_FILTER_index x
  rw [State.writeRule_of_web_index (by omega) (by omega), State.writeWeb_axeFilter hx, bne_iff_ne.mpr hon]
  exact State.whileOff_true s _ d

/-- The axis encoders' half of R101: the SSI objects. -/
theorem State.writeRule_ssiSetting_on {s : State} {x k : Nat} (hx : x < 24) (hk : Obj.SsiSetting x k)
    (hon : s.obj (Obj.AXE_MODE x) ≠ 0) (c : Ctx) (v : Int) (d : Bytes) (l : Spans) :
    s.writeRule c k v d l = (s, 0x0A) := by
  have hidx := hk.index_eq
  rw [State.writeRule_of_web_index (by omega) (by omega), State.writeWeb_ssiSetting hx hk]
  exact State.ssiSet_of_mode_on hon k d

end Sys2Proof.Machine

namespace Sys2Proof

open Machine

/-- Settles O44: each of these objects has a rule of its own that first asks whether its channel is on. -/
theorem encoderSettingsHeld : Obligations.EncoderSettingsHeld := by
  unfold Obligations.EncoderSettingsHeld
  constructor
  · intro c w k v d l s hw hon hk
    exact State.writeRule_encSetting_enabled hw hk hon c v d l
  · intro c x k v d l s hx hon hk
    obtain rfl | hssi := hk
    · exact State.writeRule_axeFilter_on hx hon c v d l
    · exact State.writeRule_ssiSetting_on hx hssi hon c v d l

end Sys2Proof
end

section
/-! Writes of the cam tables (R350). -/

namespace Sys2Proof.Machine

/-- The bytes of a cam table that passes its checks: 1,024 points and their CRC-32C. -/
def CamTableOk (d : Bytes) : Prop := d.length = 4100 ∧ crc32c (d.take 4096) = getN d 4096 4

/-- An engaged axis follows table k. -/
def State.CamTableUsed (s : State) (k : Nat) : Prop :=
  ∃ x, x < 24 ∧ s.slaved x = true ∧ s.objN (Obj.AX_CAM_TABLE x) = k

theorem Obj.find_CAM_TABLE {k : Nat} (hk : k < 8) :
    ∃ x, Obj.find (Obj.CAM_TABLE k) = some x ∧ x.1.ty = 13 ∧ x.1.len = 4100 := by
  have hrow : ∀ i : Fin 8, (Obj.find (Obj.CAM_TABLE i.val)).any (fun x => x.1.ty = 13 ∧ x.1.len = 4100) = true := by decide
  simpa only [Option.any_eq_true, decide_eq_true_eq] using hrow ⟨k, hk⟩

theorem Obj.CAM_TABLE_ne_CAL_RESTORE (k : Nat) : Obj.CAM_TABLE k ≠ Obj.CAL_RESTORE := by
  simp only [Obj.CAM_TABLE, Obj.CAL_RESTORE]
  omega

/-- A BLOB object with a fixed length takes values of that length only. -/
theorem lengthOk_fixed_blob {k : Nat} {r : Obj.ObjRow} (hty : r.ty = 13) (hlen : r.len ≠ 0) (hk : k ≠ Obj.CAL_RESTORE)
    (n : Nat) : lengthOk k r n = (n == r.len) := by
  rw [lengthOk, if_neg (by omega), if_neg (by omega), if_pos hlen]

theorem Obj.any_lengthOk_CAM_TABLE {k : Nat} (hk : k < 8) (n : Nat) :
    (Obj.find (Obj.CAM_TABLE k)).any (fun x => lengthOk (Obj.CAM_TABLE k) x.1 n) = true ↔ n = 4100 := by
  obtain ⟨x, hfind, hty, hlen⟩ := Obj.find_CAM_TABLE hk
  rw [hfind, Option.any_some, lengthOk_fixed_blob hty (by omega) (Obj.CAM_TABLE_ne_CAL_RESTORE k), hlen, beq_iff_eq]

theorem State.any_slaved_iff_camTableUsed (s : State) (k : Nat) :
    (List.range 24).any (fun x => s.slaved x && s.objN (Obj.AX_CAM_TABLE x) == k) = true ↔ s.CamTableUsed k := by
  simp only [List.any_eq_true, List.mem_range, Bool.and_eq_true, beq_iff_eq, State.CamTableUsed]

theorem State.camTableSet_of_not_ok {d : Bytes} (hbad : ¬ CamTableOk d) (s : State) (k : Nat) :
    s.camTableSet k d = (s, 0x04) := by
  rw [State.camTableSet, if_pos (Decidable.not_and_iff_not_or_not.mp hbad)]

theorem State.camTableSet_of_ok {d : Bytes} (hok : CamTableOk d) (s : State) (k : Nat) [Decidable (s.CamTableUsed k)] :
    s.camTableSet k d = if s.CamTableUsed k then (s, 0x0A) else (s.setBlob (Obj.CAM_TABLE k) 0 d, 0) := by
  obtain ⟨hlen, hcrc⟩ := hok
  rw [State.camTableSet, if_neg (not_or.mpr ⟨not_not.mpr hlen, not_not.mpr hcrc⟩)]
  simp only [State.any_slaved_iff_camTableUsed]

end Sys2Proof.Machine

namespace Sys2Proof

open Machine

/-- Settles O43: the object's row fixes the length, and the rule of its own asks for the CRC first and for the axes that
follow the table second. -/
theorem camTableWrites : Obligations.CamTableWrites := by
  classical
  unfold Obligations.CamTableWrites
  refine ⟨fun k hk n => Obj.any_lengthOk_CAM_TABLE hk n, ?_⟩
  intro c k v d l s hk
  rw [State.writeRule_CAM_TABLE s c k hk]
  refine ⟨fun hbad => ?_, fun hok hused => ?_, fun hok hfree => ?_⟩
  · exact State.camTableSet_of_not_ok hbad s k
  · exact (State.camTableSet_of_ok hok s k).trans (if_pos hused)
  · have hunused : ¬ s.CamTableUsed k := fun ⟨x, hx, hslaved, htable⟩ => hfree x hx hslaved htable
    exact (State.camTableSet_of_ok hok s k).trans (if_neg hunused)

end Sys2Proof
end

section
/-! Every command keeps the queue, the outputs, the free values and the canonical stores. -/

namespace Sys2Proof.Machine

/-- An outcome that, where it is a next state, keeps from s what every operation keeps. -/
def KeepsNext (s : State) (o : Host.Outcome State Fault Refusal) : Prop := ∀ t, o = .next t → Kept s t

theorem KeepsNext.next {s u : State} (h : Kept s u) : KeepsNext s (.next u) := by
  rintro t ⟨⟩
  exact h

theorem KeepsNext.fault (s : State) (f : Fault) : KeepsNext s (.fault f) := by
  rintro t ⟨⟩

theorem KeepsNext.ite {s : State} {p : Prop} [Decidable p] {x y : Host.Outcome State Fault Refusal} (hx : KeepsNext s x)
    (hy : KeepsNext s y) : KeepsNext s (if p then x else y) := by
  split
  · exact hx
  · exact hy

theorem execDramRead_keepsNext (port : Fin 8) (addr age : Nat) (e : List (Nat × Nat)) (s : State) :
    KeepsNext s (execDramRead port addr age e s) :=
  .ite (.next (.refl s)) (.ite (.fault s _) (.ite (.next (.refl s)) (.next (State.dramRead_kept (.refl s) ..))))

theorem execDramWrite_keepsNext (port : Fin 8) (addr : Nat) (d : Bytes) (age : Nat) (e : List (Nat × Nat)) (s : State) :
    KeepsNext s (execDramWrite port addr d age e s) :=
  .ite (.next (.refl s)) (.ite (.fault s _) (.ite (.next (.refl s)) (.next (State.dramWrite_kept (.refl s) ..))))

/-- Every command keeps what the operations it is made of keep. -/
theorem exec_keepsNext (c : Instr) (s : State) : KeepsNext s (exec c s) := by
  cases c with
  | registerWrite => exact .next (State.targetWrite_kept (.refl s) ..)
  | counterClear => exact .next (.ite (.refl s) (State.targetWrite_kept · ..))
  | hqDoorbell => exact .next (State.onBar_kept (.refl s) (fun _ h => State.doorbell_kept h ..) ..)
  | ringEnable => exact .next (State.onBar_kept (.refl s) (fun _ h => State.ringEnable_kept h ..) ..)
  | ringDisable => exact .next (State.onBar_kept (.refl s) (fun _ h => State.ringDisable_kept h ..) ..)
  | descriptorFetch => exact .next (State.fetchDesc_kept (.refl s) ..)
  | pageJobConsume => exact .next (State.consumeJob_kept (.refl s) ..)
  | psnWait => exact .next (State.psnWaitEvent_kept (.refl s) ..)
  | baseRegisterConsume => exact .next (State.consumeBaseRegister_kept (.refl s) ..)
  | baseRetireConsume => exact .next (State.consumeBaseRetire_kept (.refl s) ..)
  | chunkConsume => exact .next (State.consumeChunk_kept (.refl s) ..)
  | chunkLanded => exact .next (State.chunkLand_kept (.refl s) ..)
  | chunkOrphan => exact .next (State.chunkExpire_kept (.refl s) ..)
  | jobAccept => exact .next (State.acceptJob_kept (.refl s) ..)
  | baseRegistered => exact .next (State.registerBase_kept (.refl s) ..)
  | baseFreed => exact .next (State.freeBase_kept (.refl s) ..)
  | jobStaged => exact .next (State.stageJob_kept (.refl s) ..)
  | lineBoundary => exact .next (State.lineBoundary_kept (.refl s) ..)
  | jobRetire => exact .next (State.retireJob_kept (.refl s) ..)
  | recordPost => exact .next (State.postRecord_kept (.refl s) ..)
  | ringIrqTimer => exact .next (State.irqTimer_kept (.refl s) ..)
  | hqAbort => exact .next (State.onBar_kept (.refl s) (fun _ h => State.hqAbort_kept h ..) ..)
  | jobAbort | psnNext | encEnable | webSel | cmpArm | ffyResume | laneSlip | hlEnable | laneRetrain | laneEyeStart
  | laneMode | laneLoop | laneInject | camEnable | camAcquire | camRegRead | camRegWrite | camSettingsWrite
  | nimEvidFree | calRun | calAccept | calReject | timePref | commitCancel | axTarget | axStop | axEnable | axHome
  | axCamEngage | axMode | lpEnable | lpMode | lpTrArm | lpTrForce | adcEnable | pwmDuty | gpioDir | dramRate
  | strAbort | fltClear | fltFecClear | diagInject | twinEnable | twinHandOver | twinForceActive | secSvnCommit
  | secLifecycle | secKeyRevoke | secDebugState | pwrTarget | rstRequest | rstRequestForce =>
    exact .next (State.numCmd_kept (.refl s) ..)
  | pcieLinkDown => exact .next (State.linkDown_kept (.refl s) ..)
  | bar0BadAccess => exact .next (State.onBar_kept (.refl s) (fun _ h => State.bar0Bad_kept h ..) ..)
  | bar4Read => exact .next (State.onBar_kept (.refl s) (fun _ h => State.emit_kept h ..) ..)
  | bar4Write => exact .next (State.onBar_kept (.refl s) (fun _ h => State.bar4Discard_kept h ..) ..)
  | fireDecodeLine => exact .next (State.fireDecode_kept (.refl s) ..)
  | checkDecodeLine => exact .next (State.checkDecode_kept (.refl s) ..)
  | checkLate => exact .next (State.checkIsLate_kept (.refl s) ..)
  | encEdge => exact .next (State.encLevels_kept (.refl s) ..)
  | encIllegal => exact .next (.ite (.refl s) (State.encLevels_kept · ..))
  | encIndex => exact .next (State.encIndex_kept (.refl s) ..)
  | encStandstill => exact .next (State.encStandstill_kept (.refl s) ..)
  | webSpanEnd => exact .next (State.spanEnd_kept (.refl s) ..)
  | tofMark => exact .next (State.tofMark_kept (.refl s) ..)
  | tofMissing => exact .next (State.tofMissing_kept (.refl s) ..)
  | cmpTarget => exact .next (State.cmpAct_kept (.refl s) ..)
  | cmpPulseEnd => exact .next (State.pulseEnd_kept (.refl s) ..)
  | axeEdge => exact .next (State.axeLevels_kept (.refl s) ..)
  | axeIndex => exact .next (State.indexAndHome_kept (.refl s) ..)
  | axeSsiSample => exact .next (State.ssiAndAxes_kept (.refl s) ..)
  | lineDepart => exact .next (State.depart_kept (.refl s) ..)
  | wearFlush => exact .next (State.flushWear_kept (.refl s) ..)
  | wear | wearRestore | calRestore | timeStep | camTable | secKeyProvision | secMakerKey | secDebugKey
  | secDebugResponse =>
    exact .next (State.tableCmd_kept (.refl s) ..)
  | blockLock => exact .next (State.blockLock_kept (.refl s) ..)
  | blockLockLoss => exact .next (State.blockLockLoss_kept (.refl s) ..)
  | trainFrameSend => exact .next (State.trainSend_kept (.refl s) ..)
  | trainFrameReceive => exact .next (State.trainReceive_kept (.refl s) ..)
  | trainFail => exact .next (State.trainFail_kept (.refl s) ..)
  | telemetryReceive => exact .next (State.telemetry_kept (.refl s) ..)
  | telemetryTimeout => exact .next (State.teleTimeout_kept (.refl s) ..)
  | enumReceive => exact .next (State.enumReceive_kept (.refl s) ..)
  | controlResend => exact .next (State.ctlResend_kept (.refl s) ..)
  | echoReceive => exact .next (State.echo_kept (.refl s) ..)
  | timeFrameSend => exact .next (State.timeSend_kept (.refl s) ..)
  | authSend => exact .next (State.sendAuth_kept (.refl s) ..)
  | headAuthReceive => exact .next (State.headAuth_kept (.refl s) ..)
  | headPortLapse => exact .next (State.headLapse_kept (.refl s) ..)
  | headTimeReceive => exact .next (State.headTime_kept (.refl s) ..)
  | headLineDataReceive => exact .next (State.headLineData_kept (.refl s) ..)
  | headFireTimeReceive => exact .next (State.headFireTime_kept (.refl s) ..)
  | headTableReceive => exact .next (State.headTable_kept (.refl s) ..)
  | headLineCommit => exact .next (State.headCommit_kept (.refl s) ..)
  | headRowFire => exact .next (State.headRowFire_kept (.refl s) ..)
  | headHotEnter => exact .next (State.headHotEnter_kept (.refl s) ..)
  | headEnumSend => exact .next (State.headEnum_kept (.refl s) ..)
  | headTelemetrySend => exact .next (State.headTele_kept (.refl s) ..)
  | assign => exact .next (State.headAssign_kept (.refl s) ..)
  | hotLimit | hotClear | bankSwitch | service | release | timeAcquire | slots =>
    exact .next (State.headCtl_kept (.refl s) ..)
  | laneRetrainIdle => exact .next (State.retrainIdle_kept (.refl s) ..)
  | eyeScanEnd => exact .next (State.eyeEnd_kept (.refl s) ..)
  | prbsLockLoss => exact .next (State.checkerLoss_kept (.refl s) ..)
  | camDiscoveryDone => exact .next (State.camDiscovered_kept (.refl s) ..)
  | camTriggerSend => exact .next (State.flushStats_kept (State.camTrigger_kept (.refl s) ..))
  | camLineReceive => exact .next (State.camLine_kept (.refl s) ..)
  | camFrameClose => exact .next (State.flushStats_kept (State.camClose_kept (.refl s) ..))
  | camTimeout => exact .next (State.flushStats_kept (State.camTimeout_kept (.refl s) ..))
  | camLinkLockLoss => exact .next (State.flushStats_kept (State.camUnlock_kept (.refl s) ..))
  | camRegAck => exact .next (State.camAck_kept (.refl s) ..)
  | camRegRetry => exact .next (State.camRetry_kept (.refl s) ..)
  | camEvent => exact .next (State.camEvent_kept (.refl s) ..)
  | bandComplete => exact .next (State.bandDone_kept (.refl s) ..)
  | verdictPost => exact .next (State.verdictDue_kept (.refl s) ..)
  | nimStreamBlock => exact .next (State.streamBlock_kept (.refl s) ..)
  | calUnitDue => exact .next (State.calDue_kept (.refl s) ..)
  | calRunComplete => exact .next (State.calComplete_kept (.refl s) ..)
  | calRetry => exact .next (State.calRetry_kept (.refl s) ..)
  | calProposalExpire => exact .next (State.calExpire_kept (.refl s) ..)
  | timeAnchor => exact .next (State.timeAnchorDue_kept (.refl s) ..)
  | ptpAnnounce => exact .next (State.ptpAnnounced_kept (.refl s) ..)
  | ptpMeasurement => exact .next (State.ptpMeasure_kept (.refl s) ..)
  | ptpLoss => exact .next (State.ptpTimeout_kept (.refl s) ..)
  | timeStepDeferred => exact .next (State.deferredStep_kept (.refl s) ..)
  | ppsInEdge => exact .next (State.ppsEdge_kept (.refl s) ..)
  | ppsInLoss => exact .next (State.ppsLoss_kept (.refl s) ..)
  | ppsOutStart => exact .next (State.ppsStart_kept (.refl s) ..)
  | ppsOutEnd => exact .next (State.ppsStop_kept (.refl s) ..)
  | toaFrameReceive => exact .next (State.toaReceive_kept (.refl s) ..)
  | openSession => exact .next (.ite (.refl s) fun h => State.noteCmd_kept (State.openCmd_kept h ..))
  | close => exact .next (State.inCmd_kept (.refl s) (fun _ h => State.closeCmd_kept h ..) ..)
  | authBegin => exact .next (State.inCmd_kept (.refl s) (fun _ h => State.authBeginCmd_kept h ..) ..)
  | authFinish => exact .next (State.inCmd_kept (.refl s) (fun _ h => State.authFinishCmd_kept h ..) ..)
  | ping => exact .next (State.inCmd_kept (.refl s) (fun _ h => h) _)
  | read | write | readShadow | blockRead | blockWrite =>
    exact .next (State.itemRow_kept (.refl s) ..)
  | commit => exact .next (State.inCmd_kept (.refl s) (fun _ h => State.commitCmd_kept h ..) ..)
  | discard => exact .next (State.inCmd_kept (.refl s) (fun _ h => State.discardCmd_kept h ..) ..)
  | mailboxDescriptor => exact .next (State.mailbox_kept (.refl s) ..)
  | toaMbDoorbell => exact .next (State.onBar_kept (.refl s) (fun _ h => State.windowBell_kept h ..) ..)
  | sessionIdleClose => exact .next (.ite (.refl s) (State.closeSession_kept · ..))
  | supervisorLapse => exact .next (.ite (.refl s) State.lapseDue_kept)
  | commitTakeEffect => exact .next (State.takeEffect_kept (.refl s) ..)
  | enPortConfig => exact .next (State.objCmd_kept (.refl s) ..)
  | axSample => exact .next (State.axSample_kept (.refl s) ..)
  | axEnDelayExpire => exact .next (State.enDelay_kept (.refl s) ..)
  | axLimitActive => exact .next (State.limitActive_kept (.refl s) ..)
  | axFollowingError => exact .next (State.followingError_kept (.refl s) ..)
  | axIdleCurrent => exact .next (State.idleCurrent_kept (.refl s) ..)
  | axContact => exact .next (State.axContact_kept (.refl s) ..)
  | loopEval => exact .next (State.loopEval_kept (.refl s) ..)
  | loopFe => exact .next (State.loopFe_kept (.refl s) ..)
  | adcConversion => exact .next (State.adcConversion_kept (.refl s) ..)
  | pwmPeriod => exact .next (State.pwmPeriod_kept (.refl s) ..)
  | gpioInput => exact .next (State.gpioInput_kept (.refl s) ..)
  | dramRead => exact execDramRead_keepsNext _ _ _ _ s
  | dramWrite => exact execDramWrite_keepsNext _ _ _ _ _ s
  | dramRefresh => exact .next (State.dramRefresh_kept (.refl s) ..)
  | dramMr4Read => exact .next (State.mr4_kept (.refl s) ..)
  | dramSweepStart => exact .next (State.sweepStart_kept (.refl s) ..)
  | dramSweepComplete => exact .next (State.sweepComplete_kept (.refl s) ..)
  | dramDrift => exact .next (State.dramDrift_kept (.refl s) ..)
  | dramScrub => exact .next (State.dramScrub_kept (.refl s) ..)
  | dramRegionResize => exact .next (.ite (.refl s) (State.numCmd_kept · ..))
  | dramRowClose => exact .next (State.rowClose_kept (.refl s) ..)
  | dramPowerDown => exact .next (State.powerDown_kept (.refl s) ..)
  | dramRestoreWaitEnd => exact .next (State.restoreWaitEnd_kept (.refl s) ..)
  | compressBlocks | compressStream | decompress =>
    exact .next (State.strRun_kept (.refl s) ..)
  | stratusJobComplete => exact .next (State.strComplete_kept (.refl s) ..)
  | faultLatch => exact .next (State.faultWakes_kept (.refl s) (State.faultLatch_kept (.refl s) ..))
  | alertPulseEnd => exact .next (State.alertEnd_kept (.refl s) ..)
  | chainLow => exact .next (State.faultWakes_kept (.refl s) (State.chainFalls_kept (.refl s) ..))
  | safeReadbackMismatch => exact .next (State.faultWakes_kept (.refl s) (State.readback_kept (.refl s) ..))
  | webLoss => exact .next (State.webLoss_kept (.refl s) ..)
  | pairSilent => exact .next (State.faultWakes_kept (.refl s) (State.pairSilentF_kept (.refl s) ..))
  | presWinExceeded => exact .next (State.presWinF_kept (.refl s) ..)
  | supplyOutOfWindow => exact .next (State.faultWakes_kept (.refl s) (State.supplyOut_kept (.refl s) ..))
  | twinElection => exact .next (State.election_kept (.refl s) ..)
  | twinElectTimeout => exact .next (State.electTimeout_kept (.refl s) ..)
  | twinPresFall => exact .next (State.presFall_kept (.refl s) ..)
  | twinFrameReceive => exact .next (State.twinReceive_kept (.refl s) ..)
  | twinRetransmit => exact .next (State.twinAgain_kept (.refl s) ..)
  | twinHeartbeatSend => exact .next (State.twinBeat_kept (.refl s) ..)
  | twinSilence => exact .next (State.twinSilence_kept (.refl s) ..)
  | twinPlannedStop => exact .next (State.twinPlanned_kept (.refl s) ..)
  | twinSnapshotComplete => exact .next (State.snapshotDone_kept (.refl s) ..)
  | twinStandbyReady => exact .next (State.standbyReady_kept (.refl s) ..)
  | twinLaneFail => exact .next (State.twinLaneFail_kept (.refl s) ..)
  | journalFragmentPost => exact .next (State.fragPost_kept (.refl s) ..)
  | secDebugChallenge => exact .next (State.inCmd_kept (.refl s) (fun _ h => State.readObj_kept h ..) _)
  | pwrTransitionStart => exact .next (State.transitionAnswered_kept (.refl s) ..)
  | domainStopTimeout => exact .next (.ite (.refl s) (State.transitionAnswered_kept · ..))
  | avsStep => exact .next (State.avsStep_kept (.refl s) ..)
  | pmbAlert => exact .next (State.faultWakes_kept (.refl s) (State.pmbAlerts_kept (.refl s) ..))
  | cicadaWake => exact .next (State.cicadaWake_kept (.refl s) ..)
  | spitLine => exact .next (State.spitLine_kept (.refl s) ..)
  | spitTimeout => exact .next (State.spitTimeout_kept (.refl s) ..)
  | cicWakePin => exact .next (State.wakePin_kept (.refl s) ..)
  | reset => exact .next (State.resetBy_kept (.refl s) ..)
  | pairReset => exact .next (State.pairReset_kept (.refl s) ..)
  | rootPllLock => exact .next (State.pllLock_kept (.refl s) ..)
  | pllLockRetry => exact .next (State.pllRetry_kept (.refl s) ..)
  | pllLockLoss => exact .next (State.faultWakes_kept (.refl s) (State.pllLoss_kept (.refl s)))
  | bootComplete => exact .next (State.bootDone_kept (.refl s) ..)
  | pcieLinkUp => exact .next (State.linkUpAgain_kept (.refl s) ..)
  | enLinkChange => exact .next (State.enLink_kept (.refl s) ..)
  | ethernetFrameReceive => exact .next (State.ethFrame_kept (.refl s) ..)
  | laneSignalDetect => exact .next (State.signalDetect_kept (.refl s) ..)
  | prbsCheckerLock => exact .next (State.checkerLock_kept (.refl s) ..)
  | chainHigh => exact .next (State.chainRises_kept (.refl s) ..)
  | twinPartnerLost => exact .next (State.twinPartnerLost_kept (.refl s) ..)
  | dramInitComplete => exact .next (State.dramInit_kept (.refl s) ..)
  | camHeartbeatReceive => exact .next (State.camPacket_kept (.refl s) ..)

theorem Kept.canonical {s t : State} (h : Kept s t) (hc : s.Canonical) : t.Canonical :=
  ⟨h.objs hc.1, h.blobs hc.2.1, h.dram hc.2.2⟩

/-- A step is one tick of the clock or one command on the state whose queue is the rest; the queue is no part of the stores. -/
theorem step_canonical {s t : State} (hc : s.Canonical) (h : step s = .next t) : t.Canonical := by
  unfold step at h
  split at h
  · exact (KeepsNext.next (State.tick_kept (.refl s)) t h).canonical hc
  next c rest _ => exact (exec_keepsNext c { s with pending := rest } t h).canonical hc

end Sys2Proof.Machine

namespace Sys2Proof

open Machine

/-- Settles O51: every operation keeps the canonical forms (`Kept`), and a step is one of them. -/
theorem storesStayCanonical : Obligations.StoresStayCanonical := by
  unfold Obligations.StoresStayCanonical
  intro s t hc h
  exact step_canonical hc h

/-- Settles O52: three of the fields of `Kept`. -/
theorem queueAndOutputsKept : Obligations.QueueAndOutputsKept := by
  unfold Obligations.QueueAndOutputsKept
  intro c s t h
  have hk := exec_keepsNext c s t h
  exact ⟨hk.pending, hk.out, hk.free⟩

end Sys2Proof
end

section
/-! Accepted writes of numbers of one and of four bytes. -/

namespace Sys2Proof.Machine

/-- An accepted write of one byte comes to the rule of its own that the object has. -/
theorem State.numCmd_byte {s t : State} {c : Ctx} {k v ty : Nat} {a : Obj.Acc} (hk : Obj.kind k = some (ty, a, false))
    (hv : v < 2 ^ 8) (hp : s.passes c k ty (le 1 v) = true) (hw : ∀ l, (s.touch c).writeRule c k (v : Nat) (le 1 v) l = (t, 0))
    (hty : ty = 1 ∨ ty = 2 := by decide) (ha : a = .rw ∨ a = .wo ∨ a = .rws := by decide) :
    s.numCmd c k v = t.written k (le 1 v) := by
  obtain rfl | rfl := hty
  · exact State.numCmd_written hk rfl (by decide) hv ha hp hw
  · exact State.numCmd_written hk rfl (by decide) hv ha hp hw

/-- An accepted write of four bytes comes to the rule of its own that the object has. -/
theorem State.numCmd_word {s t : State} {c : Ctx} {k v ty : Nat} {a : Obj.Acc} (hk : Obj.kind k = some (ty, a, false))
    (hv : v < 2 ^ 32) (hp : s.passes c k ty (le 4 v) = true) (hw : ∀ l, (s.touch c).writeRule c k (v : Nat) (le 4 v) l = (t, 0))
    (hty : ty = 4 ∨ ty = 10 := by decide) (ha : a = .rw ∨ a = .wo ∨ a = .rws := by decide) :
    s.numCmd c k v = t.written k (le 4 v) := by
  obtain rfl | rfl := hty
  · exact State.numCmd_written hk rfl (by decide) hv ha hp hw
  · exact State.numCmd_written hk rfl (by decide) hv ha hp hw

end Sys2Proof.Machine
end

section
/-! Host rings: doorbells, ring control, fetches and records (R36 to R42). -/

namespace Sys2Proof.Machine

/-- A host access arrives where the link is up and its block is clocked. -/
theorem State.onBar_of_ready {s : State} {d : Nat} (hup : s.hq.linkUp = true) (hready : s.ready d = true) (addr rd : Nat)
    (f : State → State) : s.onBar d addr rd f = f s := by
  simp only [State.onBar, hup, hready, Bool.not_true, Bool.false_eq_true, if_false, if_true]

theorem Ring.en_of_active {r : Ring} (h : r.active = true) : r.en = true := (Bool.and_eq_true_iff.mp h).1

/-- A doorbell of a descriptor ring whose pointer stays within the ring advances the producer pointer. -/
theorem State.doorbell_of_fits {s : State} {q d : Nat} (hact : (s.ring q).active = true) (hdesc : isRecordRing q = false)
    (hne : d ≠ (s.ring q).prod)
    (hfit : fwd32 (s.ring q).prod d ≤ fwd32 (s.ring q).prod (((s.ring q).cons + (s.ring q).size) % 2 ^ 32)) :
    s.doorbell q d = s.setRing q { s.ring q with prod := d } := by
  simp only [State.doorbell, hact, hdesc, hne, hfit, Bool.not_true, Bool.false_eq_true, if_false, if_true]

/-- One that passes the consumer pointer stops the ring with POINTER (R39). -/
theorem State.doorbell_of_overrun {s : State} {q d : Nat} (hact : (s.ring q).active = true) (hdesc : isRecordRing q = false)
    (hne : d ≠ (s.ring q).prod)
    (hover : fwd32 (s.ring q).prod (((s.ring q).cons + (s.ring q).size) % 2 ^ 32) < fwd32 (s.ring q).prod d) :
    s.doorbell q d = s.stopRing q 1 d := by
  simp only [State.doorbell, hact, hdesc, hne, hover.not_ge, Bool.not_true, Bool.false_eq_true, if_false]

theorem State.ringEnable_of_off {s : State} {q cfg : Nat} (hoff : (s.ring q).en = false) (hlo : 6 ≤ field cfg 0 5)
    (hhi : field cfg 0 5 ≤ 16) (hbase : (s.ring q).base % 4096 = 0) (hwb : (s.ring q).wb % 4 = 0) :
    s.ringEnable q cfg = (s.setRing q
      { ({ s.ring q with vec := field cfg 12 8, sizeLog2 := field cfg 0 5 } : Ring).restart with
        en := true, err := false, errCode := 0 }).psnWatch := by
  simp only [State.ringEnable, hoff, hlo, hhi, hbase, hwb, and_self, Bool.false_eq_true, if_false, if_true]

/-- A ring switched off forgets what it fetched and keeps the records not posted; the other rings are as they were. -/
theorem State.ring_ringDisable (s : State) (q cfg : Nat) :
    ((s.ringDisable q cfg).ring q).en = false ∧ ((s.ringDisable q cfg).ring q).head = none ∧
      ((s.ringDisable q cfg).ring q).held = (s.ring q).held ∧ ∀ p, p ≠ q → (s.ringDisable q cfg).ring p = s.ring p := by
  simp +contextual [State.ringDisable, State.ring_setRing]

theorem State.fetchDesc_of_good {s : State} {q : Nat} {d : Bytes} (hdesc : isRecordRing q = false) (hrun : s.ringRuns q = true)
    (hptr : (s.ring q).cons ≠ (s.ring q).prod) (hhead : (s.ring q).head = none)
    (hcrc : getN (slice d 0 64) 60 4 = crc32c ((slice d 0 64).take 60)) (hty : descTypeOk q (byteAt (slice d 0 64) 0) = true) :
    s.fetchDesc q (some d) = (s.setRing q { s.ring q with head := some (slice d 0 64) }).psnWatch := by
  simp only [State.fetchDesc, hdesc, hrun, hhead, hcrc, hty, beq_eq_false_iff_ne.mpr hptr, Bool.not_true, Bool.or_self,
    Option.isSome_none, Bool.false_eq_true, if_false, ne_eq, not_true]

theorem State.postRecord_of_room {s : State} {q : Nat} {b : Bytes} {l : List Bytes} (hrec : isRecordRing q = true)
    (hrun : s.ringRuns q = true) (hroom : (s.ring q).used < (s.ring q).size) (hheld : (s.ring q).held = b :: l) :
    s.postRecord q = (s.setRing q { s.ring q with held := l }).writeRecord q b := by
  simp only [State.postRecord, hrec, hrun, hheld, hroom.not_ge, decide_false, Bool.not_true, Bool.or_self, Bool.false_eq_true,
    if_false]

theorem State.irqTimer_of_due {s : State} {q : Nat} (hrec : isRecordRing q = true) (hrun : s.ringRuns q = true)
    (hcount : 0 < (s.ring q).modCount) (htime : 0 < (s.ring q).modTime) (hunsig : 0 < (s.ring q).unsig)
    (hdue : (s.ring q).unsigSince + 1000 * (s.ring q).modTime ≤ s.now) :
    s.irqTimer q = (s.setRing q { s.ring q with unsig := 0 }).msix (s.ring q).vec := by
  simp only [State.irqTimer, hrec, hrun, hcount, htime, hunsig, hdue, decide_true, Bool.and_self, if_true]

end Sys2Proof.Machine

namespace Sys2Proof

open Machine

/-- Settles O6: each command's guards are the hypotheses of its clause. -/
theorem hostRingsServe : Obligations.HostRingsServe := by
  unfold Obligations.HostRingsServe
  refine ⟨?_, ?_, ?_, ?_, ?_, ?_, ?_⟩
  · intro q d s hup hready hact hdesc hne hfit
    exact congrArg Host.Outcome.next ((State.onBar_of_ready hup hready ..).trans (State.doorbell_of_fits hact hdesc hne hfit))
  · intro q d s hup hready hact hdesc hne hover
    exact congrArg Host.Outcome.next ((State.onBar_of_ready hup hready ..).trans (State.doorbell_of_overrun hact hdesc hne hover))
  · intro q cfg s hup hready hoff hlo hhi hbase hwb
    exact congrArg Host.Outcome.next ((State.onBar_of_ready hup hready ..).trans (State.ringEnable_of_off hoff hlo hhi hbase hwb))
  · intro q cfg s hup hready
    exact ⟨_, congrArg Host.Outcome.next (State.onBar_of_ready hup hready ..), State.ring_ringDisable s q.val cfg.toNat⟩
  · intro q d s hdesc hrun hptr hhead hcrc hty
    exact congrArg Host.Outcome.next (State.fetchDesc_of_good hdesc hrun hptr hhead hcrc hty)
  · intro q b l s hrec hrun hroom hheld
    exact congrArg Host.Outcome.next (State.postRecord_of_room hrec hrun hroom hheld)
  · intro q s hrec hrun hcount htime hunsig hdue
    exact congrArg Host.Outcome.next (State.irqTimer_of_due hrec hrun hcount htime hunsig hdue)

end Sys2Proof
end

section
/-! Page jobs and bases up to acceptance (R47, R50, R51, R54, R55). -/

namespace Sys2Proof.Machine

/-! ### What a consumed descriptor leaves alone -/

@[simp] theorem State.eat_jobs (q : Nat) (d : Bytes) (s : State) : (State.eat q d s).hq.jobs = s.hq.jobs := (State.eat_frame q d s).1
@[simp] theorem State.eat_bases (q : Nat) (d : Bytes) (s : State) : (State.eat q d s).hq.bases = s.hq.bases :=
  (State.eat_frame q d s).2.2.2.1
@[simp] theorem State.eat_streams (q : Nat) (d : Bytes) (s : State) : (State.eat q d s).hq.streams = s.hq.streams :=
  (State.eat_frame q d s).2.2.1
@[simp] theorem State.eat_acceptQ (q : Nat) (d : Bytes) (s : State) : (State.eat q d s).hq.acceptQ = s.hq.acceptQ :=
  (State.eat_frame q d s).2.2.2.2.1

@[simp] theorem State.eat_job? (q : Nat) (d : Bytes) (s : State) (id : Nat) : (State.eat q d s).job? id = s.job? id := by
  simp only [State.job?, State.eat_jobs]

@[simp] theorem State.eat_base? (q : Nat) (d : Bytes) (s : State) (id : Nat) : (State.eat q d s).base? id = s.base? id := by
  simp only [State.base?, State.eat_bases]

/-! ### Page jobs -/

theorem State.consumeJob_of_head {s : State} {cls : Nat} {d : Bytes} (h : s.headOfType cls 1 = some d) :
    s.consumeJob cls = s.takeJob cls d (State.eat cls d) := by
  simp only [State.consumeJob, h]

theorem State.psnStale_of_jobReason {s : State} {d : Bytes} (h : s.jobReason d = none) : s.psnStale (getN d 8 4) = false := by
  cases hstale : s.psnStale (getN d 8 4)
  case false => rfl
  case true =>
    simp only [State.jobReason, hstale, if_true] at h
    split_ifs at h

/-- A stale job is rejected, with the streams of an ID that names no job (R50). -/
theorem State.takeJob_of_stale {s : State} {cls : Nat} {d : Bytes} (hstale : s.psnStale (getN d 8 4) = true)
    (hnew : s.job? (getN d 4 4) = none) :
    let s1 := (State.eat cls d s).dropStreams false (getN d 4 4)
    s.takeJob cls d (State.eat cls d) = s1.complete cls (s1.completion 1 0 3 ((s.jobReason d).getD 0x11) (getN d 4 4) []) := by
  simp only [State.takeJob, hstale, if_true, State.eat_job?, hnew, Option.isSome_none, Bool.false_eq_true, if_false]

/-- A job of the next PSN without a reason against it takes a slot and waits for its ACCEPT record (R47, R52). -/
theorem State.takeJob_of_next {s : State} {cls : Nat} {d : Bytes} (hpsn : getN d 8 4 = s.hq.psnNext) (hroom : s.hq.jobs.length < 128)
    (hreason : s.jobReason d = none) (hheld : s.heldFailure false (getN d 4 4) = none) (horder : s.orderOk false (getN d 4 4) = true)
    (hcounts : s.countsOk false (getN d 4 4) (descChunks d) = true) :
    let e := State.eat cls d s
    s.takeJob cls d (State.eat cls d) = ({ e with hq := { e.hq with
      psnNext := (s.hq.psnNext + 1) % 2 ^ 32, jobs := s.hq.jobs ++ [s.newJob cls d],
      acceptQ := s.hq.acceptQ ++ [⟨getN d 4 4, cls, false, none⟩] } } : State).psnWatch := by
  have hstale := hpsn ▸ State.psnStale_of_jobReason hreason
  simp only [State.heldFailure, State.orderOk, State.countsOk] at hheld horder hcounts
  simp only [State.takeJob, hstale, hpsn, hreason, hroom.not_ge, Bool.false_eq_true, if_false, ne_eq, not_true, or_self,
    State.heldFailure, State.orderOk, State.countsOk, State.eat_streams, hheld, horder, Bool.not_true, State.newJob, hcounts, if_true, State.eat_jobs,
    State.eat_acceptQ]

/-! ### Bases -/

theorem State.consumeBaseRegister_of_head {s : State} {cls : Nat} {d : Bytes} (h : s.headOfType cls 2 = some d) :
    s.consumeBaseRegister cls = s.takeBaseRegister cls d (State.eat cls d) := by
  simp only [State.consumeBaseRegister, h]

theorem State.consumeBaseRetire_of_head {s : State} {cls : Nat} {d : Bytes} (h : s.headOfType cls 3 = some d) :
    s.consumeBaseRetire cls = s.takeBaseRetire cls d (State.eat cls d) := by
  simp only [State.consumeBaseRetire, h]

end Sys2Proof.Machine

namespace Sys2Proof

open Machine

/-- Settles O7: each command's guards are the hypotheses of its clause. -/
theorem pageJobsLand : Obligations.PageJobsLand := by
  unfold Obligations.PageJobsLand
  refine ⟨?_, ?_, ?_, ?_, ?_⟩
  · intro cls d s hhead hstale hnew
    exact congrArg Host.Outcome.next ((State.consumeJob_of_head hhead).trans (State.takeJob_of_stale hstale hnew))
  · intro cls d s hhead hpsn hroom hreason hheld horder hcounts
    exact congrArg Host.Outcome.next ((State.consumeJob_of_head hhead).trans (State.takeJob_of_next hpsn hroom hreason hheld horder hcounts))
  · intro t s hwait hblocked hraised hdue
    refine congrArg Host.Outcome.next ?_
    simp only [State.psnWaitEvent, hwait, hblocked, hraised, hdue, Bool.not_false, decide_true, Bool.and_self, if_true]
  · intro cls d s hhead h1 h8 h21 h48 hlines hchunks hid hnew hroom hheld horder hcounts
    refine congrArg Host.Outcome.next ((State.consumeBaseRegister_of_head hhead).trans ?_)
    simp only [State.heldFailure, State.orderOk, State.countsOk] at hheld horder hcounts
    simp only [State.takeBaseRegister, h1, h8, h21, h48, hlines, hchunks, beq_eq_false_iff_ne.mpr hid, hnew, hroom.not_ge,
      State.heldFailure, State.orderOk, State.countsOk, State.eat_streams, hheld, horder, hcounts, State.eat_bases, BEq.rfl, decide_true,
      decide_false, Option.isSome_none, Bool.and_self, Bool.or_self, Bool.not_true, Bool.false_eq_true, if_false, if_true]
  · intro cls d x s hhead h1 h8 hbase hst
    refine congrArg Host.Outcome.next ((State.consumeBaseRetire_of_head hhead).trans ?_)
    simp only [State.takeBaseRetire, h1, h8, State.eat_base?, hbase, Option.any_some, hst, BEq.rfl, Bool.and_self, Bool.not_true,
      Bool.false_eq_true, if_false, if_true]

end Sys2Proof
end

section
/-! Page jobs from acceptance to retirement and abort (R15, R48, R49, R52, R56). -/

namespace Sys2Proof.Machine

/-- A landed job accepted in its turn is journaled, marked where its rate is not guaranteed (R48), and answered. -/
theorem State.acceptJob_of_landed {s : State} {id : Nat} {j : Job} (hjob : s.job? id = some j) (hst : j.st = .landing)
    (hland : s.allLanded false id j.chunks = true)
    (hbase : j.baseId = 0 ∨ (s.base? j.baseId).any (fun x => x.st != .landing) = true) (hturn : s.firstUndecided id = true)
    (hdram : s.dramReady = true) (hlow : s.jnlHigh = false) :
    let body := s.acceptBody false id j.psn j.baseId j.tag j.lines j.mask j.cls j.mark j.gap j.chunks
    s.jnlFits body.length 720 = true →
    let marks := if s.unguaranteed j then markRate else 0
    let s1 := (s.journal 2 body).mapJob id (fun j => { j with st := .accepted, marks := j.marks ||| marks })
    s.acceptJob id = s1.decideAccept id (some (s1.completion 1 marks 0 0 id [j.slot])) := by
  intro body hfits
  have hbaseOk : (j.baseId == 0 || (s.base? j.baseId).any (fun x => x.st != .landing)) = true := by
    simpa only [Bool.or_eq_true, beq_iff_eq] using hbase
  simp only [State.acceptJob, hjob, hst, hland, hbaseOk, hturn, hdram, hlow, body, hfits, ne_eq, not_true, Bool.not_true,
    Bool.false_eq_true, or_self, if_false]

theorem State.registerBase_of_landed {s : State} {id : Nat} {x : Base} (hbase : s.base? id = some x) (hst : x.st = .landing)
    (hland : s.allLanded true id x.chunks = true) (hdram : s.dramReady = true) :
    let body := s.acceptBody true id 0 0 x.tag x.lines x.mask x.cls false 0 x.chunks
    s.jnlFits body.length 0 = true →
    s.registerBase id = ((s.journal 3 body).mapBase id (fun x => { x with st := .registered })).baseDone x.cls 0 0 id := by
  intro body hfits
  simp only [State.registerBase, hbase, hst, hland, hdram, body, hfits, ne_eq, not_true, Bool.not_true, Bool.false_eq_true, or_self,
    if_false]

theorem State.freeBase_of_uncited {s : State} {id : Nat} {x : Base} (hbase : s.base? id = some x) (hst : x.st = .retiring)
    (hfree : s.hq.jobs.any (fun j => j.baseId == id) = false) :
    let body := s.acceptBody true id 0 0 x.tag x.lines x.mask x.cls false 0 x.chunks
    let s1 := (s.journal 3 body).dropStreams true id
    let s2 := { s1 with hq := { s1.hq with bases := s1.hq.bases.filter (fun y => y.id ≠ id) } }
    s.freeBase id = s2.complete x.retCls (s2.completion 6 0 0 0 id []) := by
  simp only [State.freeBase, hbase, hst, hfree, ne_eq, not_true, Bool.false_eq_true, or_self, if_false]

/-! ### Staging -/

theorem State.readyReturn_of_active {s : State} (h : s.obj Obj.PWR_STATE ≠ 1) : s.readyReturn = s := if_neg h

/-- An accepted job whose turn has come on a bar is STAGED there (R49); on bar 0 without a mark its start is fixed (R142). -/
theorem State.stageJob_of_turn {s : State} {b id : Nat} {j : Job} (hjob : s.job? id = some j) (hst : j.st = .accepted)
    (hearlier : (s.hq.jobs.takeWhile (fun k => k.id ≠ id)).all
      (fun k => (k.bar b).firing || (k.bar b).done || k.st == .aborted) = true)
    (hfree : s.hq.jobs.any (fun k => (k.bar b).staged) = false) (hstaged : (j.bar b).staged = false)
    (hfiring : (j.bar b).firing = false) (hdone : (j.bar b).done = false) (hstep : s.time.stepHeads = []) :
    let t := (s.mapJob id (fun j => j.setBar b (fun x => { x with staged := true }))).readyReturn
    s.stageJob b id = if b = 0 ∧ !t.markMode j then t.placeJob id else t := by
  simp only [State.stageJob, hjob, hst, hearlier, hfree, hstaged, hfiring, hdone, hstep, List.all_nil, true_or, Bool.not_false,
    and_self, if_true]

/-! ### Boundaries, retirement and abort -/

theorem State.lineBoundary_of_fired {s : State} {b u : Nat} {d : Departed} {l : List Departed} (hdep : s.departed b = d :: l)
    (hghost : s.hq.jobs.find? (fun j => j.st == .aborted && j.onWeb && decide ((j.bar b).passed < j.lines)) = none)
    (htime : d.barTime = some u) (hdue : u ≤ s.now) :
    s.lineBoundary b = ((((s.keepRows d).setDeparted b l).passLine d.job b d.line true)).sf4End := by
  simp only [State.lineBoundary, hdep, hghost, htime, hdue.not_gt, if_false]

theorem State.retireJob_of_ended {s : State} {j : Job} (hhead : s.hq.jobs.head? = some j) (hend : j.ended = true)
    (hroom : s.complRoom j.cls = true) :
    let r := s.completion 3 j.marks j.retireStatus 0 j.id (j.bars.map (fun x => min x.late 0xFFFF))
    let s1 := s.journal 6 r
    let s2 := { s1 with hq := { s1.hq with jobs := s1.hq.jobs.filter (fun k => k.id ≠ j.id) } }
    s.retireJob j.id = (((s2.dropStreams false j.id).forgetPage j.id).complete j.cls r).psnWatch := by
  simp only [State.retireJob, hhead, hend, hroom, ne_eq, not_true, Bool.not_true, Bool.false_eq_true, or_self, if_false]

/-- An abort that the job's state refuses is answered with STATUS 2 on the ring of its class (R56). -/
theorem State.hqAbort_of_fired {s : State} {id : Nat} {j : Job} (hjob : s.job? id = some j) (hst : j.st = .fired) :
    s.hqAbort id = s.complete j.cls (s.completion 5 0 2 0 id []) := by
  have habort : s.abortJob id = (s, 0x0B) := by simp only [State.abortJob, hjob, hst, true_or, if_true]
  simp only [State.hqAbort, habort, hjob, OfNat.ofNat_ne_zero, if_false, if_true]

theorem State.hqAbort_of_done {s : State} {id : Nat} (h : (s.abortJob id).2 = 0) :
    s.hqAbort id = (s.abortJob id).1.forward (.objWrite Obj.JOB_ABORT (le 4 id)) := if_pos h

theorem State.depart_of_due {s : State} {b : Nat} {j : Job} {st : Int} (hauth : s.hasAuthority = true) (htrack : s.ffy.track = true)
    (hrun : s.ffy.suspended = false) (hbar : s.ready (4 + b / 2) = true) (hweb : s.ready 11 = true)
    (hjob : s.departJob b = some j) (hstart : j.startOn b = some st)
    (hdue : s.departDue (s.snapOf j b) st (j.bar b).departed = true) :
    s.depart b = s.departLine b j (j.bar b).departed true := by
  simp only [State.depart, hauth, htrack, hrun, hbar, hweb, hjob, hstart, hdue, Bool.not_true, Bool.or_self, Bool.false_eq_true,
    if_false, if_true]

end Sys2Proof.Machine

namespace Sys2Proof

open Machine

/-- Settles O8: each command's guards are the hypotheses of its clause. -/
theorem pageJobsRun : Obligations.PageJobsRun := by
  unfold Obligations.PageJobsRun
  refine ⟨?_, ?_, ?_, ?_, ?_, ?_, ?_, ?_, ?_, ?_⟩
  · intro id j s hjob hst hland hbase hturn hdram hlow body hfits
    exact congrArg Host.Outcome.next (State.acceptJob_of_landed hjob hst hland hbase hturn hdram hlow hfits)
  · intro id x s hbase hst hland hdram body hfits
    exact congrArg Host.Outcome.next (State.registerBase_of_landed hbase hst hland hdram hfits)
  · intro id x s hbase hst hfree
    exact congrArg Host.Outcome.next (State.freeBase_of_uncited hbase hst hfree)
  · intro b id j s hb hjob hst hearlier hfree hstaged hfiring hdone hstep
    refine congrArg Host.Outcome.next ((State.stageJob_of_turn hjob hst hearlier hfree hstaged hfiring hdone hstep).trans ?_)
    exact if_neg fun h => hb h.1
  · intro id j s hjob hst hmode hearlier hfree hstaged hfiring hdone hstep hpwr
    refine congrArg Host.Outcome.next ((State.stageJob_of_turn hjob hst hearlier hfree hstaged hfiring hdone hstep).trans ?_)
    rw [State.readyReturn_of_active (s := s.mapJob id _) hpwr]
    exact if_pos ⟨rfl, congrArg Bool.not hmode⟩
  · intro b d l u s hdep hghost htime hdue
    exact congrArg Host.Outcome.next (State.lineBoundary_of_fired hdep hghost htime hdue)
  · intro j s hhead hend hroom
    exact congrArg Host.Outcome.next (State.retireJob_of_ended hhead hend hroom)
  · intro id j s hup hready hjob hst
    exact congrArg Host.Outcome.next ((State.onBar_of_ready hup hready ..).trans (State.hqAbort_of_fired hjob hst))
  · intro id s hup hready habort
    exact congrArg Host.Outcome.next ((State.onBar_of_ready hup hready ..).trans (State.hqAbort_of_done habort))
  · intro b j st s hauth htrack hrun hbar hweb hjob hstart hdue
    exact congrArg Host.Outcome.next (State.depart_of_due hauth htrack hrun hbar hweb hjob hstart hdue)

end Sys2Proof
end

section
/-! Chunks of the image rings (R51, R76, R77, R506). -/

namespace Sys2Proof.Machine

/-- A chunk of the next index whose owner accepts it joins the stream of its ID on its bar. -/
theorem State.consumeChunk_of_good {s : State} {b : Nat} {d bytes : Bytes} (hhead : s.headOfType (8 + b) 8 = some d)
    (hdram : s.dramReady = true) (hflags : byteAt d 1 < 4) (hzero : allZero (slice d 20 40) = true) (hlo : 1 ≤ getN d 16 4)
    (hhi : getN d 16 4 ≤ 65536) (hidx : getN d 2 2 ≤ 65534)
    (hroom : s.poolFill + getN d 16 4 ≤ s.objN Obj.DRAM_POOL_GIB * 2 ^ 30) :
    let isBase := bitAt (byteAt d 1) 1
    let s1 := (s.consume (8 + b)).forward (.descriptor (8 + b) (s.ring (8 + b)).cons d)
    let c : Chunk := { idx := getN d 2 2, last := bitAt (byteAt d 1) 0, bytes := slice bytes 0 (getN d 16 4), since := s1.now }
    (s.chunkOwner isBase (getN d 4 4) b = .nothing ∨
      ∃ m, s.chunkOwner isBase (getN d 4 4) b = .landing m ∧ c.countOk m = true) →
    getN d 2 2 = ((s1.stream? isBase (getN d 4 4) b).map Stream.next).getD 0 →
    s.consumeChunk b (some bytes) = s1.mapStream isBase (getN d 4 4) b (fun x => { x with chunks := x.chunks ++ [c] }) := by
  intro isBase s1 c howner hnext
  have hpool : ¬ ((!s.dramReady) = true ∨ s.objN Obj.DRAM_POOL_GIB * 2 ^ 30 < s.poolFill + getN d 16 4 ∧ getN d 16 4 ≤ 65536) := by
    simp only [hdram, Bool.not_true, Bool.false_eq_true, false_or, not_and]
    omega
  unfold State.consumeChunk
  simp only [hhead]
  rw [if_neg hpool]
  have hok : (decide (byteAt d 1 < 4) && allZero (slice d 20 40) && decide (1 ≤ getN d 16 4) && decide (getN d 16 4 ≤ 65536) &&
      decide (getN d 2 2 ≤ 65534)) = true := by
    simp only [hflags, hzero, hlo, hhi, hidx, decide_true, Bool.and_self]
  simp only [hok, Bool.not_true, Bool.false_eq_true, if_false]
  have hindex : getN d 2 2 = match s1.stream? isBase (getN d 4 4) b with | some x => x.next | none => 0 := by
    rw [hnext]
    cases s1.stream? isBase (getN d 4 4) b <;> rfl
  obtain hnothing | ⟨m, hlanding, hcount⟩ := howner
  · simp only [isBase] at hnothing
    simp only [hnothing]
    exact if_neg (not_not.mpr hindex)
  · simp only [isBase] at hlanding
    simp only [hlanding]
    refine (if_neg (not_not.mpr hindex)).trans (if_neg ?_)
    simpa only [Bool.not_eq_true', Bool.not_eq_false] using hcount

theorem State.chunkLand_of_found {s : State} {b id : Nat} {isBase : Bool} {x : Stream} {c : Chunk}
    (hstream : s.stream? isBase id b = some x) (hchunk : x.chunks.find? (fun c => c.digest.isNone) = some c) :
    s.chunkLand b isBase id =
      (s.mapStream isBase id b Stream.digestNext).forward (.chunk b isBase id c.idx c.last c.bytes) := by
  simp only [State.chunkLand, hstream, hchunk]

/-- A stream that nothing claims, all of whose chunks are stale, goes as a whole and is reported (R51). -/
theorem State.chunkExpire_of_all_stale {s : State} {b id : Nat} {isBase : Bool} {x : Stream}
    (hstream : s.stream? isBase id b = some x) (howner : s.chunkOwner isBase id b = .nothing)
    (hstale : 0 < (x.chunks.filter (Chunk.stale s.now)).length) (hrest : x.chunks.filter (fun c => !c.stale s.now) = [])
    (hold : x.since + 10000000000 ≤ s.now) :
    s.chunkExpire b isBase id =
      ({ s with hq := { s.hq with
        streams := s.hq.streams.filter (fun y => !(y.isBase == isBase && y.id == id && y.bar == b)) } } : State).orphanEvent
        24 id b (x.chunks.filter (Chunk.stale s.now)).length := by
  simp only [State.chunkExpire, hstream, howner, hrest, hold, hstale.ne', List.isEmpty_nil, decide_true, Bool.and_self, if_true,
    if_false]

end Sys2Proof.Machine

namespace Sys2Proof

open Machine

/-- Settles O9: each command's guards are the hypotheses of its clause. -/
theorem chunksLand : Obligations.ChunksLand := by
  unfold Obligations.ChunksLand
  refine ⟨?_, ?_, ?_⟩
  · intro b d bytes s hhead hdram hflags hzero hlo hhi hidx hroom isBase s1 c howner hnext
    exact congrArg Host.Outcome.next (State.consumeChunk_of_good hhead hdram hflags hzero hlo hhi hidx hroom howner hnext)
  · intro b isBase id x c s hstream hchunk
    exact congrArg Host.Outcome.next (State.chunkLand_of_found hstream hchunk)
  · intro b isBase id x s hstream howner hstale hrest hold
    exact congrArg Host.Outcome.next (State.chunkExpire_of_all_stale hstream howner hstale hrest hold)

end Sys2Proof
end

section
/-! Accesses through the BAR windows and the PCI Express link (R34, R35, R58). -/

namespace Sys2Proof.Machine

/-- An aligned 4-byte write of a register of ring q's control block. -/
theorem State.hostWrite_rcb (s : State) {q off v : Nat} (hq : q < 64) (hoff : off < 0x1000) (halign : off % 4 = 0) (hv : v < 2 ^ 32) :
    s.hostWrite (0x1000 * q + off) 4 v = s.writeRcb q off v := by
  have hok : bar0Ok (0x1000 * q + off) 4 = true := by
    simp only [bar0Ok, BEq.rfl, Bool.true_or, Bool.true_and, beq_iff_eq]
    omega
  have hne : 0x1000 * q + off ≠ 0x200000 := by omega
  have hlt : 0x1000 * q + off < 0x40000 := by omega
  have hdiv : (0x1000 * q + off) / 0x1000 = q := by omega
  have hmod : (0x1000 * q + off) % 0x1000 = off := by omega
  simp only [State.hostWrite, hok, Bool.not_true, Bool.false_eq_true, if_false, if_true, State.writeBar0, hne, State.writeBar0w, hlt,
    hdiv, hmod, Nat.mod_eq_of_lt hv]

theorem isCounter_ringDrop {q : Nat} (hq : q < 64) : isCounter (.bar0 (0x1000 * q + 0x24) 4 0) = true := by
  have hlt : 0x1000 * q + 0x24 < 0x40000 := by omega
  have hmod : (0x1000 * q + 0x24) % 0x1000 = 0x24 := by omega
  simp only [isCounter, hlt, hmod, decide_true, BEq.rfl, Bool.and_self, Bool.true_or]

theorem State.writeRcb_irq (s : State) (q v : Nat) :
    s.writeRcb q 0x20 v = s.setRing q { s.ring q with modTime := field v 16 16, modCount := field v 0 16 } := by
  simp [State.writeRcb]

theorem State.writeRcb_drop_zero (s : State) (q : Nat) :
    s.writeRcb q 0x24 0 = s.setRing q { s.ring q with drop := 0, dropOvf := false } := by
  simp [State.writeRcb]

theorem State.targetWrite_rcb {s : State} (hup : s.hq.linkUp = true) (hready : s.ready 3 = true) {q off v : Nat} (hq : q < 64)
    (hoff : off < 0x1000) (halign : off % 4 = 0) (hv : v < 2 ^ 32) :
    s.targetWrite (.bar0 (0x1000 * q + off) 4 v) = s.writeRcb q off v := by
  simp only [State.targetWrite, State.onBar_of_ready hup hready, s.hostWrite_rcb hq hoff halign hv]

end Sys2Proof.Machine

namespace Sys2Proof

open Machine

/-- Settles O10: a window that is up and clocked passes the access to the register it names. -/
theorem hostRegistersServe : Obligations.HostRegistersServe := by
  unfold Obligations.HostRegistersServe
  refine ⟨?_, ?_, ?_, ?_, ?_, ?_, ?_, ?_⟩
  · intro s
    rfl
  · intro isRead off size s hup hready hbad
    refine congrArg Host.Outcome.next ((State.onBar_of_ready hup hready ..).trans ?_)
    simp only [State.bar0Bad, hbad, Bool.false_eq_true, if_false]
  · intro off len s hup hready
    exact congrArg Host.Outcome.next (State.onBar_of_ready hup hready ..)
  · intro off len s hup hready
    exact congrArg Host.Outcome.next (State.onBar_of_ready hup hready ..)
  · intro q v s hup hready hv
    exact congrArg Host.Outcome.next ((State.targetWrite_rcb hup hready q.isLt (by decide) (by decide) hv).trans (s.writeRcb_irq q.val v))
  · intro c idx sub ty d s
    rfl
  · intro q s hup hready
    refine congrArg Host.Outcome.next ((if_pos (isCounter_ringDrop q.isLt)).trans ?_)
    exact (State.targetWrite_rcb hup hready q.isLt (by decide) (by decide) (by decide)).trans (s.writeRcb_drop_zero q.val)
  · intro s hup
    refine congrArg Host.Outcome.next ?_
    simp only [State.linkDown, hup, Bool.not_true, Bool.false_eq_true, if_false]

end Sys2Proof
end

section
/-! The web channels: counting, standstill, enabling and the comparison of the two (R96 to R112). -/

namespace Sys2Proof.Machine

/-! ### New levels of a counting channel -/

/-- One line of a channel that counts changes: one edge, forward where A leads B. -/
theorem State.levels_of_a {s : State} {i : ChanId} {a b : Bool} {count : State → Bool → Nat → State} (hready : s.ready 11 = true)
    (ha : a ≠ (s.chan i).a) (hb : b = (s.chan i).b) :
    s.levels i true a b count =
      count (s.setChan i { s.chan i with a := a, b := b }) (b == (s.chan i).a) (s.now - 2 - (s.chanKeys i).filter) := by
  simp only [State.levels, State.setChan_ready, State.setChan_now, hready, ha, hb, ne_eq, not_true, and_false, not_false_eq_true,
    Bool.not_true, Bool.or_self, Bool.false_eq_true, if_false, if_true]

theorem State.levels_of_b {s : State} {i : ChanId} {a b : Bool} {count : State → Bool → Nat → State} (hready : s.ready 11 = true)
    (ha : a = (s.chan i).a) (hb : b ≠ (s.chan i).b) :
    s.levels i true a b count =
      count (s.setChan i { s.chan i with a := a, b := b }) (b == a) (s.now - 2 - (s.chanKeys i).filter) := by
  simp only [State.levels, State.setChan_ready, State.setChan_now, hready, ha, hb, ne_eq, not_true, false_and, not_false_eq_true,
    Bool.not_true, Bool.or_self, Bool.false_eq_true, if_false, if_true]

/-- Both lines change on the fall-back path (R98). -/
theorem State.levels_of_both {s : State} {i : ChanId} {a b : Bool} {count : State → Bool → Nat → State} (hready : s.ready 11 = true)
    (ha : a ≠ (s.chan i).a) (hb : b ≠ (s.chan i).b) (hfall : (s.chanKeys i).fallback = true) :
    s.levels i true a b count = (s.setChan i { s.chan i with a := a, b := b }).encIllegal (s.chanKeys i) := by
  simp only [State.levels, State.setChan_ready, State.setChan_now, hready, ha, hb, hfall, ne_eq, not_false_eq_true, and_self,
    Bool.not_true, Bool.or_self, Bool.false_eq_true, if_false, if_true]

theorem State.encLevels_of_enabled {s : State} {w : Nat} (hen : s.obj (Obj.ENC_ENABLE w) = 1) (a b : Bool) :
    s.encLevels w a b = s.levels (.web w) true a b (fun s f t => s.webCount w f t) := by
  simp only [State.encLevels, hen, BEq.rfl]

theorem State.webKeys_fallback {s : State} {w : Nat} (h : s.obj (Obj.ENC_PATH w) = 1) : (s.webKeys w).fallback = true :=
  beq_iff_eq.mpr h

/-! ### Index and standstill -/

/-- The first index pulse met forward sets the revolution counter to ENC_INDEX_POS (R103). -/
theorem State.encIndex_of_first {s : State} {w : Nat} (hen : s.obj (Obj.ENC_ENABLE w) = 1) (hready : s.ready 11 = true)
    (hdir : bitAt (s.objN (Obj.ENC_STATUS w)) bDir = true) (hfirst : bitAt (s.objN (Obj.ENC_STATUS w)) bIndexSeen = false)
    (hrev : s.obj (Obj.ENC_REV_COUNTS w) ≠ 0) :
    s.encIndex w = (s.setChan (.web w) { s.chan (.web w) with rev := s.objN (Obj.ENC_INDEX_POS w) }).setStatus
      (s.webKeys w) (putBit (s.objN (Obj.ENC_STATUS w)) bIndexSeen true) := by
  have hstatus : (s.webKeys w).status = Obj.ENC_STATUS w := rfl
  simp only [State.encIndex, hstatus, hen, hready, hdir, hfirst, hrev, ne_eq, not_true, Bool.not_true, Bool.not_false,
    Bool.false_eq_true, or_self, if_false, if_true]

theorem State.encStandstill_of_due {s : State} {w : Nat} (hen : s.obj (Obj.ENC_ENABLE w) = 1) (hready : s.ready 11 = true)
    (hmoves : bitAt (s.objN (Obj.ENC_STATUS w)) bStandstill = false)
    (hdue : (s.chan (.web w)).lastNs + s.objN (Obj.ENC_STANDSTILL_MS w) * msNs ≤ s.now) :
    let s1 := (s.setObj (Obj.ENC_SPEED w) 0).setStatus (s.webKeys w) (putBit (s.objN (Obj.ENC_STATUS w)) bStandstill true)
    s.encStandstill w = if s1.web.driver = w then ((s1.latchPending none).enterHold false).forwardPredictor else s1 := by
  have hkeys : (s.webKeys w).status = Obj.ENC_STATUS w ∧ (s.webKeys w).speed = Obj.ENC_SPEED w := ⟨rfl, rfl⟩
  simp only [State.encStandstill, hkeys, hen, hready, hmoves, hdue.not_gt, ne_eq, not_true, Bool.not_true, Bool.false_eq_true, or_self,
    if_false]

/-! ### Enabling and selecting -/

theorem State.encEnable_on {u : State} {w : Nat} (hoff : u.obj (Obj.ENC_ENABLE w) ≠ 1) :
    let u1 := (u.setObj (Obj.ENC_ENABLE w) 1).resetChan (.web w)
    u.encEnable w 1 = ((if u1.web.driver = w then ({ u1 with ffy := { u1.ffy with hwm := u1.web.pos } } : State).enterHold false
      else u1).startSpan, 0) := by
  simp only [State.encEnable, beq_eq_false_iff_ne.mpr hoff, Bool.false_eq_true, if_false, if_true]

theorem State.encEnable_off {u : State} {w : Nat} (hon : u.obj (Obj.ENC_ENABLE w) = 1) (hidle : u.web.driver ≠ w) :
    u.encEnable w 0 = (if u.objN Obj.WEB_SEL = w then (u.setObj (Obj.ENC_ENABLE w) 0).setObj Obj.WEB_SEL u.web.driver
      else u.setObj (Obj.ENC_ENABLE w) 0, 0) := by
  have hsel : (u.setObj (Obj.ENC_ENABLE w) 0).objN Obj.WEB_SEL = u.objN Obj.WEB_SEL := by
    refine congrArg Int.toNat (State.obj_setObj_of_ne _ _ _ _ ?_)
    simp only [Obj.WEB_SEL, Obj.ENC_ENABLE]
    omega
  simp only [State.encEnable, hon, hidle, hsel, State.setObj_web, BEq.rfl, Bool.not_true, Bool.false_eq_true, zero_ne_one, if_false]

theorem State.selectWeb_of_enabled {u : State} {v : Nat} (h : u.obj (Obj.ENC_ENABLE v) = 1) :
    u.selectWeb v = (u.setObj Obj.WEB_SEL v, 0) := if_neg (not_not.mpr h)

/-! ### The comparison -/

/-- The span has ended on two enabled channels: the verdict, and the next span. -/
theorem State.spanEnd_of_due {s : State} (h0 : s.obj (Obj.ENC_ENABLE 0) = 1) (h1 : s.obj (Obj.ENC_ENABLE 1) = 1)
    (hready : s.ready 11 = true) (hspan : s.web.spanStart + s.obj Obj.WEB_CMP_SPAN ≤ s.web.pos) :
    let d0 := (s.chan (.web 0)).pos - s.web.span0
    let d1 := (s.chan (.web 1)).pos - s.web.span1
    (((d0 - d1).natAbs : Int) ≤ s.obj Obj.WEB_CMP_WINDOW → s.spanEnd = (s.setBit Obj.WEB_DISAGREE 0 false).startSpan) ∧
    (s.obj Obj.WEB_CMP_WINDOW < ((d0 - d1).natAbs : Int) → s.objBit Obj.WEB_DISAGREE 0 = false →
      let s1 := (s.setBit Obj.WEB_DISAGREE 0 true).count Obj.WEB_DISAGREE_CNT 1
      s.spanEnd = (s1.event 24 0x0502 [(12, 1, s1.objN Obj.WEB_SEL), (16, 4, bitsOf 32 d0), (20, 4, bitsOf 32 d1)]).startSpan) := by
  refine ⟨fun hnear => ?_, fun hfar hagreed => ?_⟩
  · simp only [State.spanEnd, h0, h1, hready, hspan.not_gt, hnear.not_gt, decide_false, ne_eq, not_true, Bool.not_true,
      Bool.false_eq_true, or_self, false_and, if_false]
  · simp only [State.spanEnd, h0, h1, hready, hspan.not_gt, hfar, hagreed, decide_true, ne_eq, not_true, Bool.not_true,
      Bool.false_eq_true, or_self, Bool.not_false, and_self, if_false, if_true]

end Sys2Proof.Machine

namespace Sys2Proof

open Machine

/-- Settles O11: each command's guards are the hypotheses of its clause. -/
theorem webEncodersCount : Obligations.WebEncodersCount := by
  unfold Obligations.WebEncodersCount
  refine ⟨?_, ?_, ?_, ?_, ?_, ?_, ?_, ?_⟩
  · intro w a b s hen hready
    refine ⟨fun h => ?_, fun h => ?_⟩
    · exact congrArg Host.Outcome.next ((State.encLevels_of_enabled hen a b).trans (State.levels_of_a hready h.1 h.2))
    · exact congrArg Host.Outcome.next ((State.encLevels_of_enabled hen a b).trans (State.levels_of_b hready h.1 h.2))
  · intro w a b s hen hready hpath ha hb
    have hfall := State.webKeys_fallback hpath
    refine congrArg Host.Outcome.next ((if_pos ⟨hfall, ha, hb⟩).trans ?_)
    exact (State.encLevels_of_enabled hen a b).trans (State.levels_of_both hready ha hb hfall)
  · intro w s hen hready hdir hfirst hrev
    exact congrArg Host.Outcome.next (State.encIndex_of_first hen hready hdir hfirst hrev)
  · intro w s hen hready hmoves hdue
    exact congrArg Host.Outcome.next (State.encStandstill_of_due hen hready hmoves hdue)
  · intro c w v s hp
    have hrule : ∀ l, (s.touch c).writeRule c (Obj.ENC_ENABLE w.val) (v.toNat : Nat) (le 1 v.toNat) l =
        (s.touch c).encEnable w.val v.toNat := fun l => State.writeRule_ENC_ENABLE _ c w.val w.isLt _ _ l
    refine ⟨fun hv hoff => ?_, fun hv hon hidle => ?_⟩
    · refine congrArg Host.Outcome.next (State.numCmd_byte (Obj.kind_ENC_ENABLE w.isLt) v.isLt hp fun l => (hrule l).trans ?_)
      rw [hv]
      exact State.encEnable_on hoff
    · refine congrArg Host.Outcome.next (State.numCmd_byte (Obj.kind_ENC_ENABLE w.isLt) v.isLt hp fun l => (hrule l).trans ?_)
      rw [hv]
      exact State.encEnable_off hon hidle
  · intro c v s hp hen
    refine congrArg Host.Outcome.next (State.numCmd_byte Obj.kind_WEB_SEL v.isLt hp fun l => ?_)
    exact (State.writeRule_WEB_SEL ..).trans (State.selectWeb_of_enabled hen)
  · intro s h0 h1 hready hspan d0 d1 hnear
    exact congrArg Host.Outcome.next ((State.spanEnd_of_due h0 h1 hready hspan).1 hnear)
  · intro s h0 h1 hready hspan d0 d1 hfar hagreed
    exact congrArg Host.Outcome.next ((State.spanEnd_of_due h0 h1 hready hspan).2 hfar hagreed)

end Sys2Proof
end

section
/-! Top-of-form marks, compare outputs and axis encoders (R114 to R125). -/

namespace Sys2Proof.Machine

/-! ### Marks -/

theorem State.tofMark_of_backward {s : State} {t : Nat} {rising : Bool} (hready : s.ready 11 = true)
    (hedge : s.objN (Obj.TOF_EDGE t) = if rising then 1 else 2) (hback : s.webForward = false) :
    s.tofMark t rising = s.count (Obj.TOF_REJECT_CNT t) 1 := by
  simp only [State.tofMark, hready, hedge, hback, Bool.not_true, Bool.not_false, Bool.false_eq_true, ne_eq, not_true, or_self,
    if_false, if_true]

/-- A mark older than every edge kept is latched at the web position (R114). -/
theorem State.tofMark_of_no_edge {s : State} {t : Nat} {rising : Bool} (hready : s.ready 11 = true)
    (hedge : s.objN (Obj.TOF_EDGE t) = if rising then 1 else 2) (hfwd : s.webForward = true)
    (hnone : s.web.recent.find? (fun e => decide (e.2 ≤ s.now - 2 - s.objN (Obj.TOF_FILTER t))) = none) :
    s.tofMark t rising = s.latchMark t (s.web.pos * 2 ^ 32) (s.now - 2 - s.objN (Obj.TOF_FILTER t)) := by
  simp only [State.tofMark, hready, hedge, hfwd, hnone, Bool.not_true, Bool.false_eq_true, ne_eq, not_true, or_self, if_false]

/-- An expected mark that the web has passed with its tolerance is reported, counted and used (R115). -/
theorem State.tofMissing_of_passed {s : State} {t : Nat} {r : Int} (hready : s.ready 11 = true) (href : (s.tof t).ref = some r)
    (hpitch : s.obj (Obj.TOF_PITCH t) ≠ 0) :
    let m := r + s.obj (Obj.TOF_PITCH t) * 2 ^ 32
    m + s.obj (Obj.TOF_TOL t) * 2 ^ 32 < s.webQ →
    s.tofMissing t = (((s.event 24 0x0506 [(12, 1, t), (16, 8, bitsOf 64 (m / 2 ^ 32))]).count (Obj.TOF_MISSING_CNT t) 1).setTof t
      { s.tof t with ref := some m }).useMark t m := by
  intro m hpassed
  simp only [State.tofMissing, href, hpitch, hready, m, hpassed.not_ge, Bool.not_true, Bool.false_eq_true, or_self, if_false]

/-! ### Compare outputs -/

theorem State.cmp_setObj (u : State) (k j : Nat) (v : Int) : (u.setObj k v).cmp j = u.cmp j := rfl

theorem State.cmpArm_zero (u : State) (k : Nat) :
    u.cmpArm k 0 = (u.setObj (Obj.CMP_ARM k) 0).setCmp k { u.cmp k with armed := false, waitMark := false, due := none } := rfl

theorem State.cmpArm_one (u : State) (k : Nat) :
    let w := (u.setObj (Obj.CMP_ARM k) 1).takeList k
    u.cmpArm k 1 = w.setCmp k { u.cmp k with
      armed := true, waitMark := false, entry := 0, due := none, last := nearest64 (w.cmpSource k) (w.objN (Obj.CMP_START k)) * 65536 } := rfl

/-- An output that passes one target, with ACT 2, is set (R119). -/
theorem State.cmpAct_of_set {s : State} {k : Nat} {p16 : Int} (hdue : (s.cmp k).due = some p16) :
    let w := cmpWalk k p16 (s.cmpFuel k p16 (s.cmp k).last) { st := s, c := { s.cmp k with due := none } }
    w.passed = 1 → w.act = 2 → w.c.armed = true →
    s.cmpAct k = ((w.st.forward (.cmpEntry k w.c.entry)).count (Obj.CMP_MISSED_CNT k) 0).setCmp k
      { w.c with active := true, pulseEnd := none } := by
  intro w hpassed hact harmed
  simp only [w] at hpassed hact harmed
  simp only [State.cmpAct, hdue, hpassed, hact, harmed, w, if_true, one_ne_zero, if_false, Nat.sub_self, lt_self_iff_false, decide_false,
    Bool.false_and, Bool.false_eq_true, OfNat.ofNat_ne_one]

theorem State.pulseEnd_of_due {s : State} {k t : Nat} (hend : (s.cmp k).pulseEnd = some t) (hdue : t ≤ s.now) :
    s.pulseEnd k = s.setCmp k { s.cmp k with active := false, pulseEnd := none } := by
  simp only [State.pulseEnd, hend, hdue, if_true]

/-! ### Axis encoders -/

theorem State.axeLevels_of_quadrature {s : State} {x : Nat} (hmode : s.obj (Obj.AXE_MODE x) = 1) (a b : Bool) :
    s.axeLevels x a b = s.levels (.axis x) true a b (fun s f t => s.axisCount x f t) := by
  simp only [State.axeLevels, hmode, BEq.rfl]

/-- An index pulse met forward latches the position and homes the axes that wait for it (R123). -/
theorem State.indexAndHome_of_forward {s : State} {x : Nat} (hmode : s.obj (Obj.AXE_MODE x) = 1) (hready : s.ready 11 = true)
    (hdir : bitAt (s.objN (Obj.AXE_STATUS x)) bDir = true) :
    s.indexAndHome x = ((s.setObj (Obj.AXE_INDEX_LATCH x) (bitsOf 64 (s.chan (.axis x)).pos)).setObj (Obj.AXE_STATUS x)
      (putBit (s.objN (Obj.AXE_STATUS x)) bIndexSeen true)).homeIndex x := by
  have hstatus : (s.axisKeys x).status = Obj.AXE_STATUS x := rfl
  have hplain : ∀ (t : State) (v : Nat), t.setStatus (s.axisKeys x) v = t.setObj (Obj.AXE_STATUS x) v := fun _ _ => rfl
  have hbit : s.objBit (Obj.AXE_STATUS x) bDir = true := hdir
  simp only [State.indexAndHome, State.axeIndex, hstatus, hplain, hmode, hready, hdir, hbit, BEq.rfl, ne_eq, not_true, Bool.not_true,
    Bool.false_eq_true, or_self, Bool.and_self, if_false, if_true]

/-- The first good sample of an SSI encoder in binary without error bits or parity is its position (R125). -/
theorem State.ssiSample_of_first {s : State} {x : Nat} {bits : List Bool} (hmode : s.obj (Obj.AXE_MODE x) = 2)
    (hready : s.ready 11 = true) (hnone : (s.chan (.axis x)).ssiGood = none) (hvalid : s.objBit (Obj.AXE_STATUS x) bSsiInvalid = false) :
    let f := s.objN (Obj.AXE_SSI_FRAME x)
    field f 20 2 = 0 → bitAt f 22 = false → bitAt f 23 = false → field f 16 4 + field f 0 6 = bits.length →
    let v := bitsToNat ((bits.drop (field f 16 4)).take (field f 0 6))
    s.ssiSample x false bits = (s.setChan (.axis x) { s.chan (.axis x) with
      pos := v, any := true, ssiBad := 0, ssiGood := some (v, v, s.now) }).setObj (Obj.AXE_SPEED x) 0 := by
  intro f herrs hpar hgray hlen v
  have hstatus : (s.axisKeys x).status = Obj.AXE_STATUS x := rfl
  have htotal : field f 16 4 + field f 0 6 + 0 + b2n false = bits.length := hlen
  have htake : (bits ++ List.replicate bits.length false).take bits.length = bits := List.take_left' rfl
  simp only [f] at herrs hpar hgray htotal
  simp only [State.ssiSample, hstatus, hmode, hready, hnone, hvalid, herrs, hpar, hgray, htotal, htake, f, v]
  simp

theorem State.ssiAndAxes_of_valid {s t : State} {x : Nat} {busy : Bool} {bits : List Bool} (hsample : s.ssiSample x busy bits = t)
    (hsame : t.objBit (Obj.AXE_STATUS x) bSsiInvalid = s.objBit (Obj.AXE_STATUS x) bSsiInvalid) : s.ssiAndAxes x busy bits = t := by
  simp only [State.ssiAndAxes, hsample, hsame, if_true]

theorem Obj.AXE_STATUS_ne_SPEED (x : Nat) : Obj.AXE_STATUS x ≠ Obj.AXE_SPEED x := by
  simp only [Obj.AXE_STATUS, Obj.AXE_SPEED]
  omega

end Sys2Proof.Machine

namespace Sys2Proof

open Machine

/-- Settles O12: each command's guards are the hypotheses of its clause. -/
theorem webMarksAndCompares : Obligations.WebMarksAndCompares := by
  unfold Obligations.WebMarksAndCompares
  refine ⟨?_, ?_, ?_, ?_, ?_, ?_, ?_, ?_, ?_⟩
  · intro t rising s hready hedge
    refine ⟨fun hback => ?_, fun hfwd hnone => ?_⟩
    · exact congrArg Host.Outcome.next (State.tofMark_of_backward hready hedge hback)
    · exact congrArg Host.Outcome.next (State.tofMark_of_no_edge hready hedge hfwd hnone)
  · intro t r s hready href hpitch m hpassed
    exact congrArg Host.Outcome.next (State.tofMissing_of_passed hready href hpitch hpassed)
  · intro c k v s hp
    refine congrArg Host.Outcome.next (State.numCmd_byte (Obj.kind_CMP_ARM k.isLt) v.isLt hp fun l => ?_)
    exact State.writeRule_CMP_ARM _ c k.val k.isLt _ _ l
  · intro k v u
    refine ⟨?_, ?_⟩
    · rintro rfl
      exact u.cmpArm_zero k
    · rintro rfl
      exact u.cmpArm_one k
  · intro k s p16 hdue w hpassed hact harmed
    exact congrArg Host.Outcome.next (State.cmpAct_of_set hdue hpassed hact harmed)
  · intro k t s hend hdue
    exact congrArg Host.Outcome.next (State.pulseEnd_of_due hend hdue)
  · intro x a b s hmode hready
    refine ⟨fun h => ?_, fun h => ?_⟩
    · exact congrArg Host.Outcome.next ((State.axeLevels_of_quadrature hmode a b).trans (State.levels_of_a hready h.1 h.2))
    · exact congrArg Host.Outcome.next ((State.axeLevels_of_quadrature hmode a b).trans (State.levels_of_b hready h.1 h.2))
  · intro x s hmode hready hdir
    exact congrArg Host.Outcome.next (State.indexAndHome_of_forward hmode hready hdir)
  · intro x bits s hmode hready hnone hvalid f herrs hpar hgray hlen v s1
    refine congrArg Host.Outcome.next (State.ssiAndAxes_of_valid
      (State.ssiSample_of_first hmode hready hnone hvalid herrs hpar hgray hlen) ?_)
    simp only [State.objBit, State.objN]
    rw [State.obj_setObj_of_ne _ _ _ _ (Obj.AXE_STATUS_ne_SPEED x.val)]
    rfl

end Sys2Proof
end

section
/-! Decoding of fire lines and check lines (R79 to R94). -/

namespace Sys2Proof.Machine

theorem State.checkDecode_of_near {s : State} {j : Job} {p : Int} (hnext : s.nextCheckLine = some j)
    (hpos : s.camPos j (j.bar 0).checked = some p) (hready : s.ready 8 = true) (hdram : s.dramReady = true)
    (hnear : p - 64 * s.pitchR ≤ s.webQ) : s.checkDecode = s.deliverCheck j false := by
  simp only [State.checkDecode, hnext, hpos, hready, hdram, hnear, and_self, if_true]

end Sys2Proof.Machine

namespace Sys2Proof

open Machine

/-- Settles O13: each command's guards are the hypotheses of its clause. -/
theorem lanesDecode : Obligations.LanesDecode := by
  unfold Obligations.LanesDecode
  refine ⟨?_, ?_, ?_⟩
  · intro b j s hnext hready hdram hroom
    refine congrArg Host.Outcome.next ?_
    simp only [State.fireDecode, hnext, hready, hdram, hroom.not_ge, decide_false, decide_eq_true_eq, Bool.not_true, Bool.or_self,
      Bool.false_eq_true, if_false]
  · intro j p s hnext hpos hready hdram hnear
    exact congrArg Host.Outcome.next (State.checkDecode_of_near hnext hpos hready hdram hnear)
  · intro j p s hnext hpos hlate hready late hsome
    refine congrArg Host.Outcome.next ?_
    simp only [State.checkIsLate, hnext, hpos, hready, hlate.not_gt, late, List.isEmpty_eq_false_iff.mpr hsome, Bool.not_true,
      Bool.false_eq_true, if_false]

end Sys2Proof
end

section
/-! Writes of the print objects (R49, R50, R150, R180, R181, R321). -/

namespace Sys2Proof.Machine

theorem State.writePsn_of_idle {u : State} (h : u.hq.jobs = []) (v : Nat) :
    u.writePsn v = (({ u with hq := { u.hq with psnNext := v } } : State).psnWatch, 0) := by
  simp only [State.writePsn, h, List.isEmpty_nil, if_true]

/-- A set that has begun on no bar and no camera is cancelled, by a supervisor where a supervisor committed it (R321). -/
theorem State.cancelSet_of_waiting {u : State} {number : Nat} {super : Bool} {x : CommitSet}
    (hset : u.toa.pending.find? (fun y => y.number == number) = some x) (hbars : x.doneBars = 0) (hcams : x.doneCams = 0)
    (hright : x.super = true → super = true) : u.cancelSet number super = (u.finishSet number 5, 0) := by
  have hallowed : ¬ (x.super = true ∧ (!super) = true) := fun ⟨hx, hs⟩ => by simp [hright hx] at hs
  simp only [State.cancelSet, hset, hbars, hcams, ne_eq, not_true, or_self, if_false]
  exact if_neg hallowed

/-! ### Tables of counters -/

/-- An accepted write of a table of counters clears the elements that it names, and abandons the open transfer (R24, R318). -/
theorem State.tableCmd_counter {s : State} {c : Ctx} {k i : Nat} {d : Bytes} {r : Obj.ObjRow} (hp : s.passes c k 13 d = true)
    (hf : Obj.find k = some (r, i)) (hacc : r.acc = .rw) (hctr : r.ctr = true) :
    s.tableCmd c k d = (((s.touch c).dropTransfer c.sess).writeCounter k r d (wholeSpans r d)).written k d := by
  simp only [State.passes, hf, Bool.and_eq_true, beq_iff_eq, Option.isNone_iff_eq_none] at hp
  obtain ⟨⟨⟨⟨hup, hsess⟩, haccess⟩, hdom⟩, ⟨hty, hlen⟩, hvalue⟩ := hp
  simp only [if_true] at hvalue
  have hopen : (s.session? c.sess).isNone = false := by
    cases h : s.session? c.sess <;> simp_all
  unfold State.tableCmd State.objCmd State.inCmd
  simp only [hup, hopen, Bool.not_true, Bool.false_eq_true, if_false, State.objWrite, haccess, ne_eq, not_true, hf, hlen, hdom, or_self,
    ← hty, if_true, State.writeValue, hvalue, hacc, hctr, reduceCtorEq]
  unfold State.written State.heldBy State.noteCmd
  simp [hf, hacc]

/-- WEAR in its table: 8,192 elements of 8 bytes. -/
def Obj.rowWEAR : Obj.ObjRow := { sub := 0x2, ty := 13, acc := .rw, dflt := fun _ => 0, ctr := true, len := 65536, esz := 8 }

theorem Obj.find_WEAR {h : Nat} (hh : h < 128) : Obj.find (Obj.WEAR h) = some (Obj.rowWEAR, h) := by
  have hidx : Obj.WEAR h / 256 = 0x8000 + h := by simp only [Obj.WEAR]; omega
  have hsub : Obj.WEAR h % 256 = 2 := by simp only [Obj.WEAR]; omega
  simp only [Obj.find, hidx, hsub, Obj.groupOf_8000 h hh]
  rfl

theorem State.writeCounter_WEAR {h : Nat} (hh : h < 128) {d : Bytes} (hd : d.length = 65536) (u : State) :
    u.writeCounter (Obj.WEAR h) Obj.rowWEAR d (wholeSpans Obj.rowWEAR d) = u.clearWear h 0 8192 := by
  have hspans : wholeSpans Obj.rowWEAR d = [(0, 8192)] := by simp [wholeSpans, Obj.rowWEAR, hd]
  have hidx : Obj.WEAR h / 256 = 0x8000 + h := by simp only [Obj.WEAR]; omega
  have hsub : Obj.WEAR h % 256 = 2 := by simp only [Obj.WEAR]; omega
  have hblock : (0x8000 + h) / 0x100 = 0x80 := by omega
  have hlow : ¬ 0x8200 ≤ 0x8000 + h := by omega
  have hty : Obj.rowWEAR.ty = 13 := rfl
  simp only [State.writeCounter, State.writeTable, hspans, hidx, hsub, hblock, hlow, hty, if_true, if_false, List.foldl_cons,
    List.foldl_nil, Nat.add_sub_cancel_left]

end Sys2Proof.Machine

namespace Sys2Proof

open Machine

/-- Settles O14: an accepted write comes to its object's rule, whose guards are the hypotheses of the clause. -/
theorem printObjectsWrite : Obligations.PrintObjectsWrite := by
  unfold Obligations.PrintObjectsWrite
  refine ⟨?_, ?_, ?_, ?_, ?_, ?_, ?_⟩
  · intro c id s hp habort
    refine congrArg Host.Outcome.next (State.numCmd_word Obj.kind_JOB_ABORT id.isLt hp fun l => ?_)
    exact (State.writeRule_JOB_ABORT ..).trans (Prod.ext rfl habort)
  · intro c v s hp hidle
    refine congrArg Host.Outcome.next (State.numCmd_word Obj.kind_PSN_NEXT v.isLt hp fun l => ?_)
    exact (State.writeRule_PSN_NEXT ..).trans (State.writePsn_of_idle (u := s.touch c) hidle v.toNat)
  · intro c v s hp
    refine congrArg Host.Outcome.next (State.numCmd_byte Obj.kind_FFY_RESUME v.isLt hp fun l => ?_)
    exact State.writeRule_FFY_RESUME ..
  · intro c n x s hp hset hbars hcams hright
    refine congrArg Host.Outcome.next (State.numCmd_word Obj.kind_COMMIT_CANCEL n.isLt hp fun l => ?_)
    exact (State.writeRule_COMMIT_CANCEL ..).trans (State.cancelSet_of_waiting (u := s.touch c) hset hbars hcams hright)
  · intro h n s
    rfl
  · intro c h d s hp hd
    refine congrArg Host.Outcome.next ((State.tableCmd_counter hp (Obj.find_WEAR h.isLt) rfl rfl).trans ?_)
    rw [State.writeCounter_WEAR h.isLt hd]
  · intro c h d s hp u hidle
    refine congrArg Host.Outcome.next (State.tableCmd_written hp (Obj.kind_WEAR_RESTORE h.isLt) (.inr (.inl rfl)) fun l => ?_)
    refine (State.writeRule_WEAR_RESTORE _ _ h.val h.isLt ..).trans (if_neg ?_)
    rw [hidle]
    exact Bool.false_ne_true

end Sys2Proof
end

section
/-! PROOF. The head links: signal, lock, training, its failure, and enabling (chapters 08 and 09). -/

namespace Sys2Proof.Machine

/-- A frame that passes its check on a locked link does its work. -/
theorem State.hlFrame_of_good {s : State} {h n : Nat} {body : Bytes} {f : State → State} (hl : (s.headDev h).lock = true)
    (hf : frameOk n body = true) : s.hlFrame h n body f = f s := by
  simp only [State.hlFrame, hl, hf, Bool.not_true, Bool.false_eq_true, if_false, if_true]

theorem State.signalDetect_of_ready {s : State} {h : Nat} (hr : s.ready (headDomain h) = true) :
    s.signalDetect h = (s.setHeadDev h { s.headDev h with signal := true }).laneBits h [lnSignal] [] := by
  simp only [State.signalDetect, hr, Bool.not_true, Bool.false_eq_true, if_false]

theorem State.blockLockLoss_of_locked {s : State} {h : Nat} (hl : (s.headDev h).lock = true) :
    s.blockLockLoss h = (s.count (Obj.LANE_LOCK_LOSS_CNT h) 1).headLost h 1 := by
  simp only [State.blockLockLoss, hl, Bool.not_true, Bool.false_eq_true, if_false]

end Sys2Proof.Machine

namespace Sys2Proof
open Machine

/-- Settles O15: each command's guards are the hypotheses of its clause. -/
theorem headLinksTrain : Obligations.HeadLinksTrain := by
  unfold Obligations.HeadLinksTrain
  refine ⟨?_, ?_, ?_, ?_, ?_, ?_, ?_⟩
  · intro h s hr
    exact congrArg Host.Outcome.next (State.signalDetect_of_ready hr)
  · intro h s hon hl hst hat
    refine congrArg Host.Outcome.next ?_
    simp only [State.blockLock, hon, hl, hst, Nat.not_lt.mpr hat, bne_self_eq_false, decide_false, Bool.not_true, Bool.or_self,
      Bool.false_eq_true, if_false]
  · intro h s hl
    exact congrArg Host.Outcome.next (State.blockLockLoss_of_locked hl)
  · intro h s hl ht hst hrx
    refine congrArg Host.Outcome.next ?_
    simp only [State.trainSend, hl, ht, hst, hrx, bne_self_eq_false, Bool.not_true, Bool.or_self, Bool.true_or, Bool.false_eq_true,
      if_false, if_true]
  · intro h body s hl hf ht
    refine congrArg Host.Outcome.next ((State.hlFrame_of_good hl hf).trans ?_)
    simp only [ht, Bool.false_eq_true, if_false]
  · intro h s hst ht hto
    refine congrArg Host.Outcome.next ?_
    simp only [State.trainFail, hst, ht, Nat.not_lt.mpr hto, ne_eq, not_true, Bool.false_eq_true, or_self, if_false]
  · intro c h v s hp u k
    have hw : ∀ l, u.writeRule c k ((v.toNat : Nat) : Int) (le 1 v.toNat) l = u.hlEnable h.val v.toNat :=
      fun l => State.writeRule_HL_ENABLE u c h.val h.isLt _ _ l
    refine ⟨fun hv hm => ?_, fun hv => ?_⟩
    · intro u1
      refine congrArg Host.Outcome.next (State.numCmd_byte (Obj.kind_HL_ENABLE h.isLt) v.isLt hp fun l => (hw l).trans ?_)
      simp only [State.hlEnable, hv, hm, Nat.one_ne_zero, and_false, if_false, u1, k]
    · intro st u1
      refine congrArg Host.Outcome.next (State.numCmd_byte (Obj.kind_HL_ENABLE h.isLt) v.isLt hp fun l => (hw l).trans ?_)
      simp only [State.hlEnable, hv, Nat.zero_ne_one, false_and, if_false, if_true, u1, k, st]

end Sys2Proof
end

section
/-! PROOF. The frames of the head links: telemetry, enumeration, control, delay, time and authority (chapter 08). -/

namespace Sys2Proof.Machine

theorem State.teleTimeout_of_late {s : State} {h : Nat} (ht : (s.headDev h).trained = true) (hlo : 2 ≤ s.objN (Obj.HL_STATE h))
    (hhi : s.objN (Obj.HL_STATE h) ≤ 5) (hto : (s.headDev h).teleNs + 1000 * s.objN Obj.HL_TELE_TIMEOUT ≤ s.aclkNs) :
    s.teleTimeout h = s.headLost h 2 := by
  simp only [State.teleTimeout, ht, hlo.not_gt, hhi.not_gt, hto.not_gt, Bool.not_true, Bool.false_eq_true, or_self, if_false]

theorem State.ctlResend_of_waiting {s : State} {h q : Nat} {c : Ctl} (hc : (s.headDev h).cur = some (c, q))
    (ht : (s.headDev h).sentNs + 20000 ≤ s.aclkNs) (hn : (s.headDev h).sends < 50) :
    s.ctlResend h =
      (s.setHeadDev h { s.headDev h with sends := (s.headDev h).sends + 1, sentNs := s.aclkNs }).hlTx h 5 (ctlBody c q) := by
  simp only [State.ctlResend, hc, ht.not_gt, hn.not_ge, if_false]

/-- A head whose link has just trained and has not enumerated is one whose ENUM is read. -/
theorem State.awaitsEnum {s : State} {h : Nat} (ht : (s.headDev h).trained = true) (hst : s.obj (Obj.HL_STATE h) = 1)
    (h0 : (s.headDev h).stage = 0) : ¬((!(s.headDev h).trained) = true ∨ s.obj (Obj.HL_STATE h) ≠ 1 ∨ (s.headDev h).stage ≠ 0) := by
  simp only [ht, hst, h0, Bool.not_true, Bool.false_eq_true, ne_eq, not_true, or_self, not_false_iff]

theorem State.sendAuth_of_takes {s : State} {h : Nat} (ha : s.takesAuth h = true) :
    s.sendAuth h = (s.setHeadDev h { s.headDev h with authNs := s.aclkNs }).hlTx h (if s.hasAuthority then 3 else 4)
      (s.authBody s.hasAuthority) := if_pos ha

end Sys2Proof.Machine

namespace Sys2Proof
open Machine

/-- Settles O16: each command's guards are the hypotheses of its clause. -/
theorem headFramesServe : Obligations.HeadFramesServe := by
  unfold Obligations.HeadFramesServe
  refine ⟨?_, ?_, ?_, ?_, ?_, ?_, ?_, ?_⟩
  · intro h body s hl hf ht
    refine congrArg Host.Outcome.next ((State.hlFrame_of_good hl hf).trans ?_)
    exact if_neg (by rw [ht]; decide)
  · intro h s ht hlo hhi hto
    exact congrArg Host.Outcome.next (State.teleTimeout_of_late ht hlo hhi hto)
  · intro h body s hl hf ht hst h0
    have hg := State.awaitsEnum ht hst h0
    refine ⟨fun c hc => ?_, fun hc hk => ?_⟩
    · refine congrArg Host.Outcome.next ((State.hlFrame_of_good hl hf).trans ((if_neg hg).trans ?_))
      simp only [hc]
    · refine congrArg Host.Outcome.next ((State.hlFrame_of_good hl hf).trans ((if_neg hg).trans ?_))
      simp only [hc, hk, Bool.false_and, Bool.false_eq_true, if_false]
  · intro h c q s hc ht hn
    exact congrArg Host.Outcome.next (State.ctlResend_of_waiting hc ht hn)
  · intro h body rtt s hl hf ht hq hacc
    refine congrArg Host.Outcome.next ((State.hlFrame_of_good hl hf).trans ?_)
    simp only [ht, hq, hacc.not_ge, Bool.not_true, Bool.false_eq_true, ne_eq, not_true, or_self, if_false, decide_false, Bool.false_and]
  · intro h s ht hto
    refine congrArg Host.Outcome.next ?_
    simp only [State.timeSend, ht, hto.not_gt, Bool.not_true, Bool.false_eq_true, or_self, if_false]
  · intro h s ha
    exact congrArg Host.Outcome.next (State.sendAuth_of_takes ha)
  · intro c n v s hp u
    refine congrArg Host.Outcome.next (State.numCmd_byte (Obj.kind_LANE_SLIP n.isLt) v.isLt hp fun l => ?_)
    refine (State.writeRule_LANE_SLIP u c n.val n.isLt _ _ l).trans ?_
    simp only [State.laneSlip]
    split <;> rfl

end Sys2Proof
end

section
/-! PROOF. What a head module does with the frames it receives (chapter 08). -/

namespace Sys2Proof.Machine

/-- A port whose lease has run out is not fresh. -/
theorem State.portFresh_of_lapsed {s : State} {q : HPort} (h : q.authNs + q.lease ≤ s.now) : s.portFresh q = false := by
  simp only [State.portFresh, h.not_gt, decide_false, Bool.and_false]

theorem State.headAuth_of_good {s : State} {h p : Nat} {body : Bytes} (hf : frameOk 16 body = true) :
    s.headAuth h p body = s.setHeadSide h (s.chooseObeyed ((s.headSide h).setPort p (fun q => { q with
      fresh := true, epoch := getN body 0 4, lease := getN body 4 4, authNs := s.now }))) := by
  simp only [State.headAuth, hf, Bool.not_true, Bool.false_eq_true, if_false]

theorem State.headLapse_of_lapsed {s : State} {h p : Nat} (hf : ((s.headSide h).port p).fresh = true)
    (ht : ((s.headSide h).port p).authNs + ((s.headSide h).port p).lease ≤ s.now) :
    s.headLapse h p = s.setHeadSide h (s.chooseObeyed ((s.headSide h).setPort p (fun q => { q with fresh := false }))) := by
  simp only [State.headLapse, hf, State.portFresh_of_lapsed ht, Bool.not_true, Bool.false_eq_true, or_self, if_false]

end Sys2Proof.Machine

namespace Sys2Proof
open Machine

/-- Settles O17: each command's guards are the hypotheses of its clause. -/
theorem headModulesReceive : Obligations.HeadModulesReceive := by
  unfold Obligations.HeadModulesReceive
  refine ⟨?_, ?_, ?_, ?_, ?_, ?_⟩
  · intro h p body s hf
    exact congrArg Host.Outcome.next (State.headAuth_of_good hf)
  · intro h p s hf ht
    exact congrArg Host.Outcome.next (State.headLapse_of_lapsed hf ht)
  · intro h p body e s hf ho hstep
    have hs : (!(s.headSide h.val).synced) = true ∨ bitAt (byteAt body 2) 1 = true := by
      rwa [Bool.not_eq_true']
    refine congrArg Host.Outcome.next ?_
    simp only [State.headTime, hf, ho, hs, Option.getD_some, Bool.not_true, Bool.false_eq_true, ne_eq, not_true, if_false, if_true]
  · intro h p body s hlen hcrc x htk hep hc
    refine congrArg Host.Outcome.next ?_
    simp only [x] at htk hep hc
    simp only [State.headLineData, hlen, hcrc, htk, hep, hc, Bool.not_true, Bool.false_eq_true, ne_eq, not_true, or_self, if_false, x]
  · intro h p body a b s hf ns x hA hB h2 ha hb hca hcb htk hc
    refine congrArg Host.Outcome.next ?_
    simp only [ns, x] at ha hb htk hc
    simp only [State.headFireTime, hf, hA, hB, h2, ha, hb, hca, hcb, htk, hc, Option.isNone_some, Option.getD_some, Bool.and_false,
      Bool.or_self, Bool.not_true, Bool.false_eq_true, or_self, if_false, if_true, ns, x]
  · intro h p body s hf ho x k d
    refine ⟨fun ht hk => ?_, fun ht hk => ?_⟩
    · refine congrArg Host.Outcome.next ?_
      simp only [State.headTable, hf, ho, ht, hk, Bool.not_true, Bool.false_eq_true, ne_eq, not_true, or_self, and_self, if_false, if_true,
        x, k, d]
    · refine congrArg Host.Outcome.next ?_
      simp only [State.headTable, hf, ho, ht, hk, Nat.one_ne_zero, Bool.not_true, Bool.false_eq_true, ne_eq, not_true, or_self,
        false_and, and_self, if_false, if_true, x, k, d]

end Sys2Proof
end

section
/-! PROOF. A head module commits and fires lines, turns hot, and sends its frames (chapters 06 to 08). -/

namespace Sys2Proof.Machine

theorem State.headEnum_of_due {s : State} {h p : Nat} (ht : s.portTrained h p = true) (ha : ((s.headSide h).port p).asn = false)
    (he : ((s.headSide h).port p).enumNs.any (fun t => decide (s.now < t + 100000)) = false) :
    s.headEnum h p = (s.setHeadSide h ((s.headSide h).setPort p (fun q => { q with enumNs := some s.now }))).emit
      (.headTx h p 10 (enumBody h p)) := by
  simp only [State.headEnum, ht, ha, he, Bool.not_true, Bool.false_eq_true, or_self, if_false]

/-- TELEMETRY is due: a report is owed, or neither a commit nor a report lies within 10 us. -/
theorem teleDue_or_idle {d : Bool} {a b n : Nat} (h : d = true ∨ a + 10000 ≤ n ∧ b + 10000 ≤ n) :
    (d || decide (a + 10000 ≤ n) && decide (b + 10000 ≤ n)) = true := by
  rwa [Bool.or_eq_true, Bool.and_eq_true, decide_eq_true_iff, decide_eq_true_iff]

theorem State.headTele_of_due {s : State} {h p : Nat} (ht : s.portTrained h p = true)
    (hd : ((s.headSide h).port p).teleDue = true ∨
      (s.headSide h).lastCommitNs + 10000 ≤ s.now ∧ ((s.headSide h).port p).teleNs + 10000 ≤ s.now) :
    s.headTele h p = (s.setHeadSide h ((s.headSide h).setPort p (fun q => { q with
      teleNs := s.now, teleDue := false, ctlLate := false }))).emit (.headTx h p 9 (s.teleBody (s.headSide h) p)) := by
  simp only [State.headTele, ht, teleDue_or_idle hd, Bool.not_true, Bool.false_eq_true, or_self, if_false]

end Sys2Proof.Machine

namespace Sys2Proof
open Machine

/-- Settles O18: each command's guards are the hypotheses of its clause. -/
theorem headModulesFire : Obligations.HeadModulesFire := by
  unfold Obligations.HeadModulesFire
  refine ⟨?_, ?_, ?_, ?_, ?_⟩
  · intro h lseq c r t s x hslot hfirst hcom ht hbad hmay z y
    refine congrArg Host.Outcome.next ?_
    simp only [x] at hslot hmay
    simp only [State.headCommit, hslot, hfirst, hcom, ht.not_gt, hbad, hmay, Bool.not_true, Bool.false_eq_true, or_self, if_false,
      x, y, z]
  · intro h lseq row c t s hslot htime hcom hfired ht y
    refine congrArg Host.Outcome.next ?_
    simp only [State.headRowFire, hslot, htime, hcom, hfired, ht.not_gt, Bool.not_true, Bool.false_eq_true, or_self, if_false, y]
  · intro h temp s
    rfl
  · intro h p s ht ha he
    exact congrArg Host.Outcome.next (State.headEnum_of_due ht ha he)
  · intro h p s ht hd
    exact congrArg Host.Outcome.next (State.headTele_of_due ht hd)

end Sys2Proof
end

section
/-! PROOF. The CONTROL operations at a head (Table 8.6). -/

namespace Sys2Proof.Machine

/-- A head takes the number it is given where it has none or has that one. -/
theorem State.headAssign_of_new {s : State} {h p cseq n : Nat}
    (ha : (s.headSide h).assigned = none ∨ (s.headSide h).assigned = some (n % 128)) :
    s.headAssign h p cseq n = s.setHeadSide h
      (({ s.headSide h with assigned := some (n % 128) } : HeadSide).setPort p (fun q => { q with cseq := cseq % 2 ^ 16, asn := true })) := by
  have hg : (s.headSide h).assigned.any (fun k => k != n % 128) = false := by
    obtain ha | ha := ha <;> simp [ha]
  simp only [State.headAssign, hg, Bool.false_eq_true, if_false]

/-- The next CONTROL of the obeyed port is applied. -/
theorem State.headCtl_of_next {s : State} {h p cseq : Nat} {o : Bool} {f : HeadSide → HeadSide}
    (ho : (s.headSide h).obeyed = some p)
    (hq : ((s.headSide h).port p).cseq + 1 = cseq ∨ ((s.headSide h).port p).cseq = 2 ^ 16 - 1 ∧ cseq = 0) :
    s.headCtl h p cseq o f = s.setHeadSide h ((f (s.headSide h)).setPort p (fun q => { q with cseq := cseq })) := by
  simp only [State.headCtl, ho, ne_eq, not_true, and_false, if_false]
  exact if_pos hq

end Sys2Proof.Machine

namespace Sys2Proof
open Machine

/-- Settles O19: ASSIGN by its own rule, every other operation as the next CONTROL of the obeyed port. -/
theorem headControlsApply : Obligations.HeadControlsApply := by
  unfold Obligations.HeadControlsApply
  refine ⟨?_, ?_⟩
  · intro h p cseq a b s ha
    exact congrArg Host.Outcome.next (State.headAssign_of_new ha)
  · intro h p cseq a b s ho hq x put
    have hrun : ∀ o f, Host.Outcome.next (s.headCtl h.val p.val cseq o f) = put (f x) := fun o f =>
      congrArg Host.Outcome.next (State.headCtl_of_next ho hq)
    exact ⟨hrun true _, hrun true _, hrun true _, hrun true _, hrun true _, hrun false _, hrun true _⟩

end Sys2Proof
end

section
/-! PROOF. The lanes' test logic: retraining, the eye monitor, TEST_LOOP, loopback, injection and the checker (chapter 09). -/

namespace Sys2Proof.Machine

theorem State.retrainIdle_of_due {s : State} {n : Nat} (hg : laneGroup n = 0) (hd : bitAt (s.objN (Obj.LANE_STATUS n)) 9 = true)
    (hi : s.barIdle (n / 16) = true) : s.retrainIdle n = s.retrainHead n := if_pos ⟨hg, hd, hi⟩

theorem State.eyeStart_of_idle {s : State} {n v : Nat} (h : s.obj (Obj.LANE_EYE_STATE n) ≠ 1) :
    s.eyeStart n v = ((s.setLane n { s.lane n with eye := v }).setObj (Obj.LANE_EYE_STATE n) 1, 0) := if_neg h

theorem State.eyeAbort_of_running {s : State} {n : Nat} (h : s.obj (Obj.LANE_EYE_STATE n) = 1) :
    s.eyeAbort n = ((s.setLane n { s.lane n with eye := 0 }).setObj (Obj.LANE_EYE_STATE n) 3).setObj (Obj.LANE_EYE_STAMP n)
      ((s.stamp : Nat) : Int) := if_pos h

theorem State.laneLoopSet_of_test {s : State} {n v : Nat} (h : s.laneTest n = true) :
    s.laneLoopSet n v = (((s.eyeAbort n).prbsUnlock n).setObj (Obj.LANE_LOOP n) (v : Nat), 0) := by
  simp only [State.laneLoopSet, h, Bool.not_true, Bool.false_eq_true, if_false]

theorem State.checkerLoss_of_errors {s : State} {n bits errors : Nat} (hr : s.patRuns n = true) (he : 512 ≤ errors)
    (hb : bits ≤ 1024) : s.checkerLoss n bits errors =
      ((s.prbsSync n).count (Obj.LANE_PRBS_ERR n) errors).count (Obj.LANE_PRBS_RELOCK n) 1 := by
  simp only [State.checkerLoss, hr, he.not_gt, hb.not_gt, Bool.not_true, Bool.false_eq_true, or_self, if_false]

/-- The checker locks where it looks for a pattern, far-end loopback is off, and near-end loopback returns that pattern. -/
theorem State.checkerLock_of_pattern {s : State} {n : Nat} (ht : s.laneTest n = true) (hc : s.obj (Obj.LANE_PAT_CHK n) ≠ 0)
    (hf : s.obj (Obj.LANE_LOOP n) ≠ 2) (hl : bitAt (s.objN (Obj.LANE_PAT_STATUS n)) 0 = false)
    (hn : s.obj (Obj.LANE_LOOP n) = 1 → s.obj (Obj.LANE_PAT_GEN n) = s.obj (Obj.LANE_PAT_CHK n)) :
    s.checkerLock n = (s.setLane n { s.lane n with since := s.now }).setBit (Obj.LANE_PAT_STATUS n) 0 true := by
  have hnear : ¬((s.obj (Obj.LANE_LOOP n) == 1) = true ∧ s.obj (Obj.LANE_PAT_GEN n) ≠ s.obj (Obj.LANE_PAT_CHK n)) := by
    rintro ⟨h1, h2⟩
    exact h2 (hn (eq_of_beq h1))
  simp only [State.checkerLock, ht, hc, hf, hl, hnear, Bool.not_true, Bool.false_eq_true, or_self, if_false]

end Sys2Proof.Machine

namespace Sys2Proof
open Machine

/-- Settles O20: a write comes to its object's rule, whose guards, like every other command's, are its clause's hypotheses. -/
theorem lanesTest : Obligations.LanesTest := by
  unfold Obligations.LanesTest
  refine ⟨?_, ?_, ?_, ?_, ?_, ?_, ?_, ?_, ?_, ?_⟩
  · intro c n v s hp u k
    have hrun : ∀ {t : State}, u.laneRetrain n.val = (t, 0) →
        exec (.laneRetrain c n v) s = .next (t.written k (le 1 v.toNat)) := fun ht =>
      congrArg Host.Outcome.next (State.numCmd_byte (Obj.kind_LANE_RETRAIN n.isLt) v.isLt hp fun l =>
        (State.writeRule_LANE_RETRAIN u c n.val n.isLt _ _ l).trans ht)
    refine ⟨fun hg hs => hrun ?_, fun hg hs => hrun ?_, fun hg => hrun ?_, fun h0 h3 => hrun ?_⟩
    · simp only [State.laneRetrain, hg, hs, if_true]
    · simp only [State.laneRetrain, hg, hs, Bool.false_eq_true, if_false, if_true]
    · simp only [State.laneRetrain, hg, OfNat.ofNat_ne_zero, if_false, if_true]
    · simp only [State.laneRetrain, h0, h3, if_false]
  · intro n s hg hd hi
    exact congrArg Host.Outcome.next (State.retrainIdle_of_due hg hd hi)
  · intro c n v s hp u hi
    exact congrArg Host.Outcome.next (State.numCmd_byte (Obj.kind_LANE_EYE_START n.isLt) v.isLt hp fun l =>
      (State.writeRule_LANE_EYE_START u c n.val n.isLt _ _ l).trans (State.eyeStart_of_idle hi))
  · intro n dis s he
    refine congrArg Host.Outcome.next ?_
    simp only [State.eyeEnd, he, State.eyeAbort_of_running he, ne_eq, not_true, Bool.not_false, if_false, if_true]
  · intro c n v s hp u hheld hnew u1 u2 u3
    refine congrArg Host.Outcome.next (State.numCmd_byte (Obj.kind_LANE_MODE n.isLt) v.isLt hp fun l =>
      (State.writeRule_LANE_MODE u c n.val n.isLt _ _ l).trans ?_)
    have hg : ¬(v.toNat = 1 ∧ (!u.heldDown n.val c.transport) = true) := by
      rintro ⟨hv, hh⟩
      rw [hheld hv] at hh
      exact absurd hh (by decide)
    simp only [State.laneModeSet, Int.toNat_natCast, hg, beq_eq_false_iff_ne.mpr hnew, Bool.false_eq_true, if_false, u1, u2, u3]
  · intro c n v s hp u ht
    exact congrArg Host.Outcome.next (State.numCmd_byte (Obj.kind_LANE_LOOP n.isLt) v.isLt hp fun l =>
      (State.writeRule_LANE_LOOP u c n.val n.isLt _ _ l).trans (State.laneLoopSet_of_test ht))
  · intro c n v s hp u hon k u1
    refine congrArg Host.Outcome.next (State.numCmd_byte (Obj.kind_LANE_INJECT n.isLt) v.isLt hp fun l =>
      (State.writeRule_LANE_INJECT u c n.val n.isLt _ _ l).trans ?_)
    simp only [State.laneInjectSet, Int.toNat_natCast, hon, Bool.not_true, Bool.false_eq_true, if_false, u1, k]
  · intro n bits errors s hr he hb
    exact congrArg Host.Outcome.next (State.checkerLoss_of_errors hr he hb)
  · intro n s ht hc hf hl hn
    exact congrArg Host.Outcome.next (State.checkerLock_of_pattern ht hc hf hl hn)
  · intro n dis s he hfull th w h s1 s2 low s3
    refine congrArg Host.Outcome.next ?_
    simp only [State.eyeEnd, he, beq_eq_false_iff_ne.mpr hfull, eyeLines, ne_eq, not_true, Bool.not_true, Bool.false_eq_true, if_false,
      th, w, h, s1, s2, low, s3]

end Sys2Proof
end

section
/-! PROOF. Cameras: enabling, discovery, acquiring, registers and events (chapter 10). -/

namespace Sys2Proof.Machine

/-- A camera that is disabled stops, is OFF and has no request outstanding. -/
theorem State.camEnableSet_zero (s : State) (c : Nat) : s.camEnableSet c 0 =
    (((((if s.camState c = camAcquiring then s.camIsLost c 3 else s).setCam c
      { (if s.camState c = camAcquiring then s.camIsLost c 3 else s).cam c with reg := none }).setObj (Obj.CAM_ENABLE c) 0).setObj
      (Obj.CAM_STATE c) camOff).setObj (Obj.CAM_REG_STATUS c) 0, 0) := rfl

/-- With every other camera off, no link is another camera's. -/
theorem State.links_unshared {s : State} {c : Nat} {f : Nat → Bool}
    (h : (List.range 4).all (fun d => d == c || s.obj (Obj.CAM_ENABLE d) != 1) = true) :
    (List.range 4).any (fun d => d != c && s.obj (Obj.CAM_ENABLE d) == 1 && f d) = false := by
  rw [List.any_eq_false]
  intro d hd
  have hd := List.all_eq_true.mp h d hd
  obtain hd | hd := Bool.or_eq_true _ _ ▸ hd
  · simp [eq_of_beq hd]
  · simp [bne_iff_ne.mp hd]

/-- A camera that may be sent to is in CONFIG or ACQUIRING. -/
theorem State.camEvent_of_connected {s : State} {c ev : Nat} {data : Bytes}
    (h : s.camState c = camConfig ∨ s.camState c = camAcquiring) : s.camEvent c ev data =
      (s.camPacket c).push 24 (Sys2Proof.splice (s.eventBytes 0x0A05 0 0 [(12, 1, c), (14, 2, ev)]) 16 (slice data 0 12)) :=
  if_neg fun hn => h.elim hn.1 hn.2

theorem State.camRegOp_of_free {s : State} {c op : Nat} (h : s.obj (Obj.CAM_REG_STATUS c) ≠ 1)
    (hc : s.camState c = camConfig ∨ s.camState c = camAcquiring) :
    let x := s.cam c
    let tag := (x.tag + 1) % 256
    let data := if op = 1 then [] else s.blob (Obj.CAM_REG_DATA c) 0 (s.objN (Obj.CAM_REG_LEN c))
    s.camRegOp c op = (((s.setCam c { x with tag := tag, reg := some (op, tag, 1, s.now, data) }).setObj (Obj.CAM_REG_STATUS c) 1).camRequest
      c op tag data, 0) :=
  if_neg (by simp only [h, hc, decide_true, Bool.not_true, Bool.false_eq_true, or_self, not_false_iff])

theorem State.camAcquireSet_of_config {s : State} {c : Nat} (h : s.camState c = camConfig) (hj : s.hq.jobs = []) :
    s.camAcquireSet c = ((s.setCam c { s.cam c with gone := false, skip := [], lastPkt := s.now }).setObj
      (Obj.CAM_STATE c) camAcquiring, 0) := by
  simp only [State.camAcquireSet, h, hj, ne_eq, not_true, if_false, List.filter_nil, List.map_nil]

end Sys2Proof.Machine

namespace Sys2Proof
open Machine

/-- Settles O21: a write comes to its object's rule, whose guards, like every other command's, are its clause's hypotheses. -/
theorem camerasConnect : Obligations.CamerasConnect := by
  unfold Obligations.CamerasConnect
  refine ⟨?_, ?_, ?_, ?_, ?_, ?_, ?_, ?_⟩
  · intro c i v s hp u k
    have hrun : ∀ {t : State}, u.camEnableSet i.val v.toNat = (t, 0) →
        exec (.camEnable c i v) s = .next (t.flushStats.written k (le 1 v.toNat)) := fun ht =>
      congrArg Host.Outcome.next (State.numCmd_byte (Obj.kind_CAM_ENABLE i.isLt) v.isLt hp fun l =>
        (State.writeRule_CAM_ENABLE u c i.val i.isLt _ _ l).trans (by rw [Int.toNat_natCast, ht]))
    refine ⟨fun hv => ?_, fun hv hoff => ?_⟩
    · intro u1 u2
      exact hrun (by rw [hv]; exact State.camEnableSet_zero u i.val)
    · intro f n hfit hothers hranges hlanes
      refine hrun ?_
      have hst : ¬(camOff = camDiscovery ∨ camOff = camConfig ∨ camOff = camAcquiring) := by decide
      simp only [f, n] at hfit hlanes
      simp only [State.camEnableSet, hv, hoff, hst, hfit.not_gt, State.links_unshared hothers, hranges, hlanes, Nat.one_ne_zero,
        Bool.not_true, Bool.false_eq_true, or_self, if_false, k]
  · intro i d s hst n
    refine ⟨fun hl hs hm => ?_, fun hl => congrArg Host.Outcome.next ?_⟩
    · intro s1
      refine congrArg Host.Outcome.next ?_
      simp only [n] at hl
      simp only [State.camDiscovered, hst, hl, hs, hm, ne_eq, not_true, Bool.not_true, Bool.false_eq_true, if_false, s1, n]
    · simp only [n] at hl
      simp only [State.camDiscovered, hst, hl, ne_eq, not_true, not_false_iff, Nat.one_ne_zero, if_false, if_true]
  · intro c i v s hp u hst hj
    exact congrArg Host.Outcome.next (State.numCmd_byte (Obj.kind_CAM_ACQUIRE i.isLt) v.isLt hp fun l =>
      (State.writeRule_CAM_ACQUIRE u c i.val i.isLt _ _ l).trans (State.camAcquireSet_of_config hst hj))
  · intro c i op s hp u hfree hst x tag data t
    have hrun : op < 2 ^ 8 → s.numCmd c (Obj.CAM_REG_OP i.val) op = t := fun hop =>
      State.numCmd_byte (Obj.kind_CAM_REG_OP i.isLt) hop hp fun l =>
        (State.writeRule_CAM_REG_OP u c i.val i.isLt _ _ l).trans (by rw [Int.toNat_natCast]; exact State.camRegOp_of_free hfree hst)
    refine ⟨?_, ?_, ?_⟩ <;> rintro rfl <;> exact congrArg Host.Outcome.next (hrun (by decide))
  · intro i tag op n t ok old data s hreg x due s1 s2
    refine congrArg Host.Outcome.next ?_
    simp only [State.camAck, hreg, ne_eq, not_true, if_false, due, s1, s2, x]
  · intro i op tag n t data s hreg ht
    refine ⟨fun hn => congrArg Host.Outcome.next ?_, fun hn => congrArg Host.Outcome.next ?_⟩
    · simp only [State.camRetry, hreg, ht.not_gt, hn.not_ge, if_false]
    · simp only [State.camRetry, hreg, ht.not_gt, hn, if_false, if_true]
  · intro i ev data s hst s1
    exact congrArg Host.Outcome.next (State.camEvent_of_connected hst)
  · intro i s
    rfl

end Sys2Proof
end

section
/-! PROOF. Cameras: triggers, lines, closing frames and losses (chapter 10). -/

namespace Sys2Proof.Machine

@[simp] theorem State.cam_setCam_same (s : State) (c : Nat) (x : Cam) : (s.setCam c x).cam c = x := Tab.get_set_same _ _ _ _

/-- A line of the right length goes to the oldest frame still open, while that frame has room. -/
theorem State.camLine_of_open {s : State} {c link : Nat} {px : Bytes} {f : Frame} (hst : s.camState c = camAcquiring)
    (hf : (s.cam c).frames.find? (fun f => !f.closed) = some f) (hroom : f.lines.length < f.height)
    (hlen : px.length = s.camLineBytes c) :
    s.camLine c link px true = (s.setCam c { s.cam c with lastPkt := s.now }).mapFrame c f.number (fun _ =>
      { f with lines := f.lines ++ [some px] }) := by
  have hlen' : px.length = (s.setCam c { s.cam c with lastPkt := s.now }).camLineBytes c := hlen
  simp only [State.camLine, State.camPacket, hst, State.cam_setCam_same, hf, hroom.not_ge, ← hlen', BEq.rfl, Bool.not_true,
    Bool.and_false, Bool.and_self, Bool.false_eq_true, ne_eq, not_true, if_false, if_true]

theorem State.camClose_of_marker {s : State} {c : Nat} {f : Frame} (hf : (s.cam c).frames.find? (fun f => !f.closed) = some f)
    (hst : s.camState c = camAcquiring) : s.camClose c true = (s.setCam c { s.cam c with lastPkt := s.now }).closeFrame c f := by
  simp only [State.camClose, State.camPacket, hf, hst, if_true]

theorem State.camClose_of_due {s : State} {c : Nat} {f : Frame} (hf : (s.cam c).frames.find? (fun f => !f.closed) = some f)
    (hd : f.endNs.any (fun t => decide (t + 1000 * s.objN (Obj.CAM_CLOSE_US c) ≤ s.now)) = true) :
    s.camClose c false = s.closeFrame c f := by
  simp only [State.camClose, hf, hd, Bool.false_eq_true, if_false, if_true]

theorem State.camTimeout_of_silent {s : State} {c : Nat} (hst : s.camState c = camAcquiring)
    (ht : (s.cam c).lastPkt + s.objN (Obj.CAM_TIMEOUT c) * msNs ≤ s.now) : s.camTimeout c = s.camIsLost c 1 := if_pos ⟨hst, ht⟩

end Sys2Proof.Machine

namespace Sys2Proof
open Machine

/-- Settles O22: each command's guards are the hypotheses of its clause. -/
theorem cameraFramesRun : Obligations.CameraFramesRun := by
  unfold Obligations.CameraFramesRun
  refine ⟨?_, ?_, ?_, ?_, ?_⟩
  · intro i p f at_ s ha hr hst htrig hat hnow hbusy s1
    refine congrArg (fun t => Host.Outcome.next (State.flushStats t)) ?_
    simp only [State.camTrigger, ha, hr, hst, htrig, hat, hnow.not_gt, hbusy.not_gt, BEq.rfl, Bool.not_true, Bool.true_or, Bool.or_self,
      Bool.false_eq_true, if_false, s1]
  · intro i link px f s hst hf hroom hlen s1
    exact congrArg Host.Outcome.next (State.camLine_of_open hst hf hroom hlen)
  · intro i f s hf
    refine ⟨fun hst => ?_, fun hd => ?_⟩
    · exact congrArg (fun t => Host.Outcome.next (State.flushStats t)) (State.camClose_of_marker hf hst)
    · exact congrArg (fun t => Host.Outcome.next (State.flushStats t)) (State.camClose_of_due hf hd)
  · intro i s hst ht
    exact congrArg (fun t => Host.Outcome.next (State.flushStats t)) (State.camTimeout_of_silent hst ht)
  · intro i link s hlo hhi hst s1
    refine congrArg (fun t => Host.Outcome.next (State.flushStats t)) ?_
    simp only [State.camUnlock, hlo.not_gt, hhi.not_ge, hst, or_self, if_false, s1]

end Sys2Proof
end

section
/-! PROOF. Nimbus: bands, verdicts, stream blocks and the evidence ring (chapter 11). -/

namespace Sys2Proof.Machine

/-- The free pointer moves to any point of the region's last lap; EVID_FULL may be raised again once there is room. -/
theorem State.evidFree_of_range {s : State} {v : Nat} (h : fwd32 v (s.objN Obj.NIM_EVID_PROD) ≤ s.evidUnits) :
    s.evidFree v =
      (if (s.setObj Obj.NIM_EVID_FREE (v : Int)).evidUsed + (s.setObj Obj.NIM_EVID_FREE (v : Int)).evidReserve <
          (s.setObj Obj.NIM_EVID_FREE (v : Int)).evidUnits then
        { s.setObj Obj.NIM_EVID_FREE (v : Int) with nim := { (s.setObj Obj.NIM_EVID_FREE (v : Int)).nim with fullRaised := false } }
      else s.setObj Obj.NIM_EVID_FREE (v : Int), 0) := if_neg h.not_gt

theorem State.verdictDue_of_ended {s : State} {j : Job} (hj : s.nimJob = some j) (hb : j.bands ≤ (s.pageOf j.id).bands)
    (hst : j.st = .fired)
    (ho : (s.nimCams j).any (fun c => (s.cam c).frames.any (fun f => f.job == j.id && !f.closed)) = false) :
    s.verdictDue = s.flushStats.postVerdict j (s.pageOf j.id) := by
  simp only [State.verdictDue, hj, hb.not_gt, hst, ho, BEq.rfl, Bool.true_or, Bool.not_true, Bool.false_eq_true, or_self, if_false]

end Sys2Proof.Machine

namespace Sys2Proof
open Machine

/-- Settles O23: each command's guards are the hypotheses of its clause. -/
theorem nimbusJudges : Obligations.NimbusJudges := by
  unfold Obligations.NimbusJudges
  refine ⟨?_, ?_, ?_, ?_⟩
  · intro j s hj hpage p k l1 hk hseen
    refine ⟨fun hr => congrArg Host.Outcome.next ?_, fun hr => ?_⟩
    · simp only [p, k, l1] at hk hseen hr
      simp only [State.bandDone, hj, hpage, hk.not_ge, hseen, hr, Bool.not_true, Bool.not_false, Bool.false_eq_true, or_self, if_false,
        if_true, p, k, l1]
    · intro seen b observed probes s1
      refine congrArg Host.Outcome.next ?_
      simp only [p, k, l1] at hk hseen hr
      simp only [State.bandDone, hj, hpage, hk.not_ge, hseen, hr, Bool.not_true, Bool.false_eq_true, or_self, if_false, if_true,
        p, k, l1, seen, b, observed, probes, s1]
  · intro j s hj hb hst ho
    exact congrArg Host.Outcome.next (State.verdictDue_of_ended hj hb hst ho)
  · intro i b s hb hd h2 s1 x f
    refine congrArg Host.Outcome.next ?_
    have hg : ¬(false = true ∨ i.val = 2 ∧ (!s1.ready 10) = true) := by
      rintro (h | ⟨hi, hr⟩)
      · exact absurd h (by decide)
      · rw [show s1.ready 10 = true from h2 hi] at hr
        exact absurd hr (by decide)
    simp only [s1] at hg
    simp only [State.streamBlock, hb, hd, hg, if_false, s1, x, f]
  · intro c v s hp u hr u1
    have hrun := State.evidFree_of_range hr
    refine ⟨congrArg Host.Outcome.next (State.numCmd_word Obj.kind_NIM_EVID_FREE v.isLt hp fun l =>
      (State.writeRule_NIM_EVID_FREE u c _ _ l).trans ?_), ?_⟩
    · rw [Int.toNat_natCast, hrun]
    · rw [hrun]
      exact (ite_eq_or_eq _ _ _).symm

end Sys2Proof
end

section
/-! PROOF. Calibration: due units, runs and their results, retries, proposals and restoring (chapter 12). -/

namespace Sys2Proof.Machine

/-- A unit that is due and able to run starts its run. -/
theorem State.calDue_of_due {s : State} {cls inst : Nat} (he : calExists cls inst = true) (hst : s.calState cls inst = 1)
    (hr : (s.calUnit cls inst).retryAt = none) (hruns : s.calRuns cls inst = true) :
    s.calDue cls inst = s.calStart cls inst := by
  simp only [State.calDue, he, hst, hr, hruns, Option.isSome_none, show ¬2 ≤ 1 by decide, true_or, decide_true, Bool.not_true,
    Bool.false_eq_true, or_self, if_false, if_true]

theorem State.calRunSet_of_idle {s : State} {v : Nat} (he : calExists (field v 24 8) (field v 0 16) = true) (hz : field v 16 8 = 0)
    (hr : s.ready (calDomain (field v 24 8) (field v 0 16)) = true)
    (hl : field v 24 8 = 1 → bitAt (s.objN (Obj.LANE_STATUS (field v 0 16))) lnLocked = true)
    (hst : s.calState (field v 24 8) (field v 0 16) < 2) :
    s.calRunSet v = ((s.setCalState (field v 24 8) (field v 0 16) 1).setCalUnit (field v 24 8) (field v 0 16)
      { s.calUnit (field v 24 8) (field v 0 16) with retryAt := none }, 0) := by
  have hg : ¬(field v 24 8 = 1 ∧ (!bitAt (s.objN (Obj.LANE_STATUS (field v 0 16))) lnLocked) = true) := by
    rintro ⟨h1, h2⟩
    rw [hl h1] at h2
    exact absurd h2 (by decide)
  simp only [State.calRunSet, he, hz, hr, hg, hst.not_ge, Bool.not_true, Bool.false_eq_true, ne_eq, not_true, or_self, if_false]

/-- A lane's or a subchannel's run that ends while the unit is running gives its result. -/
theorem State.calComplete_of_running {s : State} {cls inst : Nat} {r : List Int} (hc : cls = 1 ∨ cls = 2)
    (he : calExists cls inst = true) (hst : 2 ≤ s.calState cls inst) : s.calComplete cls inst r = s.calResult cls inst r := by
  have h4 : cls ≠ 4 := by omega
  have h3 : cls ≠ 3 := by omega
  simp only [State.calComplete, h4, h3, he, hst.not_gt, Bool.not_true, Bool.false_eq_true, or_self, if_false]

theorem State.calRetry_of_due {s : State} {cls inst t : Nat} (hr : (s.calUnit cls inst).retryAt = some t) (ht : t ≤ s.now)
    (hruns : s.calRuns cls inst = true) : s.calRetry cls inst = s.calStart cls inst := by
  simp only [State.calRetry, hr, ht, hruns, and_self, if_true]

theorem State.calRejectSet_of_standing {s : State} {q : Nat} {p : Proposal} (h : s.proposal? q = some p) :
    s.calRejectSet q = (s.withdraw (fun x => x.seq == q), 0) := by
  simp only [State.calRejectSet, h]

theorem State.calExpire_of_lapsed {s : State} {q : Nat} (h : s.proposal? q = none) :
    s.calExpire q = s.withdraw (fun x => x.seq == q) := by
  simp only [State.calExpire, h, Option.isSome_none, Bool.false_eq_true, if_false]

end Sys2Proof.Machine

namespace Sys2Proof
open Machine

/-- Settles O24: a write comes to its object's rule, whose guards, like every other command's, are its clause's hypotheses. -/
theorem calibrationRuns : Obligations.CalibrationRuns := by
  unfold Obligations.CalibrationRuns
  refine ⟨?_, ?_, ?_, ?_, ?_, ?_, ?_, ?_⟩
  · intro cls inst s he hst hr hruns
    exact congrArg Host.Outcome.next (State.calDue_of_due he hst hr hruns)
  · intro c v s hp u cls inst he hz hr hl hst
    exact congrArg Host.Outcome.next (State.numCmd_word Obj.kind_CAL_RUN v.isLt hp fun l =>
      (State.writeRule_CAL_RUN u c _ _ l).trans (State.calRunSet_of_idle he hz hr hl hst))
  · intro cls inst r s hc he hst hruns
    have hrun := State.calComplete_of_running (r := r) hc he hst
    refine ⟨fun hf => ?_, fun a hf hd ha => ?_⟩
    · refine congrArg Host.Outcome.next (hrun.trans ?_)
      simp only [State.calResult, hruns, hf, Bool.not_true, Bool.false_eq_true, if_false]
    · refine congrArg Host.Outcome.next (hrun.trans ?_)
      simp only [State.calResult, hruns, hf, hd, ha, Bool.not_true, Bool.false_eq_true, if_false, if_true]
  · intro cls inst t s hr ht hruns
    exact congrArg Host.Outcome.next (State.calRetry_of_due hr ht hruns)
  · intro c v p s hp u hq u1
    have hrun : ∀ {t : State}, u.calAcceptSet v.toNat = (t, 0) →
        exec (.calAccept c v) s = .next (t.written Obj.CAL_ACCEPT (le 4 v.toNat)) := fun ht =>
      congrArg Host.Outcome.next (State.numCmd_word Obj.kind_CAL_ACCEPT v.isLt hp fun l =>
        (State.writeRule_CAL_ACCEPT u c _ _ l).trans ht)
    refine ⟨fun h5 => hrun ?_, fun h5 => hrun ?_⟩
    · simp only [State.calAcceptSet, hq, h5, if_false, u1]
    · simp only [State.calAcceptSet, hq, h5, if_true, u1]
  · intro c v p s hp hq
    exact congrArg Host.Outcome.next (State.numCmd_word Obj.kind_CAL_REJECT v.isLt hp fun l =>
      (State.writeRule_CAL_REJECT _ c _ _ l).trans (State.calRejectSet_of_standing hq))
  · intro q s hq
    exact congrArg Host.Outcome.next (State.calExpire_of_lapsed hq)
  · intro c d l s hp hlen h0 h4 h12 hl x
    refine congrArg Host.Outcome.next (State.tableCmd_written hp Obj.kind_CAL_RESTORE (.inr (.inl rfl)) fun sp => ?_)
    refine (State.writeRule_CAL_RESTORE _ c _ _ sp).trans ?_
    simp only [State.calRestoreSet, hlen.not_gt, h0, h4, h12, hl, ne_eq, not_true, or_self, if_false, x]

end Sys2Proof
end

section
/-! PROOF. Cirrus: anchors, the PTP slots and the preferred source (chapter 13). -/

namespace Sys2Proof.Machine

theorem State.timeAnchorDue_cons {s : State} {a : Bytes} {l : List Bytes} (h : s.time.anchors = a :: l) :
    s.timeAnchorDue = ({ s with time := { s.time with anchors := l } } : State).postAnchor a := by
  simp only [State.timeAnchorDue, h]

theorem State.ptpTimeout_of_silent {s : State} {d : Nat} (hst : (s.ptp d).state = ptpUncal ∨ (s.ptp d).state = ptpLocked)
    (ht : (s.ptp d).lastNs + s.objN (Obj.PTP_LOSS_MS d) * msNs ≤ s.now) : s.ptpTimeout d = s.ptpLose d 1 none := if_pos ⟨hst, ht⟩

theorem State.timePrefSet_of_locked {s : State} {v : Nat} (h : s.srcLocked v = true) :
    s.timePrefSet v = ((s.setObj Obj.TIME_PREF (v : Nat)).switchSource v, 0) := by
  simp only [State.timePrefSet, h, Bool.not_true, Bool.false_eq_true, if_false]

end Sys2Proof.Machine

namespace Sys2Proof
open Machine

/-- Settles O25: each command's guards are the hypotheses of its clause; a measurement is far or near by its slot's filter. -/
theorem ptpSourcesFeed : Obligations.PtpSourcesFeed := by
  unfold Obligations.PtpSourcesFeed
  refine ⟨?_, ?_, ?_, ?_, ?_⟩
  · intro a l s h
    exact congrArg Host.Outcome.next (State.timeAnchorDue_cons h)
  · intro d m s hen hport take
    refine ⟨fun hm => congrArg Host.Outcome.next ?_, fun o hm hid hbetter => congrArg Host.Outcome.next ?_⟩
    · simp only [State.ptpAnnounced, hen, hport, hm, Bool.not_true, Bool.false_eq_true, or_self, if_false, take]
    · simp only [State.ptpAnnounced, hen, hport, hm, hid, hbetter, Bool.not_true, Bool.false_eq_true, or_self, false_and, if_false, take]
  · intro d m s hen hport hmaster hst theta
    have hm : (s.ptp d.val).master.isNone = false := by
      rw [← Option.not_isSome, hmaster, Bool.not_true]
    refine ⟨fun f hf hfar => congrArg Host.Outcome.next ?_, fun hnear => ?_⟩
    · simp only [theta] at hfar
      simp only [State.ptpMeasure, hen, hport, hm, hst, hf, hfar, decide_true, Bool.not_true, Bool.false_eq_true, or_self, if_false,
        if_true]
    · intro s1
      refine congrArg Host.Outcome.next ?_
      cases hf : (s.ptp d.val).filt with
      | none =>
        simp only [State.ptpMeasure, hen, hport, hm, hst, hf, Bool.not_true, Bool.false_eq_true, or_self, if_false, s1, theta]
      | some f =>
        have hfar := (hnear f hf).not_gt
        simp only [theta] at hfar
        simp only [State.ptpMeasure, hen, hport, hm, hst, hf, hfar, decide_false, Bool.not_true, Bool.false_eq_true, or_self, if_false,
          s1, theta]
  · intro d s hst ht
    exact congrArg Host.Outcome.next (State.ptpTimeout_of_silent hst ht)
  · intro c v s hp hl
    exact congrArg Host.Outcome.next (State.numCmd_byte Obj.kind_TIME_PREF v.isLt hp fun l =>
      (State.writeRule_TIME_PREF _ c _ _ l).trans (State.timePrefSet_of_locked hl))

end Sys2Proof
end

section
/-! PROOF. Cirrus: steps by the host and by the source, pulses in and out (chapter 13). -/

namespace Sys2Proof.Machine

theorem State.deferredStep_of_may {s : State} (hp : s.time.stepPending = true) (hm : s.mayStep = true) :
    s.deferredStep = s.sourceStep := by
  simp only [State.deferredStep, hp, hm, Bool.and_self, if_true]

theorem State.ppsLoss_of_silent {s : State} (hst : (s.ptp 2).state = ptpUncal ∨ (s.ptp 2).state = ptpLocked)
    (ht : (s.ptp 2).lastNs + 3 * nsPerSec / 2 ≤ s.now) : s.ppsLoss = s.ptpLose 2 1 none := if_pos ⟨hst, ht⟩

theorem State.ppsStart_of_due {s : State} {k : Nat}
    (hm : s.obj (Obj.PPS_OUT_MODE k) = 1 ∨ s.obj (Obj.PPS_OUT_MODE k) = 2 ∧ s.time.state = 2) (he : s.ppsEnd k = 0)
    (hs : s.passesSecond (s.obj (Obj.PPS_OUT_OFFSET k)) = true) : s.ppsStart k =
      { s with time := { s.time with ppsOut := Tab.set 0 s.time.ppsOut k (s.now + s.objN (Obj.PPS_OUT_WIDTH k)) } } :=
  if_pos ⟨hm, he, hs⟩

theorem State.ppsStop_of_ended {s : State} {k : Nat} (h : s.ppsEnd k ≤ s.now) :
    s.ppsStop k = { s with time := { s.time with ppsOut := Tab.set 0 s.time.ppsOut k 0 } } := if_pos h

end Sys2Proof.Machine

namespace Sys2Proof
open Machine

/-- Settles O26: each command's guards are the hypotheses of its clause. -/
theorem timeStepsAndPulses : Obligations.TimeStepsAndPulses := by
  unfold Obligations.TimeStepsAndPulses
  refine ⟨?_, ?_, ?_, ?_, ?_, ?_⟩
  · intro c d s hp hlen h6 h8 u t x hx hm
    refine congrArg Host.Outcome.next (State.tableCmd_written hp Obj.kind_TIME_STEP (by decide) fun l => ?_)
    refine (State.writeRule_TIME_STEP u c _ _ l).trans ?_
    simp only [x, t] at hx
    simp only [State.hostStep, hlen, h6, h8.not_ge, hx.not_ge, hm, Bool.not_true, Bool.false_eq_true, ne_eq, not_true, or_self, if_false,
      x, t]
  · intro s hp hm
    exact congrArg Host.Outcome.next (State.deferredStep_of_may hp hm)
  · intro s hen t ns err s1
    refine ⟨fun h0 => congrArg Host.Outcome.next ?_, fun h0 => congrArg Host.Outcome.next ?_⟩
    · exact (if_neg hen).trans (if_pos h0)
    · exact (if_neg hen).trans (if_neg h0)
  · intro s hst ht
    exact congrArg Host.Outcome.next (State.ppsLoss_of_silent hst ht)
  · intro k s hm he hs
    exact congrArg Host.Outcome.next (State.ppsStart_of_due hm he hs)
  · intro k s h
    exact congrArg Host.Outcome.next (State.ppsStop_of_ended h)

end Sys2Proof
end

section
/-! PROOF. Sessions: opening, authenticating, renewing and closing (chapter 14). -/

namespace Sys2Proof.Machine

/-- A command in an open session runs in it, renewed. -/
theorem State.inCmd_of_open {s : State} {c : Ctx} (hup : s.toaUp = true) (ho : (s.session? c.sess).isSome = true)
    (f : State → CmdOut) : s.inCmd c f = State.noteCmd (f (s.touch c)) := by
  have hn : (s.session? c.sess).isNone = false := by rw [← Option.not_isSome, ho, Bool.not_true]
  simp only [State.inCmd, hup, hn, Bool.not_true, Bool.false_eq_true, if_false]

/-- The note of a command without items: its status and body. -/
theorem State.noteCmd_plain (s : State) (st : Nat) (b : Bytes) :
    State.noteCmd { st := s, status := st, body := b } = s.setToa (fun t => { t with status := st, answer := b }) := by
  simp only [State.noteCmd, List.map_nil, List.flatten_nil, List.append_nil]

/-- A command of a session that runs to a status and a body. -/
theorem State.inCmd_plain {s t : State} {c : Ctx} {f : State → CmdOut} {st : Nat} {b : Bytes} (hup : s.toaUp = true)
    (ho : (s.session? c.sess).isSome = true) (hf : f (s.touch c) = { st := t, status := st, body := b }) :
    s.inCmd c f = t.setToa (fun a => { a with status := st, answer := b }) :=
  (State.inCmd_of_open hup ho f).trans ((congrArg State.noteCmd hf).trans (State.noteCmd_plain t st b))

/-- A slot that takes part in authentication is one of a card that is not scrapped. -/
theorem State.not_scrapped_of_usable {s : State} {k : Nat} (h : s.slotUsable k = true) : s.lifecycle ≠ lcScrapped :=
  bne_iff_ne.mp (Bool.and_eq_true_iff.mp h).2

theorem State.authBeginCmd_of_usable {s : State} {c : Ctx} {slot : Nat} {nonce : Bytes} (hs : slot ≤ 3)
    (hu : s.slotUsable slot = true) : s.authBeginCmd c slot nonce =
      { st := (s.draw 16).2.mapSession c.sess (fun y => { y with auth := some (slot, slice nonce 0 16, (s.draw 16).1) }),
        body := (s.draw 16).1 } := by
  simp only [State.authBeginCmd, State.not_scrapped_of_usable hu, hs.not_gt, hu, Bool.not_true, Bool.false_eq_true, if_false]

/-- With no session of the nonce and room for one more, OPEN appends a session under a free identifier. -/
theorem State.openCmd_of_new {s : State} {t seq : Nat} {nonce : Bytes}
    (hn : (s.toa.opens.filter (fun (e : Bytes × Nat × Nat) => decide (s.aclkNs ≤ e.2.2 + s.objN Obj.SESSION_IDLE_S * 10 ^ 9))).find?
      (fun (e : Bytes × Nat × Nat) => e.1 == nonce && (s.session? e.2.1).isSome) = none)
    (hroom : s.toa.sessions.length < 16) :
    let x := (s.setToa (fun a => { a with
      opens := s.toa.opens.filter (fun (e : Bytes × Nat × Nat) => decide (s.aclkNs ≤ e.2.2 + s.objN Obj.SESSION_IDLE_S * 10 ^ 9)) })).drawNat
    let id := (((List.range 512).map (fun i => (x.1 + i) % 2 ^ 32)).find? x.2.freeId).getD 1
    s.openCmd t seq nonce = { st := x.2.setToa (fun a => { a with
        sessions := a.sessions ++ [{ id := id, seqHi := seq, nonce := nonce, openNs := x.2.aclkNs, lastNs := x.2.aclkNs, transport := t }],
        opens := (nonce, id, x.2.aclkNs) :: a.opens }), body := le 4 id } := by
  intro x id
  have hroom' : ¬16 ≤ (s.setToa (fun a => { a with
      opens := s.toa.opens.filter (fun (e : Bytes × Nat × Nat) =>
        decide (s.aclkNs ≤ e.2.2 + s.objN Obj.SESSION_IDLE_S * 10 ^ 9)) })).toa.sessions.length := hroom.not_ge
  unfold State.openCmd
  dsimp only
  split
  next e he => exact absurd (hn.symm.trans he) (by simp)
  next => exact if_neg hroom'

/-- An open session that closes loses its rights and is retired. -/
theorem State.closeSession_of_open {s : State} {id : Nat} {x : Session} (hx : s.session? id = some x) (why : Nat) :
    s.closeSession id why = (s.dropRights id why).setToa (fun t => { t with
      sessions := t.sessions.filter (fun x => x.id != id), closed := (id :: t.closed).take 256 }) :=
  if_neg (by rw [hx]; exact Bool.false_ne_true)

theorem State.idleSession_due {s : State} {id : Nat} {x : Session} (hup : s.toaUp = true) (hx : s.session? id = some x)
    (hi : s.idleDue x = true) : (s.toaUp && (s.session? id).any s.idleDue) = true := by
  rw [hup, hx, Option.any_some, hi, Bool.and_self]

end Sys2Proof.Machine

namespace Sys2Proof
open Machine

/-- Settles O27: each command's guards are the hypotheses of its clause. -/
theorem sessionsServe : Obligations.SessionsServe := by
  unfold Obligations.SessionsServe
  refine ⟨?_, ?_, ?_, ?_, ?_, ?_, ?_⟩
  · intro t seq nonce s hup fresh hn hroom x u
    refine ⟨_, rfl, congrArg Host.Outcome.next ((if_pos hup).trans ?_)⟩
    exact (congrArg State.noteCmd (State.openCmd_of_new hn hroom)).trans (State.noteCmd_plain ..)
  · intro c s hup ho
    exact congrArg Host.Outcome.next (State.inCmd_plain hup ho rfl)
  · intro c slot nonce s hup ho hs hu x
    exact congrArg Host.Outcome.next (State.inCmd_plain hup ho (State.authBeginCmd_of_usable hs hu))
  · intro c proof s x slot nh nd hup ho hx ha u hu
    simp only [u] at hu
    refine ⟨fun hproof hheld => ?_, fun hproof => ?_⟩
    · intro y
      refine congrArg Host.Outcome.next (State.inCmd_plain hup ho ?_)
      simp only [u] at hproof hheld
      simp only [State.authFinishCmd, hx, ha, hu, hproof, hheld, Bool.not_true, Bool.false_eq_true, ne_eq, not_true, if_false, u, y]
    · intro n u1
      refine congrArg Host.Outcome.next (State.inCmd_plain hup ho ?_)
      simp only [u] at hproof
      simp only [State.authFinishCmd, hx, ha, hu, hproof, Bool.not_true, Bool.false_eq_true, ne_eq, not_false_iff, if_false, if_true,
        n, u, u1]
  · intro c s hup ho
    exact congrArg Host.Outcome.next (State.inCmd_plain hup ho rfl)
  · intro id x s hup hx hi
    exact congrArg Host.Outcome.next ((if_pos (State.idleSession_due hup hx hi)).trans (State.closeSession_of_open hx 4))
  · intro x s hup hx
    refine congrArg Host.Outcome.next ?_
    simp only [State.lapseDue, hup, hx, if_true]

end Sys2Proof
end

section
/-! PROOF. Object access: reads, writes, blocks, commits and discards (chapter 14). -/

namespace Sys2Proof.Machine

/-- A command of items runs them in order in its session. -/
theorem State.itemRow_of_open {s : State} {c : Ctx} {cmd : Nat} {l : List Item} (hup : s.toaUp = true)
    (ho : (s.session? c.sess).isSome = true) (hl : itemsOk cmd l = true) :
    s.itemRow cmd c l = State.noteCmd (runItems cmd c ((s.touch c).bodyRoom c.sess ((s.touch c).rspLimit c.transport) - 8) (s.touch c)
      ((s.touch c).bodyRoom c.sess ((s.touch c).rspLimit c.transport)) [] none l) := by
  refine (State.inCmd_of_open hup ho _).trans (congrArg State.noteCmd ?_)
  simp only [State.itemCmd, hl, Bool.not_true, Bool.false_eq_true, if_false]

/-- Only READ and READ_SHADOW ask anything of the form of their items. -/
theorem itemsOk_of_other {cmd : Nat} (h : (cmd == 0x10 || cmd == 0x12) = false) (l : List Item) : itemsOk cmd l = true := by
  simp only [itemsOk, h, Bool.not_false, Bool.true_or, List.all_eq_true, implies_true]

/-- A COMMIT with nothing staged is OK and makes no set. -/
theorem State.commitCmd_of_empty {s : State} {c : Ctx} {x : Session} (hx : s.session? c.sess = some x) (hs : x.staging = []) :
    s.commitCmd c = { st := s, body := zeros 8 } := by
  simp only [State.commitCmd, hx, hs, Option.map_some, Option.getD_some]

theorem classes_agree {k : Staged} {l : List Staged} (h : l.all (fun z => keyClass z.key == keyClass k.key) = true) :
    (k :: l).any (fun z => keyClass z.key != keyClass k.key) = false := by
  rw [List.any_cons, bne_self_eq_false, Bool.false_or, List.any_eq_false]
  intro z hz
  rw [bne, List.all_eq_true.mp h z hz]
  exact Bool.false_ne_true

/-- The answer of an item beyond the room left is BUSY, and no item is executed from there on. -/
theorem runItems_cons_of_full {cmd whole left : Nat} {c : Ctx} {acc : List ItemRes} {pos : Option Nat} {i : Item} {l : List Item}
    {s : State} (h : left - 8 * l.length < (runItem cmd c whole (left - 8 * l.length) s i).2.bytes.length) :
    runItems cmd c whole s left acc pos (i :: l) =
      { st := s, items := acc ++ (i :: l).map (fun j => itemOf j 0x0A j.ty []), pos := pos } := if_pos h

/-- An item whose answer fits, and that asks for no fall, is followed by the next. -/
theorem runItems_cons_of_fits {cmd whole left : Nat} {c : Ctx} {acc : List ItemRes} {pos : Option Nat} {i : Item} {l : List Item}
    {s : State} (h : (runItem cmd c whole (left - 8 * l.length) s i).2.bytes.length ≤ left - 8 * l.length)
    (ha : (runItem cmd c whole (left - 8 * l.length) s i).1.pwr.asked = true → s.pwr.asked = true) :
    runItems cmd c whole s left acc pos (i :: l) =
      runItems cmd c whole (runItem cmd c whole (left - 8 * l.length) s i).1
        (left - (runItem cmd c whole (left - 8 * l.length) s i).2.bytes.length)
        (acc ++ [(runItem cmd c whole (left - 8 * l.length) s i).2]) pos l := by
  have hn : (!s.pwr.asked && (runItem cmd c whole (left - 8 * l.length) s i).1.pwr.asked) = false := by
    cases hs : s.pwr.asked with
    | true => rfl
    | false => exact Bool.eq_false_iff.mpr fun hx => absurd (hs.symm.trans (ha hx)) Bool.false_ne_true
  refine (if_neg h.not_gt).trans ?_
  simp only [hn, Bool.false_eq_true, if_false]

end Sys2Proof.Machine

namespace Sys2Proof
open Machine

/-- Settles O28: each command's guards are the hypotheses of its clause. -/
theorem objectCommandsServe : Obligations.ObjectCommandsServe := by
  unfold Obligations.ObjectCommandsServe
  refine ⟨?_, ?_, ?_, ?_, ?_, ?_, ?_, ?_⟩
  · intro c l s hup ho hl u room
    exact congrArg Host.Outcome.next (State.itemRow_of_open hup ho hl)
  · intro c l s hup ho u room
    exact congrArg Host.Outcome.next (State.itemRow_of_open hup ho (itemsOk_of_other rfl l))
  · intro c l s hup ho hl u room
    exact congrArg Host.Outcome.next (State.itemRow_of_open hup ho hl)
  · intro c l s hup ho u room
    exact congrArg Host.Outcome.next (State.itemRow_of_open hup ho (itemsOk_of_other rfl l))
  · intro c l s hup ho u room
    exact congrArg Host.Outcome.next (State.itemRow_of_open hup ho (itemsOk_of_other rfl l))
  · intro cmd c whole left acc pos i l s x
    exact ⟨runItems_cons_of_full, runItems_cons_of_fits⟩
  · intro c s hup ho u
    refine ⟨fun x hx hs => ?_, fun x y l hx hs hcls hgains hpend => ?_⟩
    · exact congrArg Host.Outcome.next (State.inCmd_plain hup ho (State.commitCmd_of_empty hx hs))
    · intro n set
      refine congrArg Host.Outcome.next (State.inCmd_plain hup ho ?_)
      simp only [u] at hx hgains hpend
      simp only [State.commitCmd, hx, hs, hgains, hpend.not_ge, classes_agree hcls, Option.map_some, Option.getD_some, Bool.or_self,
        Bool.false_eq_true, if_false, u, n, set]
  · intro c s hup ho
    exact congrArg Host.Outcome.next (State.inCmd_plain hup ho rfl)

end Sys2Proof
end

section
/-! PROOF. The transports of object access, sets taking effect, and the Ethernet ports' objects (chapters 14 and 15). -/

namespace Sys2Proof.Machine

theorem State.toaReceive_of_ethernet {s : State} {t : Nat} {f : Bytes} (hup : s.toaUp = true) (ht : t ≤ 1) (hen : s.enUp t = true) :
    s.toaReceive t f = (s.enCount t true).serve { transport := t, limit := s.objN Obj.TOA_MAX_FRAME } (s.objN Obj.TOA_MAX_FRAME) f := by
  simp only [State.toaReceive, hup, ht, hen, Bool.not_true, Bool.false_eq_true, if_false, if_true]

theorem State.toaReceive_of_host {s : State} {t : Nat} {f : Bytes} (hup : s.toaUp = true) (ht : 1 < t) :
    s.toaReceive t f = s.serve { transport := t, limit := 65536 } 65536 f := by
  simp only [State.toaReceive, hup, ht.not_ge, Bool.not_true, Bool.false_eq_true, if_false]

theorem State.request_of_bad {s : State} {t m n : Nat} {f : Bytes} (h : toaFrameOk f = false) :
    s.request t m n f = { st := s.count Obj.TOA_CRC_ERR_CNT 1, cause := 1 } := by
  simp only [State.request, h, Bool.not_false, if_true]

/-- A frame that fails its check has no answer. -/
theorem State.serve_of_bad {s : State} {t m n : Nat} {f : Bytes} (h : toaFrameOk f = false) :
    s.serve { transport := t, limit := m } n f = s.count Obj.TOA_CRC_ERR_CNT 1 := by
  simp only [State.serve, State.request_of_bad h, State.respond, Bool.false_eq_true, if_false, if_true]

/-- The answer of a request that does not wait is sent at once. -/
theorem State.serve_of_answer {s : State} {t m n : Nat} {f r : Bytes} (hw : (s.request t n m f).waits = false)
    (hr : (s.request t n m f).frame = some r) :
    s.serve { transport := t, limit := m } n f = (s.request t n m f).st.emit (.toa t r) := by
  simp only [State.serve, hw, hr, State.respond, Bool.false_eq_true, if_false, if_true]

theorem State.mailbox_of_descriptor {s : State} {q : Nat} {f d : Bytes} (hup : s.toaUp = true)
    (hd : s.headOfType (60 + q) 0x40 = some d) (h4 : mbSizeOk (getN d 4 4) = true) (h24 : mbSizeOk (getN d 24 4) = true) :
    s.mailbox q (some f) = (s.consume (60 + q)).serve
      { transport := 2, limit := getN d 24 4, ring := q, addr := getN d 16 8, tag := getN d 28 8, direct := false } 65536
      (slice f 0 (getN d 4 4)) := by
  simp only [State.mailbox, hup, hd, h4, h24, Bool.not_true, Bool.or_self, Bool.false_eq_true, if_false, if_true]

/-- A doorbell of the window with an idle mailbox and a possible length serves the frame in it. -/
theorem State.windowBell_of_idle {s : State} {len : Nat} (hup : s.toaUp = true) (hb : s.hq.mbBusy = false) (hl : mbSizeOk len = true) :
    s.windowBell len = ({ s with hq := { s.hq with mbBusy := true, mbDone := false } } : State).serve
      { transport := 3, limit := 65536, direct := false } 65536 ((List.range len).map (Tab.get (0 : Byte) s.hq.windowReq)) := by
  simp only [State.windowBell, hup, hb, hl, Bool.not_true, Bool.or_self, Bool.false_eq_true, if_false]

/-- Every bar a set touches is idle. -/
theorem State.bars_idle {s : State} {c : CommitSet} (h : ∀ b, b < 8 → bitAt c.bars b = true → s.barIdle b = true) :
    (List.range 8).all (fun b => !bitAt c.bars b || s.barIdle b) = true := by
  rw [List.all_eq_true]
  intro b hb
  cases hc : bitAt c.bars b with
  | false => rfl
  | true => exact h b (List.mem_range.mp hb) hc

/-- An IDLE set without slots and enables takes effect by its values alone. -/
theorem State.idleSet_of_plain {s : State} {c : CommitSet} (hidle : ∀ b, b < 8 → bitAt c.bars b = true → s.barIdle b = true)
    (ho : s.earlierOverlap c = false) (hg : s.gainsBad c.items = false)
    (hs : c.items.any (fun x => x.key == Obj.FFY_SLOT_NS || x.key == Obj.FFY_ROTATE) = false)
    (he : c.items.filter (fun x => x.key % 256 == 1 && x.key / 256 % 0x100 == 0 && decide (x.key / 256 / 0x1000 = 3)) = []) :
    s.idleSet c = (c.items.foldl (fun s x => s.setValue x.key x.bytes) s).finishSet c.number 3 := by
  simp only [State.idleSet, State.bars_idle hidle, ho, hg, hs, he, Bool.not_true, Bool.or_self, Bool.false_eq_true, if_false,
    List.foldl_nil]

theorem State.no_camera_acquires {s : State} (h : ∀ i, i < 4 → s.obj (Obj.CAM_STATE i) ≠ 3) :
    (List.range 4).all (fun i => s.obj (Obj.CAM_STATE i) != 3) = true :=
  List.all_eq_true.mpr fun i hi => bne_iff_ne.mpr (h i (List.mem_range.mp hi))

/-- An accepted write of an Ethernet port's object, journaled where it changes the value. -/
theorem State.writeRule_en {s : State} {c : Ctx} {p sub ty : Nat} {a : Obj.Acc} {b : Bool} {v : Int} {d : Bytes} {l : Spans}
    (hp : p < 2) (hsub : sub < 256) (hk : Obj.kind ((0x1110 + p) * 256 + sub) = some (ty, a, b))
    (hr : s.enRefusal p sub v.toNat d = 0) :
    s.writeRule c ((0x1110 + p) * 256 + sub) v d l =
      (if s.value ((0x1110 + p) * 256 + sub) = d then s.setValue ((0x1110 + p) * 256 + sub) d
        else (s.setValue ((0x1110 + p) * 256 + sub) d).journal 0x0A (objListEntry ((0x1110 + p) * 256 + sub) ty d), 0) := by
  have hidx : ((0x1110 + p) * 256 + sub) / 256 = 0x1110 + p := by omega
  have hlow : 0x1110 + p < 0x3000 := by omega
  have hen : 0x1110 + p = 0x1110 ∨ 0x1110 + p = 0x1111 := by omega
  have hport : 0x1110 + p - 0x1110 = p := by omega
  have hmod : ((0x1110 + p) * 256 + sub) % 256 = sub := by omega
  simp only [State.writeRule, hidx, hlow, if_true, State.writeEngine, hen, hport, State.writeEn, hmod, hr, ne_eq, not_true, if_false,
    Obj.kind_type hk, beq_iff_eq]

end Sys2Proof.Machine

namespace Sys2Proof
open Machine

/-- Settles O29: each command's guards are the hypotheses of its clause. -/
theorem transportsServe : Obligations.TransportsServe := by
  unfold Obligations.TransportsServe
  refine ⟨?_, ?_, ?_, ?_, ?_⟩
  · intro t f s hup
    refine ⟨fun ht hen => ?_, fun ht => ?_, fun ht hbad => ?_, fun ht hw r hr => ?_⟩
    · exact congrArg Host.Outcome.next (State.toaReceive_of_ethernet hup ht hen)
    · exact congrArg Host.Outcome.next (State.toaReceive_of_host hup ht)
    · exact congrArg Host.Outcome.next ((State.toaReceive_of_host hup ht).trans (State.serve_of_bad hbad))
    · exact congrArg Host.Outcome.next ((State.toaReceive_of_host hup ht).trans (State.serve_of_answer hw hr))
  · intro q f d s hup hd h4 h24 dest
    exact congrArg Host.Outcome.next (State.mailbox_of_descriptor hup hd h4 h24)
  · intro len s hlink hready hboot hbusy hlo hhi
    have hup : s.toaUp = true := Bool.and_eq_true_iff.mpr ⟨hboot, hready⟩
    have hlen : mbSizeOk len.toNat = true := by simp only [mbSizeOk, hlo, hhi, decide_true, Bool.and_self]
    exact congrArg Host.Outcome.next ((State.onBar_of_ready hlink hready _ _ _).trans (State.windowBell_of_idle hup hbusy hlen))
  · intro n c s hc
    refine ⟨fun hcls hpass hbound => ?_, fun hcls hidle ho hg hs he => ?_, fun hcls hnim ho hcam j hj => ?_⟩
    · refine congrArg Host.Outcome.next ?_
      simp only [State.takeEffect, hc, hcls, hpass, hbound, and_self, if_true]
    · refine congrArg Host.Outcome.next (Eq.trans ?_ (State.idleSet_of_plain hidle ho hg hs he))
      simp only [State.takeEffect, hc, hcls, OfNat.ofNat_ne_one, if_false, if_true]
    · refine congrArg Host.Outcome.next ?_
      simp only [State.takeEffect, hc, hcls, hnim, ho, hj, State.no_camera_acquires hcam, OfNat.ofNat_ne_one, show ¬3 = 2 by decide,
        Bool.not_false, and_self, if_false, if_true]
  · intro c p sub ty d s k hk hp u hr
    by_cases h13 : ty = 13
    · subst h13
      exact congrArg Host.Outcome.next (State.tableCmd_written hp hk (.inr (.inr rfl)) fun l =>
        State.writeRule_en p.isLt sub.isLt hk hr)
    · have hu : u = s.touch c := if_neg h13
      rw [hu] at hr ⊢
      exact congrArg Host.Outcome.next (State.objCmd_written hp hk h13 (.inr (.inr rfl)) fun l =>
        State.writeRule_en p.isLt sub.isLt hk hr)

end Sys2Proof
end

section
/-! PROOF. Power: requests, falls and rises, late domains, AVS and the regulator's alert (chapter 23). -/

namespace Sys2Proof.Machine

/-- A request for a power state of its own that finds none running starts one, or is met at once. -/
theorem State.pwrTargetSet_of_free {s : State} {v : Nat} (hm : v % 128 ≤ 4) (hf : 128 ≤ v → v % 128 = pwOff)
    (hr : s.pwrRunning = false) :
    s.pwrTargetSet v = if v % 128 = s.pwState then (s.setObj Obj.PWR_TARGET (v : Nat), 0)
      else (((s.setObj Obj.PWR_TARGET (v : Nat)).setBit Obj.PWR_STATUS 2 true).setPwr (fun p => { p with
        ctrl := v % 128 + (if 128 ≤ v then 2 ^ 31 else 0),
        asked := decide (((s.setObj Obj.PWR_TARGET (v : Nat)).setBit Obj.PWR_STATUS 2 true).pwState < v % 128) }), 0) := by
  have hg : ¬(128 ≤ v ∧ v % 128 ≠ pwOff) := fun h => h.2 (hf h.1)
  simp only [State.pwrTargetSet, hm.not_gt, hg, hr, Bool.false_eq_true, or_self, if_false]

/-- A request and its running mark leave PWR_STATE alone. -/
theorem State.pwState_of_requested (s : State) (v : Int) :
    ((s.setObj Obj.PWR_TARGET v).setBit Obj.PWR_STATUS 2 true).pwState = s.pwState := by
  simp only [State.pwState, State.objN, State.setBit, State.obj_setObj]
  rfl

/-- A transition that nobody waits for. -/
theorem State.transitionAnswered_of_unasked {s : State} (ha : s.pwr.asked = false) (late : Option Nat) :
    s.transitionAnswered late = s.transition late := by
  simp only [State.transitionAnswered, ha, Bool.and_false, Bool.false_eq_true, if_false]

/-- A transition whose requester waits is answered by what it comes to. -/
theorem State.transitionAnswered_of_asked {s : State} (hr : s.pwrRunning = true) (hn : s.pwr.rising = none) (ho : s.pwr.off = false)
    (ha : s.pwr.asked = true) (late : Option Nat) :
    s.transitionAnswered late = (s.answerOwed (s.transition late).fallStatus).transition late := by
  simp only [State.transitionAnswered, hr, hn, ho, ha, Option.isNone_none, Bool.not_false, Bool.and_self, if_true]

/-- What a request that runs comes to: OFF by force, a fall, or a rise. -/
theorem State.transition_of_running {s : State} (hr : s.pwrRunning = true) (hn : s.pwr.rising = none) (ho : s.pwr.off = false)
    (late : Option Nat) : s.transition late =
      if bitAt s.pwr.ctrl 31 then s.forcedOff
      else if s.pwState < field s.pwr.ctrl 0 3 then s.fall (field s.pwr.ctrl 0 3) late else s.rise (field s.pwr.ctrl 0 3) 1 := by
  simp only [State.transition, hr, hn, ho, Option.isSome_none, Bool.not_true, Bool.false_eq_true, or_self, if_false]

/-- A domain that a fall asks is one of a running request for a lower power state. -/
theorem State.falls_of_fallAsks {s : State} {d : Nat} (h : s.fallAsks d = true) :
    s.pwrRunning = true ∧ bitAt s.pwr.ctrl 31 = false ∧ s.pwState < field s.pwr.ctrl 0 3 := by
  simp only [State.fallAsks, Bool.and_eq_true, Bool.not_eq_true', decide_eq_true_eq] at h
  obtain ⟨⟨⟨⟨hr, hb⟩, hlt⟩, -⟩, -⟩ := h
  exact ⟨hr, hb, hlt⟩

end Sys2Proof.Machine

namespace Sys2Proof
open Machine

/-- Settles O30: a request by its write, a transition by its running request, AVS by the distance from its goal. -/
theorem powerStates : Obligations.PowerStates := by
  unfold Obligations.PowerStates
  refine ⟨?_, ?_, ?_, ?_, ?_⟩
  · intro c v s hp u hm hf hr
    have hrun : ∀ {t : State}, u.pwrTargetSet v.toNat = (t, 0) →
        exec (.pwrTarget c v) s = .next (t.written Obj.PWR_TARGET (le 1 v.toNat)) := fun ht =>
      congrArg Host.Outcome.next (State.numCmd_byte Obj.kind_PWR_TARGET v.isLt hp fun l =>
        (State.writeRule_PWR_TARGET u c _ _ l).trans ht)
    refine ⟨fun hne => hrun ?_, fun heq => hrun ?_⟩
    · refine (State.pwrTargetSet_of_free hm hf hr).trans ((if_neg hne).trans ?_)
      rw [State.pwState_of_requested]
    · exact (State.pwrTargetSet_of_free hm hf hr).trans (if_pos heq)
  · intro s hr hn ho
    have hrun : s.pwr.asked = false → s.transitionAnswered none = _ := fun ha =>
      (State.transitionAnswered_of_unasked ha none).trans (State.transition_of_running hr hn ho none)
    refine ⟨fun ha => ?_, fun ha hb hlt => ?_, fun ha hb hle => ?_, fun ha hb => ?_⟩
    · exact congrArg Host.Outcome.next (State.transitionAnswered_of_asked hr hn ho ha none)
    · exact congrArg Host.Outcome.next ((hrun ha).trans ((if_neg (by rw [hb]; exact Bool.false_ne_true)).trans (if_pos hlt)))
    · exact congrArg Host.Outcome.next ((hrun ha).trans ((if_neg (by rw [hb]; exact Bool.false_ne_true)).trans (if_neg hle.not_gt)))
    · exact congrArg Host.Outcome.next ((hrun ha).trans (if_pos hb))
  · intro d s hasks hn ho ha
    obtain ⟨hr, hb, hlt⟩ := State.falls_of_fallAsks hasks
    refine congrArg Host.Outcome.next ((if_pos hasks).trans ?_)
    refine (State.transitionAnswered_of_unasked ha _).trans ((State.transition_of_running hr hn ho _).trans ?_)
    exact (if_neg (by rw [hb]; exact Bool.false_ne_true)).trans (if_pos hlt)
  · intro s v w t hne hwait
    have hdiff : ((s.pwr.goal : Int) - (v : Int)).natAbs ≠ 0 := by omega
    have hg : ¬(((s.pwr.goal : Int) - (v : Int)).natAbs = 0 ∨
        10 < ((s.pwr.goal : Int) - (v : Int)).natAbs ∧ s.aclkNs < s.pwr.stepNs + 100000) := by
      rintro (h | ⟨h10, h⟩)
      · exact hdiff h
      · exact absurd (hwait h10) h.not_ge
    have ht : t.pwr.rising = s.pwr.rising := rfl
    refine ⟨fun hn => ?_, fun mode cause hn => ?_⟩
    · refine congrArg Host.Outcome.next ((if_neg hg).trans ?_)
      simp only [t, w, v] at ht
      simp only [ht, hn, t, w, v]
    · refine congrArg Host.Outcome.next ((if_neg hg).trans ?_)
      simp only [t, w, v] at ht
      simp only [ht, hn, t, w, v]
  · intro s x
    rfl

end Sys2Proof
end

section
/-! PROOF. Axes: the generator's sample, targets, stops and enables (chapter 16). -/

namespace Sys2Proof.Machine

@[simp] theorem State.ax_setAx_same (s : State) (x : Nat) (f : AxisSt → AxisSt) : (s.setAx x f).ax x = f (s.ax x) :=
  Tab.get_set_same _ _ _ _

@[simp] theorem State.ax_setObj (s : State) (k : Nat) (v : Int) (x : Nat) : (s.setObj k v).ax x = s.ax x := rfl

@[simp] theorem State.ax_condEnd (s : State) (code inst x : Nat) : (s.condEnd code inst).ax x = s.ax x := rfl

@[simp] theorem State.ax_emit (s : State) (o : Out) (x : Nat) : (s.emit o).ax x = s.ax x := rfl

@[simp] theorem State.ax_forward (s : State) (i : TwinItem) (x : Nat) : (s.forward i).ax x = s.ax x := by
  unfold State.forward State.twinSend
  split
  · split <;> rfl
  · rfl

@[simp] theorem State.slaved_setAx (s : State) (x : Nat) (f : AxisSt → AxisSt) (y : Nat) : (s.setAx x f).slaved y = s.slaved y := rfl

/-! ### The sample -/

/-- A sample within a plan: the state it leads to and the rest of the plan. -/
theorem State.axMove_within {s : State} {x : Nat} (h : ((s.ax x).kin.sample axDt (s.ax x).plan).2 ≠ []) :
    s.axMove x = s.setAx x (fun m => { m with
      p := ((s.ax x).kin.sample axDt (s.ax x).plan).1.p, v := ((s.ax x).kin.sample axDt (s.ax x).plan).1.v,
      a := ((s.ax x).kin.sample axDt (s.ax x).plan).1.a, plan := ((s.ax x).kin.sample axDt (s.ax x).plan).2 }) := by
  have he : ((s.ax x).kin.sample axDt (s.ax x).plan).2.isEmpty = false := by
    rw [Bool.eq_false_iff, ne_eq, List.isEmpty_iff]
    exact h
  simp only [State.axMove, he, Bool.false_eq_true, false_and, if_false]

/-- A change of an axis that leaves its commanded state alone. -/
theorem State.setAx_kin {s : State} {x : Nat} {f : AxisSt → AxisSt} (hf : ∀ m, (f m).kin = m.kin) :
    ((s.setAx x f).ax x).kin = (s.ax x).kin := by
  rw [State.ax_setAx_same]
  exact hf _

/-- Step pulses change the axis's step count and what is sent, and nothing else. -/
theorem State.stepOut_cases (s : State) (x : Nat) :
    s.stepOut x = s ∨ ∃ f : AxisSt → AxisSt, (∀ m, (f m).kin = m.kin ∧ (f m).plan = m.plan) ∧
      (s.stepOut x = s.setAx x f ∨ ∃ o, s.stepOut x = (s.setAx x f).emit o) := by
  unfold State.stepOut
  extract_lets m up dn n
  split
  · exact .inl rfl
  · refine .inr ⟨fun m => { m with steps := if 0 < up then m.steps + n else m.steps - n }, fun m => ⟨rfl, rfl⟩, ?_⟩
    split
    · exact .inr ⟨_, rfl⟩
    · exact .inl rfl

/-- Step pulses leave the commanded state and the plan alone. -/
theorem State.stepOut_keeps (s : State) (x : Nat) :
    ((s.stepOut x).ax x).kin = (s.ax x).kin ∧ ((s.stepOut x).ax x).plan = (s.ax x).plan ∧ (s.stepOut x).slaved x = s.slaved x := by
  obtain h | ⟨f, hf, h | ⟨o, h⟩⟩ := State.stepOut_cases s x <;> rw [h]
  · exact ⟨rfl, rfl, rfl⟩
  · rw [State.ax_setAx_same]
    exact ⟨(hf _).1, (hf _).2, rfl⟩
  · rw [State.ax_emit, State.ax_setAx_same]
    exact ⟨(hf _).1, (hf _).2, rfl⟩

/-- Following the error leaves the commanded state alone. -/
theorem State.trackError_kin (s : State) (x : Nat) : ((s.trackError x).ax x).kin = (s.ax x).kin := by
  unfold State.trackError
  split
  next => exact State.setAx_kin fun _ => rfl
  next e _ =>
    have hpeak : ∀ {t : State}, t.ax x = s.ax x → ((if t.obj (Obj.AX_FE_LIMIT x) < e then
        t.setAx x (fun m => { m with feSince := some (m.feSince.getD t.now) })
      else (t.setAx x (fun m => { m with feSince := none })).condEnd 0x1402 x).ax x).kin = (s.ax x).kin := by
      intro t ht
      rw [← ht]
      split
      · exact State.setAx_kin fun _ => rfl
      · rw [State.ax_condEnd]
        exact State.setAx_kin fun _ => rfl
    refine hpeak ?_
    split <;> rfl

/-- The end of a sample: every second one is forwarded. -/
theorem State.sampleEnd_kin (s : State) (x : Nat) (i : TwinItem) :
    ((if (s.ax x).odd = true then (s.setAx x (fun m => { m with odd := !m.odd })).forward i
      else s.setAx x (fun m => { m with odd := !m.odd })).ax x).kin = (s.ax x).kin := by
  split
  · rw [State.ax_forward, State.ax_setAx_same]; rfl
  · rw [State.ax_setAx_same]; rfl

/-- A sample within a plan that stands moves the axis along it. -/
theorem State.axSample_kin {s : State} {x : Nat} (hr : s.ready 11 = true) (hw : (s.ax x).wake ≤ s.now) (hd : (s.ax x).dirty = false)
    (hs : s.slaved x = false) (h : ((s.ax x).kin.sample axDt (s.ax x).plan).2 ≠ []) :
    ((s.axSample x).ax x).kin = ((s.ax x).kin.sample axDt (s.ax x).plan).1 := by
  have hreplan : s.replan x = s := by
    simp only [State.replan, hs, hd, Bool.not_false, Bool.false_eq_true, if_false, if_true]
  have hplan : (s.ax x).plan.isEmpty = false := by
    rw [Bool.eq_false_iff, ne_eq, List.isEmpty_iff]
    intro hp
    rw [hp] at h
    exact h rfl
  obtain ⟨hkin, hrest, hslaved⟩ := State.stepOut_keeps (s.axMove x) x
  rw [State.axMove_within h, State.ax_setAx_same] at hkin hrest
  rw [State.axMove_within h, State.slaved_setAx, hs] at hslaved
  have hgoes : (((s.axMove x).stepOut x).ax x).plan.isEmpty = false := by
    rw [State.axMove_within h, hrest, Bool.eq_false_iff, ne_eq, List.isEmpty_iff]
    exact h
  have hend : s.axSample x = (fun (w : State) => if (w.ax x).odd = true then
        (w.setAx x (fun m => { m with odd := !m.odd })).forward (.axis x (w.ax x).p (w.ax x).v (w.ax x).a)
      else w.setAx x (fun m => { m with odd := !m.odd })) (((s.axMove x).stepOut x).trackError x) := by
    rw [← State.axMove_within h] at hslaved
    simp only [State.axSample, hr, hw.not_gt, hreplan, hplan, hslaved, hgoes, Bool.not_true, Bool.not_false, Bool.or_true, Bool.true_or,
      Bool.false_and, Bool.false_eq_true, if_false, if_true]
  rw [hend, State.sampleEnd_kin, State.trackError_kin, State.axMove_within h, hkin]
  rfl

/-! ### Writes -/

/-- A write of a signed number of eight bytes comes to the rule of its own that the object has. -/
theorem State.numCmd_i64 {s t : State} {c : Ctx} {k v : Nat} {a : Obj.Acc} (hk : Obj.kind k = some (11, a, false)) (hv : v < 2 ^ 64)
    (hp : s.passes c k 11 (le 8 v) = true)
    (hw : ∀ l, (s.touch c).writeRule c k (Obj.decode 11 (le 8 v)) (le 8 v) l = (t, 0))
    (ha : a = .rw ∨ a = .wo ∨ a = .rws := by decide) : s.numCmd c k v = t.written k (le 8 v) := by
  have hcmd : s.numCmd c k v = s.objCmd c k 11 (le 8 v) := by
    unfold State.numCmd
    rw [Obj.kind_type hk]
    exact congrArg (fun n => s.objCmd c k 11 (le n v)) (if_pos hv)
  exact hcmd.trans (State.objCmd_written hp hk (by decide) ha hw)

/-- What an accepted target does: a move starts, or the one in progress is planned anew or started again. -/
theorem State.axTargetSet_of_accepted {s : State} {x : Nat} {y : Int} (hr : s.axRefuses x = false)
    (hsoft : s.axBit x bHomed = true → s.obj (Obj.AX_SOFT_MIN x) ≤ y ∧ y ≤ s.obj (Obj.AX_SOFT_MAX x))
    (hpos : s.limActive x true = true → q32Val y ≤ (s.ax x).p) (hneg : s.limActive x false = true → (s.ax x).p ≤ q32Val y) :
    s.axTargetSet x y =
      if (s.ax x).moving ∧ (s.ax x).abort then ((s.setObj (Obj.AX_TARGET x) y).setAx x (fun m => { m with again := true }), 0)
      else if (s.ax x).moving then ((s.setObj (Obj.AX_TARGET x) y).setAx x (fun m => { m with dirty := true }), 0)
      else ((s.setObj (Obj.AX_TARGET x) y).startMove x 1, 0) := by
  have h1 : ¬(s.axBit x bHomed = true ∧ (y < s.obj (Obj.AX_SOFT_MIN x) ∨ s.obj (Obj.AX_SOFT_MAX x) < y)) := by
    rintro ⟨hh, h | h⟩
    · exact absurd (hsoft hh).1 h.not_ge
    · exact absurd (hsoft hh).2 h.not_ge
  have h2 : ¬((s.limActive x true = true ∧ (s.ax x).p < q32Val y) ∨ (s.limActive x false = true ∧ q32Val y < (s.ax x).p)) := by
    rintro (⟨hl, h⟩ | ⟨hl, h⟩)
    · exact absurd (hpos hl) h.not_ge
    · exact absurd (hneg hl) h.not_ge
  simp only [State.axTargetSet, hr, h1, h2, Bool.false_eq_true, if_false]

theorem State.axStopSet_of_moving {s : State} {x : Nat} (h : (s.ax x).moving = true) : s.axStopSet x = (s.axHalt x, 0) := if_pos h

/-- An axis is enabled with its delay before it accepts a target. -/
theorem State.axEnableSet_on {s : State} {x : Nat} (hsto : s.stoHeld (x / 3) = false) (hen : s.axBit x bAxen = false) :
    s.axEnableSet x 1 = (((s.setObj (Obj.AX_ENABLE x) 1).setAxBit x bAxen true).setAx x (fun m => { m with
      accept := false, enabledAt := s.now, off := false }), 0) := by
  simp only [State.axEnableSet, hsto, hen, Bool.false_eq_true, if_false, if_true]
  rfl

/-- An axis at rest is disabled at once, one that moves when it has stopped. -/
theorem State.axEnableSet_off {s : State} {x : Nat} (hen : s.axBit x bAxen = true) :
    s.axEnableSet x 0 = if (s.ax x).moving || !(s.ax x).atRest then
        (((s.setObj (Obj.AX_ENABLE x) 0).axHalt x).setAx x (fun m => { m with off := true }), 0)
      else ((((s.setObj (Obj.AX_ENABLE x) 0).axHalt x).setObj (Obj.AX_CAM_STATE x) 0).axDisable x, 0) := by
  simp only [State.axEnableSet, hen, Nat.zero_ne_one, Bool.not_true, Bool.false_eq_true, if_false]

end Sys2Proof.Machine

namespace Sys2Proof
open Machine

/-- Settles O31: a sample by its plan, a write by its object's rule. -/
theorem axesMove : Obligations.AxesMove := by
  unfold Obligations.AxesMove
  refine ⟨?_, ?_, ?_, ?_⟩
  · intro x s hr hw hd hs r hne
    have hk := State.axSample_kin hr hw hd hs hne
    exact ⟨_, rfl, congrArg Kin.p hk, congrArg Kin.v hk, congrArg Kin.a hk⟩
  · intro c x v s hp u y w hr hsoft hpos hneg
    have hrun : ∀ {t : State}, u.axTargetSet x.val y = (t, 0) →
        exec (.axTarget c x v) s = .next (t.written (Obj.AX_TARGET x.val) (le 8 v.toNat)) := fun ht =>
      congrArg Host.Outcome.next (State.numCmd_i64 (Obj.kind_AX_TARGET x.isLt) v.isLt hp fun l =>
        (State.writeRule_AX_TARGET u c x.val x.isLt _ _ l).trans ht)
    have hset := State.axTargetSet_of_accepted hr hsoft hpos hneg
    refine ⟨fun hm => hrun (hset.trans ?_), fun hm ha => hrun (hset.trans ?_), fun hm ha => hrun (hset.trans ?_)⟩
    · simp only [hm, Bool.false_eq_true, false_and, if_false, w]
    · simp only [hm, ha, Bool.false_eq_true, and_false, if_false, if_true, w]
    · simp only [hm, ha, and_self, if_true, w]
  · intro c x s hp hm
    exact congrArg Host.Outcome.next (State.numCmd_byte (v := 1) (Obj.kind_AX_STOP x.isLt) (by decide) hp fun l =>
      (State.writeRule_AX_STOP _ c x.val x.isLt _ _ l).trans (State.axStopSet_of_moving hm))
  · intro c x v s hp u
    have hrun : ∀ {t : State} {n : Nat}, v.toNat = n → u.axEnableSet x.val n = (t, 0) →
        exec (.axEnable c x v) s = .next (t.written (Obj.AX_ENABLE x.val) (le 1 v.toNat)) := fun hn ht =>
      congrArg Host.Outcome.next (State.numCmd_byte (Obj.kind_AX_ENABLE x.isLt) v.isLt hp fun l =>
        (State.writeRule_AX_ENABLE u c x.val x.isLt _ _ l).trans (by rw [Int.toNat_natCast, hn, ht]))
    refine ⟨fun hv hsto hen => ?_, fun hv hen hm hrest => ?_, fun hv hen hm => ?_⟩
    · exact hrun (n := 1) (by rw [hv]; rfl) (State.axEnableSet_on hsto hen)
    · refine hrun (n := 0) (by rw [hv]; rfl) ((State.axEnableSet_off hen).trans (if_neg ?_))
      rw [hm, hrest]
      exact Bool.false_ne_true
    · refine hrun (n := 0) (by rw [hv]; rfl) ((State.axEnableSet_off hen).trans (if_pos ?_))
      obtain hm | hm := hm <;> rw [hm]
      · rfl
      · exact Bool.or_true _

end Sys2Proof
end

section
/-! PROOF. Axes: enable delays, limits, following errors, homing, standstill current, cams, modes and contact (chapter 16). -/

namespace Sys2Proof.Machine

theorem State.enDelay_of_due {s : State} {x : Nat} (hen : s.axBit x bAxen = true) (ha : (s.ax x).accept = false)
    (ht : (s.ax x).enabledAt + s.objN (Obj.AX_EN_DELAY x) * 1000000 ≤ s.now) :
    s.enDelay x = s.setAx x (fun m => { m with accept := true }) :=
  if_pos ⟨hen, by rw [ha]; rfl, ht⟩

theorem State.limitActive_of_new {s : State} {x : Nat} {positive : Bool} (hl : s.limActive x positive = true) (hr : s.ready 11 = true)
    (hn : (if positive then (s.ax x).limPos else (s.ax x).limNeg) = false) :
    let s1 := s.setAx x (fun m => { m with limPos := m.limPos || positive, limNeg := m.limNeg || !positive })
    s.limitActive x positive = s1.latch 0x1403 safety x (s1.sf2Detail x (if positive then 2 else 1)) true false none :=
  if_pos ⟨hl, by rw [hn]; rfl, hr⟩

theorem State.followingError_of_due {s : State} {x t : Nat} (hf : (s.ax x).feSince = some t) (hr : s.ready 11 = true)
    (he : (s.axError x).isSome = true) (ht : t + s.objN (Obj.AX_FE_MS x) * 1000000 ≤ s.now) :
    s.followingError x = ((s.latch 0x1402 safety x (s.sf2Detail x 0) true false none).setAx x
      (fun m => { m with feSince := none })).trackError x := by
  simp only [State.followingError, hf, hr, he, ht, and_self, if_true]

/-- Homing starts, as a move of its own or on the one in progress. -/
theorem State.axHomeSet_of_accepted {s : State} {x : Nat} (hr : s.axRefuses x = false) (ha : (s.ax x).abort = false) :
    s.axHomeSet x = (((if (s.ax x).moving then s.setObj (Obj.AX_MOVE_STATE x) 4 else s.startMove x 4).setAxBit x bHomed false).setAx x
      (fun m => { m with homing := 1, dirty := true }), 0) := by
  simp only [State.axHomeSet, hr, ha, Bool.false_eq_true, or_self, if_false]

theorem State.idleCurrent_of_still {s : State} {x : Nat} (hp : s.objN (Obj.AX_CUR_PWM x) < 32) (hrest : (s.ax x).atRest = true)
    (hm : (s.ax x).moving = false) (hs : s.slaved x = false) (hb : s.axBit x bCurReduced = false) (hr : s.ready 11 = true)
    (ht : (s.ax x).still + s.objN (Obj.AX_IDLE_MS x) * 1000000 ≤ s.now) :
    s.idleCurrent x = (s.setAxBit x bCurReduced true).curRefresh x := by
  simp only [State.idleCurrent, hp, hrest, hm, hs, hb, hr, ht, Bool.not_false, and_self, if_true]

/-- An axis that may move and whose chain of masters does not return to it is slaved. -/
theorem State.camEngageSet_on {s : State} {x : Nat} (hs : s.slaved x = false) (hr : s.axRefuses x = false)
    (hm : (s.ax x).moving = false) (hl : s.camLoops x 24 x = false) :
    let w := ((s.setObj (Obj.AX_CAM_ENGAGE x) 1).setObj (Obj.AX_MOVE_STATE x) 5).wakeCurrent x
    s.camEngageSet x 1 = (w.setObj (Obj.AX_CAM_STATE x) (if absQ ((w.ax x).p - w.camTarget x) ≤ 1 then 2 else 1), 0) := by
  simp only [State.camEngageSet, hs, hr, hm, hl, Bool.false_eq_true, or_self, if_false, if_true]

theorem State.camEngageSet_off {s : State} {x : Nat} (hs : s.slaved x = true) : s.camEngageSet x 0 = (s.axHalt x, 0) := by
  simp only [State.camEngageSet, hs, Nat.zero_ne_one, if_false, if_true]

/-- A table with a right checksum that no slaved axis uses is taken. -/
theorem State.camTableSet_of_unused {s : State} {k : Nat} {d : Bytes} (hlen : d.length = 4100)
    (hcrc : crc32c (d.take 4096) = getN d 4096 4)
    (hfree : ∀ x, x < 24 → s.slaved x = true → s.objN (Obj.AX_CAM_TABLE x) ≠ k) :
    s.camTableSet k d = (s.setBlob (Obj.CAM_TABLE k) 0 d, 0) := by
  have hany : (List.range 24).any (fun x => s.slaved x && s.objN (Obj.AX_CAM_TABLE x) == k) = false := by
    rw [List.any_eq_false]
    intro x hx h
    obtain ⟨hs, hk⟩ := Bool.and_eq_true_iff.mp h
    exact hfree x (List.mem_range.mp hx) hs (eq_of_beq hk)
  simp only [State.camTableSet, hlen, hcrc, hany, ne_eq, not_true, Bool.false_eq_true, or_self, if_false]

/-- The mode of an axis goes to the loop bound to it. -/
theorem State.axModeSet_of_allowed {s : State} {x v : Nat} (h : v = 1 → s.obj (Obj.AX_OUT_MODE x) ≠ 1) :
    (((s.setObj (Obj.AX_MODE x) (v : Nat)).axLoop x = none → s.axModeSet x v = (s.setObj (Obj.AX_MODE x) (v : Nat), 0)) ∧
    (∀ l, (s.setObj (Obj.AX_MODE x) (v : Nat)).axLoop x = some l →
      s.axModeSet x v = ((s.setObj (Obj.AX_MODE x) (v : Nat)).setObj (Obj.LP_MODE l) (v : Nat), 0))) := by
  have hg : ¬(v = 1 ∧ s.obj (Obj.AX_OUT_MODE x) = 1) := fun hv => h hv.1 hv.2
  refine ⟨fun hl => ?_, fun l hl => ?_⟩ <;> simp only [State.axModeSet, hg, hl, if_false]

theorem State.axContact_of_due {s : State} {x t : Nat} (hc : (s.ax x).contactSince = some t) (hr : s.ready 11 = true)
    (hb : s.axBit x bContact = false) (ht : t + s.objN (Obj.AX_CONTACT_MS x) * 1000000 ≤ s.now) :
    s.axContact x = (s.setAxBit x bContact true).event 24 0x1004 [(12, 1, x), (16, 8, q32Bits (s.fbPos x))] := by
  simp only [State.axContact, hc, hr, hb, ht, Bool.not_false, and_self, if_true]

end Sys2Proof.Machine

namespace Sys2Proof
open Machine

/-- Settles O32: a write comes to its object's rule, whose guards, like every other command's, are its clause's hypotheses. -/
theorem axesGuard : Obligations.AxesGuard := by
  unfold Obligations.AxesGuard
  refine ⟨?_, ?_, ?_, ?_, ?_, ?_, ?_, ?_, ?_⟩
  · intro x s hen ha ht
    exact congrArg Host.Outcome.next (State.enDelay_of_due hen ha ht)
  · intro x positive s hl hr hn s1
    exact congrArg Host.Outcome.next (State.limitActive_of_new hl hr hn)
  · intro x t s hf hr he ht
    exact congrArg Host.Outcome.next (State.followingError_of_due hf hr he ht)
  · intro c x s hp u hr ha
    exact congrArg Host.Outcome.next (State.numCmd_byte (v := 1) (Obj.kind_AX_HOME x.isLt) (by decide) hp fun l =>
      (State.writeRule_AX_HOME u c x.val x.isLt _ _ l).trans (State.axHomeSet_of_accepted hr ha))
  · intro x s hp hrest hm hs hb hr ht
    exact congrArg Host.Outcome.next (State.idleCurrent_of_still hp hrest hm hs hb hr ht)
  · intro c x v s hp u w
    have hrun : ∀ {t : State} {n : Nat}, v.toNat = n → u.camEngageSet x.val n = (t, 0) →
        exec (.axCamEngage c x v) s = .next (t.written (Obj.AX_CAM_ENGAGE x.val) (le 1 v.toNat)) := fun hn ht =>
      congrArg Host.Outcome.next (State.numCmd_byte (Obj.kind_AX_CAM_ENGAGE x.isLt) v.isLt hp fun l =>
        (State.writeRule_AX_CAM_ENGAGE u c x.val x.isLt _ _ l).trans (by rw [Int.toNat_natCast, hn, ht]))
    refine ⟨fun hv hs hr hm hl => ?_, fun hv hs => ?_⟩
    · exact hrun (n := 1) (by rw [hv]; rfl) (State.camEngageSet_on hs hr hm hl)
    · exact hrun (n := 0) (by rw [hv]; rfl) (State.camEngageSet_off hs)
  · intro c k d s hp hlen hcrc u hfree
    exact congrArg Host.Outcome.next (State.tableCmd_written hp (Obj.kind_CAM_TABLE k.isLt) (.inl rfl) fun l =>
      (State.writeRule_CAM_TABLE u c k.val k.isLt _ _ l).trans (State.camTableSet_of_unused hlen hcrc hfree))
  · intro c x v s hp u w hm
    have hrun : ∀ {t : State}, u.axModeSet x.val v.toNat = (t, 0) →
        exec (.axMode c x v) s = .next (t.written (Obj.AX_MODE x.val) (le 1 v.toNat)) := fun ht =>
      congrArg Host.Outcome.next (State.numCmd_byte (Obj.kind_AX_MODE x.isLt) v.isLt hp fun l =>
        (State.writeRule_AX_MODE u c x.val x.isLt _ _ l).trans ht)
    obtain ⟨hnone, hsome⟩ := State.axModeSet_of_allowed (s := u) (x := x.val) (v := v.toNat)
      fun h1 => hm (BitVec.eq_of_toNat_eq h1)
    exact ⟨fun hl => hrun (hnone hl), fun l hl => hrun (hsome l hl)⟩
  · intro x t s hc hr hb ht
    exact congrArg Host.Outcome.next (State.axContact_of_due hc hr hb ht)

end Sys2Proof
end

section
/-! PROOF. The loop engine: evaluation, trips, enabling, modes, following errors and traces (chapter 17). -/

namespace Sys2Proof.Machine

/-- A loop is enabled: its destinations are free, each named once, and its ADC channels convert. -/
theorem State.lpEnableSet_on {s : State} {l : Nat} (hoff : s.obj (Obj.LP_ENABLE l) ≠ 1)
    (hd : (s.dests l).any (fun k => s.ownerOf k != 0 || decide (1 < (s.dests l).count k)) = false)
    (ha : (s.loopAdc l).any (fun c => !s.objBit Obj.ADC_ENABLE c) = false) :
    let start := (List.range (s.lpQ l)).map (fun j =>
      if s.destOf l j = 0xFF then 0 else s.fullScale l j (s.dutyNow (s.destOf l j)))
    let s1 := (s.setObj (Obj.LP_ENABLE l) 1).setObj (Obj.LP_STATE l) 1
    let s2 := s1.setObj (Obj.LP_STATUS l) ((s1.objN (Obj.LP_STATUS l) / 32 * 32 + 1 : Nat) : Int)
    s.lpEnableSet l 1 = (s2.setLoop l (fun t => { mode := s2.objN (Obj.LP_MODE l), start := some start, trace := t.trace }), 0) := by
  simp only [State.lpEnableSet, hoff, hd, ha, Bool.false_eq_true, if_false, if_true]

theorem State.lpModeSet_of_unbound {s : State} {l v : Nat} (h : s.loopAxis l = none) :
    s.lpModeSet l v = (s.setObj (Obj.LP_MODE l) (v : Nat), 0) := by
  simp only [State.lpModeSet, h, Option.isSome_none, Bool.false_eq_true, if_false]

theorem State.trArmSet_on {s : State} {l : Nat} (h1 : s.obj (Obj.LP_TR_STATE l) ≠ 1) (h2 : s.obj (Obj.LP_TR_STATE l) ≠ 2) :
    s.trArmSet l 1 = (((s.setObj (Obj.LP_TR_ARM l) 1).setObj (Obj.LP_TR_STATE l)
      (if s.obj (Obj.LP_TR_PRE l) = 0 then 2 else 1)).setTrace l (fun _ => {}), 0) := by
  simp only [State.trArmSet, h1, h2, or_self, if_false, if_true]

end Sys2Proof.Machine

namespace Sys2Proof
open Machine

/-- Settles O33: an evaluation by what it finds, a write by its object's rule. -/
theorem loopsRun : Obligations.LoopsRun := by
  unfold Obligations.LoopsRun
  refine ⟨?_, ?_, ?_, ?_, ?_, ?_⟩
  · intro l s hr hst e out s1
    have h2 : ¬(1 : Int) = 2 := by decide
    refine ⟨fun hb hf => ?_, fun i hb hf => ?_, fun b t hb hf => ?_⟩
    · refine congrArg Host.Outcome.next ?_
      simp only [e] at hb hf
      simp only [State.loopEval, hr, hst, h2, hb, hf, List.isEmpty_nil, Bool.not_true, Bool.false_eq_true, ne_eq, not_true, false_and,
        if_false, if_true, out, s1, e]
    · refine congrArg Host.Outcome.next ?_
      simp only [e] at hb hf
      simp only [State.loopEval, hr, hst, h2, hb, hf, List.isEmpty_nil, Bool.not_true, Bool.false_eq_true, ne_eq, not_true,
        if_false, if_true, out, s1]
    · intro s2
      refine ⟨fun hm => congrArg Host.Outcome.next ?_, fun hm => congrArg Host.Outcome.next ?_⟩
      · simp only [e] at hb hf
        simp only [s2] at hm
        simp only [State.loopEval, hr, hst, h2, hb, hf, hm, List.isEmpty_cons, List.getD_cons_zero, Bool.not_true, Bool.not_false,
          Bool.false_eq_true, ne_eq, not_true, and_self, if_false, if_true, out, s2]
      · simp only [e] at hb hf
        have hm := hm.not_ge
        simp only [s2] at hm
        simp only [State.loopEval, hr, hst, h2, hb, hf, hm, List.isEmpty_cons, Bool.not_true, Bool.not_false,
          Bool.false_eq_true, ne_eq, not_true, and_false, if_false, out, s2, e]
  · intro c l v s hp u
    have hrun : ∀ {t : State} {n : Nat}, v.toNat = n → u.lpEnableSet l.val n = (t, 0) →
        exec (.lpEnable c l v) s = .next (t.written (Obj.LP_ENABLE l.val) (le 1 v.toNat)) := fun hn ht =>
      congrArg Host.Outcome.next (State.numCmd_byte (Obj.kind_LP_ENABLE l.isLt) v.isLt hp fun sp =>
        (State.writeRule_LP_ENABLE u c l.val l.isLt _ _ sp).trans (by rw [Int.toNat_natCast, hn, ht]))
    refine ⟨fun hv hoff hd ha => ?_, fun hv => ?_⟩
    · exact hrun (n := 1) (by rw [hv]; rfl) (State.lpEnableSet_on hoff hd ha)
    · exact hrun (n := 0) (by rw [hv]; rfl) rfl
  · intro c l v s hp hl
    exact congrArg Host.Outcome.next (State.numCmd_byte (Obj.kind_LP_MODE l.isLt) v.isLt hp fun sp =>
      (State.writeRule_LP_MODE _ c l.val l.isLt _ _ sp).trans (State.lpModeSet_of_unbound hl))
  · intro l s hst hr ht act fe s1 s2
    have hg : ¬(s.obj (Obj.LP_STATE l.val) ≠ 1 ∨ (!s.ready 11) = true ∨
        (s.loop l.val).feNs < s.objN (Obj.LP_FE_MS l.val) * 1000000) := by
      simp only [hst, hr, ht.not_gt, ne_eq, not_true, Bool.not_true, Bool.false_eq_true, or_self, not_false_iff]
    refine ⟨fun ha => ?_, fun ha => ?_, fun ha => ?_⟩
    · refine congrArg Host.Outcome.next ((if_neg hg).trans ?_)
      simp only [act] at ha
      simp only [ha, show ¬0 = 2 by decide, if_false, if_true, s1, fe, act]
    · refine congrArg Host.Outcome.next ((if_neg hg).trans ?_)
      simp only [act] at ha
      simp only [ha, Nat.one_ne_zero, show ¬1 = 2 by decide, if_false, s1, s2, fe, act]
    · refine congrArg Host.Outcome.next ((if_neg hg).trans ?_)
      simp only [act] at ha
      simp only [ha, OfNat.ofNat_ne_zero, if_false, if_true, s1, s2, fe, act]
  · intro c l v s hp u w
    have hrun : ∀ {t : State} {n : Nat}, v.toNat = n → u.trArmSet l.val n = (t, 0) →
        exec (.lpTrArm c l v) s = .next (t.written (Obj.LP_TR_ARM l.val) (le 1 v.toNat)) := fun hn ht =>
      congrArg Host.Outcome.next (State.numCmd_byte (Obj.kind_LP_TR_ARM l.isLt) v.isLt hp fun sp =>
        (State.writeRule_LP_TR_ARM u c l.val l.isLt _ _ sp).trans (by rw [Int.toNat_natCast, hn, ht]))
    refine ⟨fun hv h1 h2 => ?_, fun hv => ?_⟩
    · exact hrun (n := 1) (by rw [hv]; rfl) (State.trArmSet_on h1 h2)
    · exact hrun (n := 0) (by rw [hv]; rfl) rfl
  · intro c l s hp
    exact congrArg Host.Outcome.next (State.numCmd_byte (v := 1) (Obj.kind_LP_TR_FORCE l.isLt) (by decide) hp fun sp =>
      State.writeRule_LP_TR_FORCE _ c l.val l.isLt _ _ sp)

end Sys2Proof
end

section
/-! PROOF. Analogue inputs, PWM and valve outputs and GPIO (chapter 17). -/

namespace Sys2Proof.Machine

/-- A rate of the ADC within its range, for the channels that convert. -/
theorem State.adcSet_rate {s : State} {v : Nat} (hlo : 1000 ≤ v) (hhi : v ≤ 1000000)
    (hn : v * popCount 16 (s.objN Obj.ADC_ENABLE) ≤ 1000000) : s.adcSet true v = (s.setObj Obj.ADC_RATE (v : Nat), 0) := by
  simp only [State.adcSet, hlo.not_gt, hhi.not_gt, hn.not_gt, or_self, if_false, if_true]

/-- A host write of an output that nobody owns. -/
theorem State.dutySet_of_free {s : State} {valve : Bool} {i v : Nat} (h : s.ownerOf (if valve then 0x40 + i else i) = 0) :
    s.dutySet valve i v = (s.ownDuty (if valve then 0x40 + i else i) v, 0) := if_neg (fun hn => hn h)

theorem State.ownDuty_pwm {s : State} {i d : Nat} (h : i < 32) : s.ownDuty i d = s.setObj (Obj.PWM_DUTY i) (d : Nat) := if_pos h

theorem State.ownDuty_valve {s : State} {i d : Nat} (h : i < 16) : s.ownDuty (0x40 + i) d = s.setObj (Obj.VALVE_DUTY i) (d : Nat) := by
  have h1 : ¬0x40 + i < 32 := by omega
  have h2 : 0x40 ≤ 0x40 + i ∧ 0x40 + i < 0x50 := by omega
  simp only [State.ownDuty, h1, h2, and_self, if_false, if_true, Nat.add_sub_cancel_left]

theorem State.gpioDirSet_of_unused {s : State} {v : Nat} (h : s.gpioUse &&& v = 0) :
    s.gpioDirSet v = ((s.setObj Obj.GPIO_DIR (v : Nat)).gpioReadback, 0) := if_neg (fun hn => hn h)

/-- A change of level on a pin that is an input. -/
theorem State.gpioInput_of_change {s : State} {pin : Nat} {level : Bool} (hd : s.objBit Obj.GPIO_DIR pin = false)
    (hl : s.objBit Obj.GPIO_IN pin = !level) :
    s.gpioInput pin level = ((List.range 24).foldl (fun (s : State) x =>
      if s.objN (Obj.AX_LIM_NEG_PIN x) = pin ∨ s.objN (Obj.AX_LIM_POS_PIN x) = pin then s.limitReleased x else s)
        (s.setBit Obj.GPIO_IN pin level)).homePin pin level :=
  if_neg (by rw [hd, hl]; cases level <;> decide)

end Sys2Proof.Machine

namespace Sys2Proof
open Machine

/-- Settles O34: a conversion by its window, a write by its object's rule. -/
theorem inputsAndOutputs : Obligations.InputsAndOutputs := by
  unfold Obligations.InputsAndOutputs
  refine ⟨?_, ?_, ?_, ?_, ?_, ?_⟩
  · intro ch raw s hr hen
    have hg : ¬((!s.ready 11 || !s.objBit Obj.ADC_ENABLE ch.val) = true) := by rw [hr, hen]; decide
    refine ⟨fun hw => ?_, fun hw h0 => ?_, fun hw h0 => ?_⟩
    · refine congrArg Host.Outcome.next ((if_neg hg).trans ?_)
      have hw' : ({ s with io := { s.io with adc := Tab.set 0 s.io.adc ch.val raw.toNat } } : State).inPresWin ch.val raw.toNat = true := hw
      simp only [hw', if_true]
    · refine congrArg Host.Outcome.next ((if_neg hg).trans ?_)
      have hw' : ({ s with io := { s.io with adc := Tab.set 0 s.io.adc ch.val raw.toNat } } : State).inPresWin ch.val raw.toNat = false := hw
      simp only [hw', h0, Bool.false_eq_true, Nat.add_eq_zero_iff, Nat.one_ne_zero, and_false, if_false, if_true]
      rfl
    · refine congrArg Host.Outcome.next ((if_neg hg).trans ?_)
      have hw' : ({ s with io := { s.io with adc := Tab.set 0 s.io.adc ch.val raw.toNat } } : State).inPresWin ch.val raw.toNat = false := hw
      simp only [hw', h0, Bool.false_eq_true, if_false]
  · intro c v s u
    refine ⟨fun hp hlo hhi hn => ?_, fun hp hv hn => ?_⟩
    · exact congrArg Host.Outcome.next (State.numCmd_word Obj.kind_ADC_RATE v.isLt hp fun l =>
        (State.writeRule_ADC_RATE u c _ _ l).trans (State.adcSet_rate hlo hhi hn))
    · intro gone hused w
      refine congrArg Host.Outcome.next (State.numCmd_written Obj.kind_ADC_ENABLE rfl (by decide) hv (.inl rfl) hp fun l =>
        (State.writeRule_ADC_ENABLE u c _ _ l).trans ?_)
      simp only [gone] at hused
      simp only [State.adcSet, Int.toNat_natCast, hn.not_gt, hused, Bool.false_eq_true, if_false, gone, w]
  · intro i s hr
    refine congrArg Host.Outcome.next (if_neg ?_)
    rw [hr]
    decide
  · intro c i v s u
    refine ⟨fun hp hfree => ?_, fun hi hp hfree => ?_⟩
    · exact congrArg Host.Outcome.next (State.numCmd_word (Obj.kind_PWM_DUTY i.isLt) v.isLt hp fun l =>
        (State.writeRule_PWM_DUTY u c i.val i.isLt _ _ l).trans ((State.dutySet_of_free hfree).trans
          (congrArg (·, 0) (State.ownDuty_pwm i.isLt))))
    · exact congrArg Host.Outcome.next (State.numCmd_word (Obj.kind_VALVE_DUTY hi) v.isLt hp fun l =>
        (State.writeRule_VALVE_DUTY u c i.val hi _ _ l).trans ((State.dutySet_of_free (valve := true) hfree).trans
          (congrArg (·, 0) (State.ownDuty_valve hi))))
  · intro c v s hp hu
    exact congrArg Host.Outcome.next (State.numCmd_word Obj.kind_GPIO_DIR v.isLt hp fun l =>
      (State.writeRule_GPIO_DIR _ c _ _ l).trans (State.gpioDirSet_of_unused hu))
  · intro pin level s hd hl s1 s2
    exact congrArg Host.Outcome.next (State.gpioInput_of_change hd hl)

end Sys2Proof
end

section
/-! PROOF. DRAM: accesses and their errors, scrub, refresh, sweeps, drift, rates, regions and bring-up (chapter 18). -/

namespace Sys2Proof.Machine

/-! ### Accesses -/

theorem exec_dramRead_of_reachable {port : Fin 8} {addr age : Nat} {e : List (Nat × Nat)} {s : State} (hr : s.dramReady = true)
    (hlt : addr < s.usable) (hu : s.unreachable addr = false) :
    exec (.dramRead port addr age e) s = .next (s.dramRead port.val addr age e) := by
  show execDramRead port addr age e s = _
  simp only [execDramRead, hr, hlt.not_ge, hu, Bool.not_true, Bool.false_eq_true, if_false]

theorem exec_dramWrite_of_reachable {port : Fin 8} {addr age : Nat} {d : Bytes} {e : List (Nat × Nat)} {s : State}
    (hr : s.dramReady = true) (hle : addr + d.length ≤ s.usable) (hu : s.unreachable addr = false) :
    exec (.dramWrite port addr d age e) s = .next (s.dramWrite port.val addr d age e) := by
  show execDramWrite port addr d age e s = _
  simp only [execDramWrite, hr, hle.not_gt, hu, Bool.not_true, Bool.false_eq_true, if_false]

theorem State.dramWrite_of_group {s : State} {port addr age : Nat} {d : Bytes} {e : List (Nat × Nat)} (hlen : d.length = 256) :
    s.dramWrite port addr d age e = (s.dramAccess port addr age).dramPut addr d := by
  unfold State.dramWrite
  rw [if_pos hlen]

/-- A write of part of a group does what the decoder says of the check burst it reads first. -/
theorem State.dramWrite_of_part {s : State} {port addr age : Nat} {d : Bytes} {e : List (Nat × Nat)} (hn : d.length ≠ 256) :
    let u := s.dramAccess port addr age
    (decodeBurst e = .clean → s.dramWrite port addr d age e = u.dramPut addr d) ∧
    (∀ f, decodeBurst e = .fixed f → s.dramWrite port addr d age e = (u.corrected (subOf addr) (u.rankOf addr) f).dramPut addr d) ∧
    (decodeBurst e = .bad → s.dramWrite port addr d age e = u.dramUe port addr 1) := by
  unfold State.dramWrite
  refine ⟨fun h => ?_, fun f h => ?_, fun h => ?_⟩ <;> · rw [if_neg hn, h]

/-- A scrub of a data burst that does not end the pass does what the decoder says of the burst. -/
theorem State.dramScrub_of_data {s : State} {e : List (Nat × Nat)} (hr : s.dramReady = true) (hn : s.dramSt.scrub < s.usable / 64) :
    let n := s.dramSt.scrub
    let s1 : State := { s with dramSt := { s.dramSt with scrub := n + 1 } }
    let a := 64 * n
    (decodeBurst e = .clean → n + 1 < s.scrubTotal → s.dramScrub e = s1) ∧
    (∀ f, decodeBurst e = .fixed f →
      let t := (s1.dramPut a (burstXor (errWord f) (burstXor (errWord e) (s1.dramGet a 64)))).corrected (subOf a) (s1.rankOf a) f
      n + 1 < t.scrubTotal → s.dramScrub e = t) ∧
    (decodeBurst e = .bad → n + 1 < (s1.dramUe 7 a 0).scrubTotal → s.dramScrub e = s1.dramUe 7 a 0) := by
  unfold State.dramScrub
  rw [if_neg (by rw [hr]; decide)]
  refine ⟨fun hd hmore => ?_, fun f hd => ?_, fun hd hmore => ?_⟩ <;> simp only [if_pos hn, hd]
  · exact if_neg hmore.not_ge
  · exact fun hmore => if_neg hmore.not_ge
  · exact if_neg hmore.not_ge

/-! ### Ranks -/

/-- A rank that exists is refreshed and read while DRAM trains or is READY and the rank is not in self-refresh. -/
theorem State.rank_serves {s : State} {c r : Nat} (he : rankExists r = true) (hr : s.ready 2 = true)
    (hst : s.obj Obj.DRAM_STATE = 2 ∨ s.obj Obj.DRAM_STATE = 3) (hm : (s.rank c r).mode ≠ 2) :
    ¬((!rankExists r) = true ∨ (!s.ready 2) = true ∨ (s.obj Obj.DRAM_STATE ≠ 2 ∧ s.obj Obj.DRAM_STATE ≠ 3) ∨ (s.rank c r).mode = 2) := by
  rw [he, hr]
  rintro (h | h | h | h)
  · exact absurd h (by decide)
  · exact absurd h (by decide)
  · exact hst.elim h.1 h.2
  · exact hm h

theorem State.dramDrift_of_far {s : State} {c r : Nat} {taps : Int} (he : rankExists r = true) (hr : s.ready 2 = true)
    (hst : s.obj Obj.DRAM_STATE = 3) (ht : s.objN Obj.DRAM_DRIFT_TAPS < taps.natAbs) :
    s.dramDrift c r taps = (if s.calState 2 c = 0 then s.setCalState 2 c 1 else s).event 24 0x1202
      [(12, 1, c), (13, 1, r), (16, 4, bitsOf 32 taps)] := by
  simp only [State.dramDrift, he, hr, hst, ht.not_ge, Bool.not_true, Bool.false_eq_true, ne_eq, not_true, or_self, if_false]

theorem State.powerDown_of_idle {s : State} {c r : Nat} (he : rankExists r = true) (hr : s.dramReady = true)
    (hm : (s.rank c r).mode = 0) (ht : (s.rank c r).last + s.objN Obj.DRAM_PD_NS ≤ s.now) :
    s.powerDown c r = s.setRank c r (fun x => { x with mode := 1 }) := by
  simp only [State.powerDown, he, hr, hm, ht.not_gt, Bool.not_true, Bool.false_eq_true, ne_eq, not_true, or_self, if_false]

theorem State.rowClose_of_idle {s : State} {bank : Nat} (ho : (Tab.get (0, 0) s.dramSt.rows bank).1 ≠ 0)
    (ht : (Tab.get (0, 0) s.dramSt.rows bank).2 + s.objN Obj.DRAM_ROW_IDLE_NS ≤ s.now) :
    s.rowClose bank = { s with dramSt := { s.dramSt with rows := Tab.erase bank s.dramSt.rows } } := by
  simp only [State.rowClose, ho, ht.not_gt, or_self, if_false]

/-! ### Sweeps and the data rate -/

theorem State.sweepStart_of_idle {s : State} {c ctrl : Nat} (hn : s.dramSt.sweep = none) (hr : s.ready 2 = true)
    (hst : s.obj Obj.DRAM_STATE = 2 ∨ s.obj Obj.DRAM_STATE = 3) (hc : field ctrl 0 3 = c) (hok : sweepOk ctrl = true) :
    s.sweepStart c ctrl = { s.setObj Obj.DRAM_SWEEP_CTRL (ctrl : Nat) with
      dramSt := { (s.setObj Obj.DRAM_SWEEP_CTRL (ctrl : Nat)).dramSt with sweep := some c } } := by
  have hg : ¬(s.obj Obj.DRAM_STATE ≠ 2 ∧ s.obj Obj.DRAM_STATE ≠ 3) := fun h => hst.elim h.1 h.2
  simp only [State.sweepStart, hn, hr, hg, hc, hok, Option.isSome_none, Bool.not_true, Bool.false_eq_true, ne_eq, not_true, or_self,
    if_false]

/-- A rate of the list with no job in flight is applied, or held while a sweep runs. -/
theorem State.dramRateSet_of_idle {s : State} {v : Nat} (hv : dramRates.contains v = true) (hj : s.hq.jobs = []) :
    s.dramRateSet v = if s.dramSt.sweep.isSome then ({ s with dramSt := { s.dramSt with rateHeld := some v } }, 0)
      else (s.applyRate v, 0) := by
  simp only [State.dramRateSet, State.jobsInFlight, hv, hj, List.length_nil, Bool.not_true, Bool.false_eq_true, ne_eq, not_true, if_false]

/-! ### Regions -/

/-- A table cut to the keys below a bound reads as before below it and as empty from it on. -/
theorem Tab.get_filter_lt {α : Type} (d : α) (t : Tab α) (n k : Nat) :
    Tab.get d (t.filter (fun e => decide (e.1 < n))) k = if k < n then Tab.get d t k else d := by
  induction t with
  | nil => exact (ite_self d).symm
  | cons e t ih =>
    by_cases he : e.1 < n
    · rw [List.filter_cons_of_pos (by simpa using he), Tab.get, Tab.get, ih]
      by_cases hk : e.1 = k
      · rw [if_pos hk, if_pos hk, if_pos (hk ▸ he)]
      · rw [if_neg hk, if_neg hk]
    · rw [List.filter_cons_of_neg (by simpa using he), Tab.get, ih]
      by_cases hk : e.1 = k
      · rw [if_neg (hk ▸ he), if_neg (hk ▸ he)]
      · rw [if_neg hk]

/-- A region size that does not fit the installed memory. -/
theorem State.regionSet_of_large {s : State} {k r v : Nat} (hl : s.laidOut = true)
    (h : s.usable < sumTo (s.setObj k (v : Nat)).regionSizes 6) : s.regionSet k r v = (s, 0x04) := if_pos ⟨hl, h⟩

/-- Before the regions are laid out a size is only stored. -/
theorem State.regionSet_of_unlaid {s : State} {k r v : Nat} (hlive : s.regionsLive r = false) (hl : s.laidOut = false) :
    s.regionSet k r v = (s.setObj k (v : Nat), 0) := by
  simp only [State.regionSet, hl, hlive, Bool.false_eq_true, false_and, Bool.not_false, or_true, if_false, if_true]

/-- A new size moves every region behind: DRAM keeps its bytes below the first of them, and no others. -/
theorem State.regionSet_of_change {s : State} {k r v : Nat} (hlive : s.regionsLive r = false) (hl : s.laidOut = true)
    (hfit : sumTo (s.setObj k (v : Nat)).regionSizes 6 ≤ s.usable) (hne : s.objN k ≠ v) :
    (s.regionSet k r v).2 = 0 ∧ (s.regionSet k r v).1.dram =
      s.dram.filter (fun e => decide (e.1 < min (s.region (r + 1)).1 ((s.setObj k (v : Nat)).region (r + 1)).1)) := by
  simp only [State.regionSet, hl, hlive, hfit.not_gt, hne, Bool.not_true, Bool.false_eq_true, and_false, or_self, if_false]
  split <;> exact ⟨trivial, rfl⟩

/-! ### Bring-up -/

theorem State.restoreWaitEnd_of_due {s : State} (hst : s.obj Obj.DRAM_STATE = 2)
    (ht : s.dramSt.trainSince + s.objN Obj.BOOT_RESTORE_MS * 1000000 ≤ s.now) :
    s.restoreWaitEnd = (List.range 8).foldl (fun (s : State) c =>
      if (s.calUnit 2 c).hasRef ∨ 2 ≤ s.calState 2 c then s else (s.setCalState 2 c 1).calDue 2 c) s := by
  simp only [State.restoreWaitEnd, hst, ht.not_gt, ne_eq, not_true, or_self, if_false]

end Sys2Proof.Machine

namespace Sys2Proof
open Machine

/-- Settles O35: an access by what the decoder finds, every other command by its guards, which are its clause's hypotheses. -/
theorem dramServes : Obligations.DramServes := by
  unfold Obligations.DramServes
  refine ⟨?_, ?_, ?_, ?_, ?_, ?_, ?_, ?_, ?_, ?_, ?_, ?_, ?_, ?_, ?_⟩
  · intro port addr age e s hr hlt hu a u got
    rw [exec_dramRead_of_reachable hr hlt hu]
    unfold State.dramRead
    refine ⟨fun hd => congrArg Host.Outcome.next ?_, fun f hd => congrArg Host.Outcome.next ?_,
      fun hd => congrArg Host.Outcome.next ?_⟩ <;> · rw [hd]
  · intro port addr d age e s hr hle hu u
    rw [exec_dramWrite_of_reachable hr hle hu]
    refine ⟨fun hd => congrArg Host.Outcome.next ?_, fun f hn hd => congrArg Host.Outcome.next ((State.dramWrite_of_part hn).2.1 f hd),
      fun hn hd => congrArg Host.Outcome.next ((State.dramWrite_of_part hn).2.2 hd)⟩
    by_cases hlen : d.length = 256
    · exact State.dramWrite_of_group hlen
    · exact (State.dramWrite_of_part hlen).1 (hd.resolve_left hlen)
  · intro e s hr n s1 a hn htot
    obtain ⟨hclean, hfixed, hbad⟩ := State.dramScrub_of_data (e := e) hr hn
    exact ⟨fun hd => congrArg Host.Outcome.next (hclean hd htot),
      fun hd ht => congrArg Host.Outcome.next (hbad hd (htot.trans_eq ht)),
      fun f hd ht => congrArg Host.Outcome.next (hfixed f hd (htot.trans_eq ht))⟩
  · intro c r can s he hr hst hm n
    have hg := State.rank_serves he hr hst hm
    refine ⟨fun h => congrArg Host.Outcome.next ((if_neg hg).trans (if_pos h)), fun hd hc hn => ?_, fun hd hc hn => ?_⟩
    · refine congrArg Host.Outcome.next ((if_neg hg).trans ((if_neg ?_).trans (if_pos hn)))
      rw [hd, hc]
      decide
    · refine congrArg Host.Outcome.next ((if_neg hg).trans ((if_neg ?_).trans (if_neg hn.not_gt)))
      rw [hd, hc]
      decide
  · intro c r t s he hr hst hm s1 s2
    have hg := State.rank_serves he hr hst hm
    refine ⟨fun hd ht => ?_, fun hd ht => ?_⟩
    · refine congrArg Host.Outcome.next ((if_neg hg).trans ((if_neg ?_).trans (if_neg ?_)))
      · exact fun h => absurd h.2 ht.not_ge
      · exact fun h => absurd (hd.symm.trans h.1) Bool.false_ne_true
    · exact congrArg Host.Outcome.next ((if_neg hg).trans (if_pos ⟨by rw [hd]; rfl, ht⟩))
  · intro c ctrl s hn hr hst hc hok t
    exact congrArg Host.Outcome.next (State.sweepStart_of_idle hn hr hst hc hok)
  · intro l s hs t u
    have hg : ¬s.dramSt.sweep.isNone = true := by rw [← Option.not_isSome, hs]; decide
    refine ⟨fun hh => congrArg Host.Outcome.next ((if_neg hg).trans ?_), fun v hh => congrArg Host.Outcome.next ((if_neg hg).trans ?_)⟩ <;>
      simp only [hh, t, u]
  · intro c r taps s he hr hst ht
    exact congrArg Host.Outcome.next (State.dramDrift_of_far he hr hst ht)
  · intro c v s hp hv hj u
    have hrun : ∀ {t : State}, u.dramRateSet v.toNat = (t, 0) →
        exec (.dramRate c v) s = .next (t.written Obj.DRAM_RATE (le 2 v.toNat)) := fun ht =>
      congrArg Host.Outcome.next (State.numCmd_written Obj.kind_DRAM_RATE rfl (by decide) v.isLt (.inl rfl) hp fun l =>
        (State.writeRule_DRAM_RATE u c _ _ l).trans ht)
    have hset := State.dramRateSet_of_idle hv hj
    refine ⟨fun hn => hrun (hset.trans (if_neg ?_)), fun hs => hrun (hset.trans (if_pos hs))⟩
    rw [hn]
    decide
  · intro c idx sub v s u k ok
    refine ⟨fun hk hok => ?_, fun hk hok => ?_, fun hk hok => ?_⟩ <;> obtain ⟨hp, hv, hset⟩ := hok <;> rw [hk] at hp hset ⊢
    · exact congrArg Host.Outcome.next ((if_pos (.inl hk)).trans ((congrArg (fun i => s.numCmd c i v.toNat) hk).trans
        (State.numCmd_written Obj.kind_JNL_STORE_MIB rfl (by decide) hv (.inl rfl) hp fun l =>
          (State.writeRule_JNL_STORE_MIB u c _ _ l).trans (Prod.ext rfl hset))))
    · exact congrArg Host.Outcome.next ((if_pos (.inr (.inl hk))).trans ((congrArg (fun i => s.numCmd c i v.toNat) hk).trans
        (State.numCmd_written Obj.kind_NIM_EVID_SIZE rfl (by decide) hv (.inl rfl) hp fun l =>
          (State.writeRule_NIM_EVID_SIZE u c _ _ l).trans (Prod.ext rfl hset))))
    · exact congrArg Host.Outcome.next ((if_pos (.inr (.inr hk))).trans ((congrArg (fun i => s.numCmd c i v.toNat) hk).trans
        (State.numCmd_written Obj.kind_DRAM_POOL_GIB rfl (by decide) hv (.inl rfl) hp fun l =>
          (State.writeRule_DRAM_POOL_GIB u c _ _ l).trans (Prod.ext rfl hset))))
  · intro k r v s hlive
    refine ⟨State.regionSet_of_large, State.regionSet_of_unlaid hlive, fun hl hfit hne => ?_⟩
    obtain ⟨hst, hdram⟩ := State.regionSet_of_change hlive hl hfit hne
    exact ⟨hst, fun a => (congrArg (Tab.get dramEmpty · a) hdram).trans (Tab.get_filter_lt ..)⟩
  · intro bank s ho ht
    exact congrArg Host.Outcome.next (State.rowClose_of_idle ho ht)
  · intro c r s he hr hm ht
    exact congrArg Host.Outcome.next (State.powerDown_of_idle he hr hm ht)
  · intro s hst ht
    exact congrArg Host.Outcome.next (State.restoreWaitEnd_of_due hst ht)
  · intro ok gib s hst hr t
    have hg : ¬(s.obj Obj.DRAM_STATE ≠ 1 ∨ (!s.ready 2) = true) := by
      rw [hst, hr]
      decide
    refine ⟨fun h => congrArg Host.Outcome.next ((if_neg hg).trans (if_pos h)), fun h => congrArg Host.Outcome.next ((if_neg hg).trans ?_)⟩
    rw [h]
    exact if_neg Bool.false_ne_true

end Sys2Proof
end

section
/-! PROOF. Stratus: runs of the engines, their completion records and aborts (chapter 19). -/

namespace Sys2Proof.Machine

/-- An idle engine with what it needs powered runs a descriptor of its type that keeps Table 19.2 and is not aborted. -/
theorem State.strRun_of_idle {s : State} {r ty : Nat} {src : Option Bytes} {b : Bytes} (hb : s.headOfType (48 + r) ty = some b)
    (hr : s.ready 10 = true) (he : s.engine r = none)
    (hdev : ((strDesc b).srcDev || (strDesc b).dstDev) = true → s.dramReady = true)
    (ha : (s.consume (48 + r)).str.aborts.contains (strDesc b).tag = false) (hok : (s.consume (48 + r)).strOk (strDesc b) = true) :
    s.strRun r ty src =
      let u := s.consume (48 + r)
      let x := if ty = 0x50 then u.runBlocks (strDesc b) src else if ty = 0x51 then u.runStream r (strDesc b) src
        else u.runUnz (strDesc b) src
      x.2.setEngine r (some x.1) := by
  have hg : ¬((!s.ready 10) = true ∨ (s.engine r).isSome = true ∨
      (((strDesc b).srcDev || (strDesc b).dstDev) && !s.dramReady) = true) := by
    rw [hr, he]
    rintro (h | h | h)
    · exact absurd h (by decide)
    · exact absurd h (by decide)
    · obtain ⟨hd, hn⟩ := (Bool.and_eq_true _ _).mp h
      rw [hdev hd] at hn
      exact absurd hn (by decide)
  unfold State.strRun
  simp only [hb, if_neg hg, ha, hok, Bool.not_true, Bool.false_eq_true, if_false]

/-- A compression of blocks that comes out no smaller leaves its output as it was and changes nothing else. -/
theorem State.runBlocks_of_notSmaller {s : State} {d : StrDesc} {src : Bytes} {o : Option Bytes} (hs : s.strSource d o = some src)
    (h : d.srcLen ≤ (compressed d.level d.log2 d.check src).1.length) :
    (s.runBlocks d o).1.status = 6 ∧ (s.runBlocks d o).1.out = d.job.out ∧ (s.runBlocks d o).2 = s := by
  simp only [State.runBlocks, hs, h, if_true, and_self]

/-- A compression of blocks that fits its destination writes the frame and changes nothing else. -/
theorem State.runBlocks_of_fits {s : State} {d : StrDesc} {src : Bytes} {o : Option Bytes} (hs : s.strSource d o = some src)
    (h : (compressed d.level d.log2 d.check src).1.length < d.srcLen)
    (hfit : (compressed d.level d.log2 d.check src).1.length ≤ d.dstMax) :
    (s.runBlocks d o).1.out = (compressed d.level d.log2 d.check src).1 ∧
      (s.runBlocks d o).1.outLen = (compressed d.level d.log2 d.check src).1.length ∧
      (s.runBlocks d o).1.inLen = d.srcLen ∧ (s.runBlocks d o).2 = s := by
  simp only [State.runBlocks, hs, h.not_ge, hfit.not_gt, if_false, and_self]

/-- A compression of blocks that does not fit its destination fails with REASON 0x20. -/
theorem State.runBlocks_of_large {s : State} {d : StrDesc} {src : Bytes} {o : Option Bytes} (hs : s.strSource d o = some src)
    (h : (compressed d.level d.log2 d.check src).1.length < d.srcLen)
    (hlarge : d.dstMax < (compressed d.level d.log2 d.check src).1.length) :
    s.runBlocks d o = s.strFail d 0x20 d.dstMax := by
  simp only [State.runBlocks, hs, h.not_ge, hlarge, if_false, if_true]

/-- A write of STR_ABORT with the tag of a job that runs stops it. -/
theorem State.strAbortSet_of_running {s : State} {tag r : Nat} {j : StrJob}
    (hf : (List.range 4).find? (fun r => (s.engine r).any (fun j => j.tag == tag)) = some r) (hj : s.engine r = some j)
    (h6 : j.status ≠ 6) (h3 : j.status ≠ 3) : s.strAbortSet tag = (s.strStop r j, 0) := by
  simp only [State.strAbortSet, hf, hj, h6, h3, or_self, if_false]

/-- A write of STR_ABORT with the tag of a descriptor at the head of a ring is kept until the engine takes it. -/
theorem State.strAbortSet_of_queued {s : State} {tag : Nat}
    (hf : (List.range 4).find? (fun r => (s.engine r).any (fun j => j.tag == tag)) = none)
    (hq : (List.range 4).any (fun r => (s.ring (48 + r)).head.any (fun d => getN d 4 4 == tag)) = true) :
    s.strAbortSet tag = ({ s with str := { s.str with aborts := tag :: s.str.aborts.filter (· ≠ tag) } }, 0) := by
  simp only [State.strAbortSet, hf, hq, if_true]

end Sys2Proof.Machine

namespace Sys2Proof
open Machine

/-- Settles O36: a run by its engine's guards, a compression by the size it comes out at, an abort by where the tag stands. -/
theorem stratusRuns : Obligations.StratusRuns := by
  unfold Obligations.StratusRuns
  refine ⟨?_, ?_, ?_, ?_, ?_, ?_⟩
  · intro q src b s hb d u hr he hdev ha hok
    exact congrArg Host.Outcome.next (State.strRun_of_idle hb hr he hdev ha hok)
  · intro q src b s hb d u hr he hdev ha hok
    exact congrArg Host.Outcome.next (State.strRun_of_idle hb hr he hdev ha hok)
  · intro q src b s hb d u hr he hdev ha hok
    exact congrArg Host.Outcome.next (State.strRun_of_idle hb hr he hdev ha hok)
  · intro d src s hs c r
    split
    case isTrue h => exact State.runBlocks_of_notSmaller hs h
    case isFalse h =>
      split
      case isTrue hfit => exact State.runBlocks_of_fits hs (not_le.mp h) hfit
      case isFalse hfit => exact State.runBlocks_of_large hs (not_le.mp h) (not_le.mp hfit)
  · intro q j s hj hr s1 rec0 s2 s3
    refine congrArg Host.Outcome.next ?_
    simp only [State.strComplete, hj, hr, Bool.not_true, Bool.false_eq_true, if_false, s1, rec0, s2, s3]
  · intro c tag s hp u
    have hrun : ∀ {t : State}, u.strAbortSet tag.toNat = (t, 0) →
        exec (.strAbort c tag) s = .next (t.written Obj.STR_ABORT (le 4 tag.toNat)) := fun ht =>
      congrArg Host.Outcome.next (State.numCmd_word Obj.kind_STR_ABORT tag.isLt hp fun l =>
        (State.writeRule_STR_ABORT u c _ _ l).trans ht)
    exact ⟨fun r j hf hj h6 h3 => hrun (State.strAbortSet_of_running hf hj h6 h3),
      fun hf hq => hrun (State.strAbortSet_of_queued hf hq)⟩

end Sys2Proof
end

section
/-! PROOF. Halo: latching and clearing of faults, ALERT_N, injection and the safety chain (chapter 20). -/

namespace Sys2Proof.Machine

/-! ### Latching -/

/-- A latched fault that recurs counts, shows the new stamp and keeps a condition it has (R405). -/
def Flt.recurs (f : Flt) (stamp : Nat) (cond : Bool) : Flt :=
  { f with count := min (f.count + 1) 0xFFFF, last := stamp, cond := f.cond || cond }

theorem State.latch_of_latched {s : State} {code cls inst : Nat} {detail : Bytes} {cond injected : Bool} {f : Flt}
    (hf : s.fault? code inst = some f) :
    s.latch code cls inst detail cond injected none = s.setFaults (s.halo.faults.map (fun f =>
      if f.code = code ∧ f.inst = inst then f.recurs s.stamp cond else f)) := by
  simp only [State.latch, hf, Flt.recurs]

theorem State.faultLatch_of_class {s : State} {code inst detail cls : Nat} (h : faultClass code = some cls) :
    s.faultLatch code inst detail = s.latch code cls inst (le 12 detail) false false none := by
  simp only [State.faultLatch, h]

/-- A full wake is for a DORMANT device only. -/
theorem State.fullWake_of_awake {s : State} {cause ch : Nat} {v : Int} (h : s.pwState ≠ pwDormant) : s.fullWake cause ch v = s :=
  if_pos h

theorem State.fullWake_of_dormant {s : State} {cause ch : Nat} {v : Int} (h : s.pwState = pwDormant) :
    s.fullWake cause ch v = ((s.endSpit.setObj Obj.CIC_WAKE_CAUSE (cause : Nat)).riseDone pwStandby 3).event 24 0x1603
      [(12, 1, cause), (13, 1, ch), (16, 2, bitsOf 16 v), (20, 4, s.cic.wakes)] := by
  simp only [State.fullWake, h, ne_eq, not_true, if_false]

/-! ### Clearing and injecting -/

/-- Clearing the one fault a write names, which its writer may clear and whose condition is over or injected. -/
theorem State.fltClear_of_one {s : State} {v sess : Nat} {super : Bool} {f : Flt} (hinst : field v 16 16 ≠ 0xFFFF)
    (hn : s.halo.faults.filter (fun f => f.code == field v 0 16 && (field v 16 16 == 0xFFFF || f.inst == field v 16 16)) = [f])
    (hs : f.cls = safety → super = true) (hc : f.cond = true → f.injected = true) :
    s.fltClear v sess super = (s.clearOne (field v 0 16) (field v 16 16) sess, 0) := by
  have hsafe : ¬[f].any (fun f => f.cls == safety && !super) = true := by
    simpa using hs
  have hcond : ¬[f].any (fun f => f.cond && !f.injected) = true := by
    simpa using hc
  unfold State.fltClear
  simp only [hn, if_neg hinst, if_neg hsafe, if_neg hcond, List.isEmpty_cons, Bool.false_eq_true, if_false]

/-- An injection at a point that exists, in the MANUFACTURING lifecycle, of a fault that is not latched, latches it. -/
theorem State.injectSet_of_new {s : State} {v cls : Nat} (hp : field v 24 8 ≤ 1) (hl : s.obj Obj.SEC_LIFECYCLE = 0)
    (hcode : field v 24 8 = 1 → 0x1401 ≤ field v 0 16 ∧ field v 0 16 ≤ 0x140C) (hcls : faultClass (field v 0 16) = some cls)
    (hf : s.fault? (field v 0 16) (field v 16 8) = none) :
    s.injectSet v = (s.latch (field v 0 16) cls (field v 16 8) [] true true none, 0) := by
  have hg : ¬(field v 24 8 = 1 ∧ ¬(0x1401 ≤ field v 0 16 ∧ field v 0 16 ≤ 0x140C)) := fun h => h.2 (hcode h.1)
  unfold State.injectSet
  simp only [hp.not_gt, hl, ne_eq, not_true, if_neg hg, hcls, hf, Option.isSome_none, Bool.false_eq_true, if_false]

/-! ### The chain -/

theorem State.chainCheck_of_driven {s : State} (h : s.safeLow = true) : s.chainCheck = s := by
  unfold State.chainCheck
  rw [h, Bool.not_true, Bool.and_false]
  exact if_neg Bool.false_ne_true

theorem State.chainCheck_of_new {s : State} (hlow : s.halo.chainExt = false) (h : s.safeLow = false) (hf : s.fault? 0x140D 0 = none) :
    s.chainCheck = s.latch 0x140D safety 0 [] true false none := by
  simp only [State.chainCheck, hlow, h, hf, Bool.not_false, Bool.and_self, if_true]

end Sys2Proof.Machine

namespace Sys2Proof
open Machine

/-- Settles O37: each command's guards are the hypotheses of its clause. -/
theorem faultsLatch : Obligations.FaultsLatch := by
  unfold Obligations.FaultsLatch
  refine ⟨?_, ?_, ?_, ?_, ?_, ?_, ?_, ?_, ?_, ?_, ?_, ?_, ?_, ?_⟩
  · intro code inst detail cls s h
    exact congrArg (fun t => Host.Outcome.next (State.faultWakes s t)) (State.faultLatch_of_class h)
  · intro s t new
    refine ⟨fun h => ?_, fun h hn => (if_pos hn).trans (State.fullWake_of_dormant h)⟩
    by_cases hn : new = true
    · exact (if_pos hn).trans (State.fullWake_of_awake (h.resolve_right (by rw [hn]; decide)))
    · exact if_neg hn
  · intro c v f s hp u code inst hinst hn hs hc
    have hset : u.fltClearSet v.toNat c.sess (u.isSuper c.sess) = ((u.clearOne code inst c.sess).chainCheck, 0) := by
      unfold State.fltClearSet
      rw [State.fltClear_of_one hinst hn hs hc]
    exact congrArg Host.Outcome.next (State.numCmd_word Obj.kind_FLT_CLEAR v.isLt hp fun l =>
      (State.writeRule_FLT_CLEAR u c _ _ l).trans hset)
  · intro c v s hp u
    exact congrArg Host.Outcome.next (State.numCmd_byte Obj.kind_FLT_FEC_CLEAR v.isLt hp fun l =>
      State.writeRule_FLT_FEC_CLEAR u c _ _ l)
  · intro t s
    refine ⟨fun ha he h1 => congrArg Host.Outcome.next ?_, fun ha ht hp => congrArg Host.Outcome.next ?_,
      fun ha ht hp => congrArg Host.Outcome.next ?_⟩
    · simp only [State.alertEnd, State.alertRise, ha, he.not_gt, h1, if_false, if_true]
    · simp only [State.alertEnd, State.alertRise, ha, ht.not_gt, hp, Bool.false_eq_true, if_false]
    · simp only [State.alertEnd, State.alertRise, State.alertStart, ha, ht.not_gt, hp, if_false, if_true]
  · intro c v cls s hp u code inst point hpoint hl hcode hcls hf
    exact congrArg Host.Outcome.next (State.numCmd_word Obj.kind_DIAG_INJECT v.isLt hp fun l =>
      (State.writeRule_DIAG_INJECT u c _ _ l).trans (State.injectSet_of_new hpoint hl hcode hcls hf))
  · intro s u
    exact ⟨fun h => congrArg (fun t => Host.Outcome.next (State.faultWakes s t)) (State.chainCheck_of_driven h),
      fun h hf => congrArg (fun t => Host.Outcome.next (State.faultWakes s t)) (State.chainCheck_of_new rfl h hf)⟩
  · exact fun s => rfl
  · intro o s ho
    exact congrArg (fun t => Host.Outcome.next (State.faultWakes s t)) (if_neg ho.not_gt)
  · intro w s hw hb ht hf
    refine congrArg Host.Outcome.next ?_
    simp only [State.webLoss, hw, hb, ht.not_gt, hf, ne_eq, not_true, Bool.not_true, Bool.false_eq_true, or_self, if_false]
  · exact fun p s => rfl
  · intro ch v s hw he ht hin hnow hf
    refine congrArg Host.Outcome.next ?_
    simp only [State.presWinF, hw, he, ht, hin, hnow.not_gt, hf, Bool.not_true, Bool.false_eq_true, or_self, if_false]
  · intro n mv s h
    have hg : ¬((s.supplyWindow n.val).1 ≤ mv ∧ mv ≤ (s.supplyWindow n.val).2) := fun hin =>
      h.elim hin.1.not_gt hin.2.not_gt
    exact congrArg (fun t => Host.Outcome.next (State.faultWakes s t)) (if_neg hg)
  · exact fun code cls inst detail cond injected f s hf => State.latch_of_latched hf

end Sys2Proof
end

section
/-! PROOF. Twin operation: elections, takeover, the link and joining (chapter 21). -/

namespace Sys2Proof.Machine

/-! ### Elections -/

theorem State.electTimeout_of_due {s : State} (hst : s.twinState = twElecting) (hup : s.twin.up = false)
    (ht : s.twin.electSince + s.objN Obj.TWIN_ELECT_MS * msNs ≤ s.now) :
    s.electTimeout = if s.headsObey then s.setTwinState twJoining 0 else if Config.twinRole = 0 then s.electActive else s := by
  simp only [State.electTimeout, hst, hup, ht.not_gt, ne_eq, not_true, Bool.false_eq_true, or_self, if_false]

/-! ### Roles -/

theorem State.twinPartnerLost_of_silent {s : State} (hst : s.twinState = twActive) (hp : s.twin.partner = twStandby)
    (hh : s.twin.handing = false) (hs : s.twinSilent = true) : s.twinPartnerLost = s.loseStandby.twinDown := by
  simp only [State.twinPartnerLost, hst, hp, hh, hs, ne_eq, not_true, Bool.not_true, Bool.false_eq_true, or_self, if_false]

theorem State.twinSilence_of_silent {s : State} (hst : s.twinState = twStandby) (hup : s.twin.up = true) (hs : s.twinSilent = true) :
    s.twinSilence = (s.twinDown.takeHeads 1).partnerFault := by
  simp only [State.twinSilence, hst, hup, hs, ne_eq, not_true, Bool.not_true, Bool.false_eq_true, or_self, if_false]

theorem State.handOver_of_ready {s : State} (hst : s.twinState = twActive) (hp : s.twin.partner = twStandby) (hup : s.twin.up = true)
    (hh : s.twin.handing = false) : s.handOver = ((s.setTwin (fun t => { t with handing := true })).twinSend .handOver, 0) := by
  simp only [State.handOver, hst, hp, hup, hh, Bool.not_false, and_self, if_true]

theorem State.forceActive_of_alone {s : State} (hst : s.twinState = twElecting ∨ s.twinState = twFaulted) (hup : s.twin.up = false) :
    s.forceActive = (s.takeover ((s.headEpoch + 1) % 2 ^ 32) 5, 0) := by
  simp only [State.forceActive, hst, hup, Bool.not_false, and_self, if_true]

theorem State.twinPlanned_of_due {s : State} {t : Nat} (hh : s.twin.handing = true) (ha : s.hasAuthority = true)
    (hs : s.twin.stop = some t) (ht : t ≤ s.now) : s.twinPlanned = s.plannedStop := by
  simp only [State.twinPlanned, hh, ha, hs, Option.any_some, ht, decide_true, Bool.and_self, if_true]

theorem State.standbyReady_of_synced {s : State} (hst : s.twinState = twSyncing) (hj : s.syncJobs = 0)
    (ht : (s.obj Obj.TWIN_TIME_ERR).natAbs ≤ 1000) (hf : s.fault? 0x140E 0 = none) :
    s.standbyReady = s.setTwinState twStandby 0 := by
  simp only [State.standbyReady, hst, hj, ht, hf, Option.isNone_none, and_self, if_true]

/-- With no lane in test a write of TWIN_ENABLE is taken. -/
theorem State.writeRule_TWIN_ENABLE_of_free {s : State} {c : Ctx} {v : Nat} {d : Bytes} {l : Spans}
    (h : v = 1 → ∀ t, t < 12 → s.laneTest (160 + t) = false) : s.writeRule c Obj.TWIN_ENABLE (v : Int) d l = (s.twinEnableSet v, 0) := by
  rw [State.writeRule_TWIN_ENABLE]
  refine if_neg fun hv => ?_
  obtain ⟨hone, hany⟩ := hv
  obtain ⟨t, ht, hl⟩ := List.any_eq_true.mp hany
  rw [h hone t (List.mem_range.mp ht)] at hl
  exact Bool.false_ne_true hl

/-! ### The link -/

/-- A good frame that is neither a heartbeat nor an acknowledgement, and is the next in sequence, is acknowledged and applied. -/
theorem State.twinReceive_of_next {s : State} {seq : Nat} {i : TwinItem} (he : s.obj Obj.TWIN_ENABLE ≠ 0) (hr : s.ready 3 = true) :
    let u := if s.twin.up then s else s.twinTrained
    let w := u.setTwin (fun t => { t with lastRx := u.now })
    (∀ e, i = .heartbeat e → s.twinReceive seq true i = w.setTwin (fun t => { t with epochSeen := e })) ∧
    (∀ n, i = .ack n → s.twinReceive seq true i = w.rxAck n) ∧
    ((∀ e, i ≠ .heartbeat e) → (∀ n, i ≠ .ack n) → seq = w.twin.rxSeq →
      let x := w.setTwin (fun t => { t with rxSeq := (seq + 1) % 2 ^ 32 })
      s.twinReceive seq true i = (x.emit (.twin x.twin.txSeq (.ack seq))).rxApply i) := by
  have hg : ¬(!true || s.obj Obj.TWIN_ENABLE == 0 || !s.ready 3) = true := by
    rw [hr]
    simpa using he
  unfold State.twinReceive
  rw [if_neg hg]
  refine ⟨?_, ?_, fun hbeat hack hseq => ?_⟩
  · rintro e rfl
    rfl
  · rintro n rfl
    rfl
  · dsimp only
    split
    · exact absurd rfl (hbeat _)
    · exact absurd rfl (hack _)
    · exact if_pos hseq

end Sys2Proof.Machine

namespace Sys2Proof
open Machine

/-- Settles O38: each command's guards are the hypotheses of its clause. -/
theorem twinRuns : Obligations.TwinRuns := by
  unfold Obligations.TwinRuns
  refine ⟨?_, ?_, ?_, ?_, ?_, ?_, ?_, ?_, ?_, ?_, ?_, ?_, ?_, ?_, ?_⟩
  · intro trained s u hu
    have hg : ¬u.twinState ≠ twElecting := not_not.mpr hu
    refine ⟨fun ho => congrArg Host.Outcome.next ((if_neg hg).trans (if_pos ho)),
      fun ho hup => congrArg Host.Outcome.next ((if_neg hg).trans ((if_neg ?_).trans (if_neg ?_)))⟩
    · rw [ho]
      decide
    · rw [hup]
      decide
  · intro s hst hup ht
    have hdue := State.electTimeout_of_due hst hup ht
    refine ⟨fun ho => congrArg Host.Outcome.next (hdue.trans (if_pos ho)), fun ho => congrArg Host.Outcome.next (hdue.trans (if_neg ?_))⟩
    rw [ho]
    decide
  · intro s u
    exact ⟨fun hst he => congrArg Host.Outcome.next (if_pos ⟨hst, he⟩),
      fun h => congrArg Host.Outcome.next (if_neg fun hb => h.elim (· hb.1) (· hb.2))⟩
  · intro s hst hp hh hs
    exact congrArg Host.Outcome.next (State.twinPartnerLost_of_silent hst hp hh hs)
  · intro c v s hp u
    have hrun : (v.toNat = 1 → ∀ t, t < 12 → (s.touch c).laneTest (160 + t) = false) →
        exec (.twinEnable c v) s = .next (((s.touch c).twinEnableSet v.toNat).written Obj.TWIN_ENABLE (le 1 v.toNat)) := fun h =>
      congrArg Host.Outcome.next (State.numCmd_byte Obj.kind_TWIN_ENABLE v.isLt hp fun l => State.writeRule_TWIN_ENABLE_of_free h)
    refine ⟨?_, ?_⟩
    · rintro rfl hl
      exact hrun fun _ => hl
    · rintro rfl
      exact hrun fun h => absurd h (by decide)
  · intro c s hp u hst hpart hup hh
    exact congrArg Host.Outcome.next (State.numCmd_byte Obj.kind_TWIN_CMD (by decide) hp fun l =>
      (State.writeRule_TWIN_CMD u c _ _ l).trans (State.handOver_of_ready hst hpart hup hh))
  · intro c s hp u hst hup
    exact congrArg Host.Outcome.next (State.numCmd_byte Obj.kind_TWIN_CMD (by decide) hp fun l =>
      (State.writeRule_TWIN_CMD u c _ _ l).trans (State.forceActive_of_alone hst hup))
  · intro seq i s he hr u w
    obtain ⟨hbeat, hack, hnext⟩ := State.twinReceive_of_next (seq := seq) (i := i) he hr
    exact ⟨fun e h => congrArg Host.Outcome.next (hbeat e h), fun n h => congrArg Host.Outcome.next (hack n h),
      fun hb ha hseq => congrArg Host.Outcome.next (hnext hb ha hseq)⟩
  · intro s hup late again u
    refine congrArg Host.Outcome.next (if_neg ?_)
    rw [hup]
    decide
  · intro s hup ht
    refine congrArg Host.Outcome.next (if_neg ?_)
    rw [hup]
    exact not_or.mpr ⟨by decide, ht.not_gt⟩
  · intro s hst hup hs
    exact congrArg Host.Outcome.next (State.twinSilence_of_silent hst hup hs)
  · intro t s hh ha hs ht
    exact congrArg Host.Outcome.next (State.twinPlanned_of_due hh ha hs ht)
  · intro s hst hs
    exact congrArg Host.Outcome.next (if_pos ⟨hst, hs⟩)
  · intro s hst hj ht hf
    exact congrArg Host.Outcome.next (State.standbyReady_of_synced hst hj ht hf)
  · intro l s hup bad slow t
    refine congrArg (fun t : State => Host.Outcome.next (t.calInterrupt 1 (160 + l.val))) (if_neg ?_)
    rw [hup]
    decide

end Sys2Proof
end

section
/-! PROOF. Journal fragments, the lifecycle, keys and debug (chapter 22). -/

namespace Sys2Proof.Machine

/-! ### Fragments -/

/-- A journal ring that is enabled, runs and has room posts the next fragment of its record. -/
theorem State.fragPost_of_room {s : State} {i : Nat} {r0 : JRec} (hm : s.objBit Obj.JNL_RING_MASK i = true)
    (hr : s.ringRuns (56 + i) = true) (hroom : (s.ring (56 + i)).used < (s.ring (56 + i)).size) (hn : s.jnlNext (56 + i) = some r0) :
    let q := 56 + i
    let r := s.ring q
    let k := if r.fragRec = r0.num then r.fragIdx else 0
    let u := s.writeRecord q (fragBytes r0.bytes k)
    s.fragPost i = if r0.bytes.length ≤ 24 * (k + 1) then
        u.setRing q { u.ring q with fragRec := r0.num + 1, fragIdx := 0, fragEnds := (u.ring q).fragEnds ++ [(r0.num, (u.ring q).prod)] }
      else u.setRing q { u.ring q with fragRec := r0.num, fragIdx := k + 1 } := by
  simp only [State.fragPost, hm, hr, hroom.not_ge, hn, Bool.not_true, decide_false, Bool.or_self, Bool.false_eq_true, if_false]

/-! ### The lifecycle and the firmware counter -/

theorem State.svnCommit_of_newer {s : State} (h : s.fwFuse < s.objN Obj.SEC_IMAGE_SVN) :
    let w := s.secJournal 2 s.fwFuse (s.objN Obj.SEC_IMAGE_SVN) 0
    s.svnCommit = { w with jnl := { w.jnl with burnedSvn := some (s.objN Obj.SEC_IMAGE_SVN) } } := if_neg h.not_ge

/-- A later lifecycle state, by a session that may name it, with the keys that FIELD needs, is fused. -/
theorem State.lifecycleSet_of_later {s : State} {v : Nat} {super mailbox : Bool}
    (hwho : super = true ∨ (s.lifecycle = lcProvision ∧ mailbox = true)) (hv : v ≤ lcScrapped) (hlt : s.lifecycle < v)
    (hn : s.jnl.lifecycleNext = none)
    (hk : v = lcField → s.makerKeyIn = true ∧ s.debugKeyIn = true ∧ (List.range 4).any s.slotIn = true) :
    let w := s.secJournal 1 s.lifecycle v 0
    s.lifecycleSet v super mailbox = ({ w with jnl := { w.jnl with lifecycleNext := some v } }, 0) := by
  have hw : ¬(!super && !(s.lifecycle == lcProvision && mailbox)) = true := by
    rcases hwho with rfl | ⟨hl, rfl⟩
    · exact Bool.false_ne_true
    · rw [hl]
      simp
  have hrange : ¬(lcScrapped < v ∨ v < s.lifecycle) := not_or.mpr ⟨hv.not_gt, hlt.le.not_gt⟩
  have hkeys : ¬(v = lcField ∧ ¬(s.makerKeyIn = true ∧ s.debugKeyIn = true ∧ (List.range 4).any s.slotIn = true)) :=
    fun h => h.2 (hk h.1)
  simp only [State.lifecycleSet, if_neg hw, if_neg hrange, hn, hlt.ne', if_neg hkeys, Option.isSome_none, Bool.false_eq_true, if_false]

/-! ### Keys -/

theorem State.keyProvision_of_empty {s : State} {d : Bytes} {super mailbox : Bool} (hok : s.provisionOk super mailbox = 0)
    (hs : byteAt d 0 ≤ 3) (hin : s.slotIn (byteAt d 0) = false) :
    let w := (s.secJournal 3 0 0 (byteAt d 0)).setBit Obj.SEC_KEY_STATE (byteAt d 0) true
    s.keyProvision d super mailbox =
      ({ w with jnl := { w.jnl with keys := Tab.set [] w.jnl.keys (byteAt d 0) (slice d 1 32) } }, 0) := by
  simp only [State.keyProvision, hok, hs.not_gt, hin, ne_eq, not_true, Bool.false_eq_true, if_false]

theorem State.makerKeySet_of_empty {s : State} {d : Bytes} {super mailbox : Bool} (hok : s.provisionOk super mailbox = 0)
    (hin : s.makerKeyIn = false) : s.makerKeySet d super mailbox = ({ s with jnl := { s.jnl with makerKey := some d } }, 0) := by
  simp only [State.makerKeySet, hok, hin, ne_eq, not_true, Bool.false_eq_true, if_false]

theorem State.debugKeySet_of_empty {s : State} {d : Bytes} {super mailbox : Bool} (hok : s.provisionOk super mailbox = 0)
    (hin : s.debugKeyIn = false) : s.debugKeySet d super mailbox = ({ s with jnl := { s.jnl with debugKey := some d } }, 0) := by
  simp only [State.debugKeySet, hok, hin, ne_eq, not_true, Bool.false_eq_true, if_false]

theorem State.keyRevoke_of_other {s : State} {slot own : Nat} (hs : slot ≤ 3) (hl : s.lifecycle = lcField) (ho : own ≠ slot) :
    s.keyRevoke slot own =
      (((s.secJournal 4 0 0 slot).setBit Obj.SEC_KEY_STATE (4 + slot) true).setObj Obj.SEC_KEY_REVOKE (slot : Nat), 0) := by
  simp only [State.keyRevoke, hs.not_gt, hl, ho.symm, ne_eq, not_true, if_false]

/-! ### Debug -/

/-- In FIELD a supervisor's read of SEC_DEBUG_CHALLENGE draws a new one. -/
theorem State.debugChallenge_of_field {s : State} (hl : s.lifecycle = lcField) :
    let x := s.draw 32
    let ch := le 8 (s.objN Obj.DEVICE_ID) ++ s.blob Obj.JNL_BOOT_NONCE 0 16 ++ x.1 ++ zeros 8
    s.debugChallenge true = ({ x.2 with jnl := { x.2.jnl with challenge := some ch } }, 0, ch) := by
  simp only [State.debugChallenge, hl, ne_eq, not_true, Bool.not_true, Bool.false_eq_true, if_false]

theorem Obj.kind_SEC_DEBUG_CHALLENGE : Obj.kind Obj.SEC_DEBUG_CHALLENGE = some (13, .ro, false) := by decide

theorem State.readObj_SEC_DEBUG_CHALLENGE {s : State} {sess : Nat} {st : Bool} (ho : s.offDomain Obj.SEC_DEBUG_CHALLENGE = none) :
    let x := s.debugChallenge (s.isSuper sess)
    ∃ ty, s.readObj sess Obj.SEC_DEBUG_CHALLENGE st = { st := x.1, status := x.2.1, ty := ty, data := x.2.2 } := by
  have hk := Obj.kind_SEC_DEBUG_CHALLENGE
  unfold Obj.kind at hk
  obtain ⟨⟨r, n⟩, hf, hr⟩ := Option.map_eq_some_iff.mp hk
  have hwo : r.acc ≠ .wo := by
    intro h
    rw [h] at hr
    simp at hr
  have htrace : s.traceBusy Obj.SEC_DEBUG_CHALLENGE = false := rfl
  refine ⟨r.ty, ?_⟩
  unfold State.readObj
  rw [if_neg (by decide), hf]
  simp only [hwo, ho, htrace, Bool.false_eq_true, if_false, if_true]

/-- The response to the challenge that stands, under the device's debug key, opens debug with the scope it names. -/
theorem State.debugResponse_of_valid {s : State} {d ch : Bytes} (hl : s.lifecycle = lcField) (hscope : getN d 0 4 < 8)
    (hc : s.jnl.challenge = some ch) (hkey : sha384 (slice d 4 97) = s.debugKeyDigest)
    (hsig : ecdsaVerify (slice d 4 97) (sha384 (ch ++ slice d 0 101)) (slice d 101 96) = true) :
    let w := s.secJournal 5 (b2n s.jnl.debugOpen) 1 (getN d 0 4)
    s.debugResponse d true =
      (({ w with jnl := { w.jnl with debugOpen := true, debugScope := getN d 0 4 } } : State).setObj Obj.SEC_DEBUG_STATE 1, 0) := by
  simp only [State.debugResponse, hl, hscope.not_ge, hc, hkey, hsig, ne_eq, not_true, Bool.not_true, Bool.false_eq_true, decide_true,
    Bool.and_self, if_false, if_true]

theorem State.debugClose_of_open {s : State} (h : s.jnl.debugOpen = true) :
    let w := s.secJournal 6 1 0 s.jnl.debugScope
    s.debugClose = ({ w with jnl := { w.jnl with debugOpen := false, debugScope := 0 } } : State).setObj Obj.SEC_DEBUG_STATE 0 := by
  simp only [State.debugClose, h, Bool.not_true, Bool.false_eq_true, if_false]

theorem State.debugClose_of_closed {s : State} (h : s.jnl.debugOpen = false) : s.debugClose = s := by
  simp only [State.debugClose, h, Bool.not_false, if_true]

end Sys2Proof.Machine

namespace Sys2Proof
open Machine

/-- Settles O39: each write by its object's own rule, whose guards are the clause's hypotheses. -/
theorem securityObjectsWrite : Obligations.SecurityObjectsWrite := by
  unfold Obligations.SecurityObjectsWrite
  refine ⟨?_, ?_, ?_, ?_, ?_, ?_, ?_, ?_, ?_, ?_⟩
  · intro i r0 s hm hr hroom hn q r k u
    have hpost := State.fragPost_of_room hm hr hroom hn
    exact ⟨fun h => congrArg Host.Outcome.next (hpost.trans (if_pos h)),
      fun h => congrArg Host.Outcome.next (hpost.trans (if_neg h.not_ge))⟩
  · intro c v s hp u svn
    have hrun : ∀ {t : State}, u.svnCommit = t → exec (.secSvnCommit c v) s = .next (t.written Obj.SEC_SVN_COMMIT (le 1 v.toNat)) :=
      fun ht => congrArg Host.Outcome.next (State.numCmd_byte Obj.kind_SEC_SVN_COMMIT v.isLt hp fun l =>
        (State.writeRule_SEC_SVN_COMMIT u c _ _ l).trans (congrArg (·, 0) ht))
    exact ⟨fun h => hrun (State.svnCommit_of_newer h), fun h => hrun (if_pos h)⟩
  · intro c v s hp u hwho hv hlt hn hk w
    exact congrArg Host.Outcome.next (State.numCmd_byte Obj.kind_SEC_LIFECYCLE v.isLt hp fun l =>
      (State.writeRule_SEC_LIFECYCLE u c _ _ l).trans
        (State.lifecycleSet_of_later (hwho.imp_right (And.imp_right decide_eq_true)) hv hlt hn hk))
  · intro c d s hp u hok hs hin w
    exact congrArg Host.Outcome.next (State.tableCmd_written hp Obj.kind_SEC_KEY_PROVISION (by decide) fun l =>
      (State.writeRule_SEC_KEY_PROVISION u c _ d l).trans (State.keyProvision_of_empty hok hs hin))
  · intro c d s hp u hok hin
    exact congrArg Host.Outcome.next (State.tableCmd_written hp Obj.kind_SEC_MAKER_KEY (by decide) fun l =>
      (State.writeRule_SEC_MAKER_KEY u c _ d l).trans (State.makerKeySet_of_empty hok hin))
  · intro c d s hp u hok hin
    exact congrArg Host.Outcome.next (State.tableCmd_written hp Obj.kind_SEC_DEBUG_KEY (by decide) fun l =>
      (State.writeRule_SEC_DEBUG_KEY u c _ d l).trans (State.debugKeySet_of_empty hok hin))
  · intro c v s hp u hs hl ho
    exact congrArg Host.Outcome.next (State.numCmd_byte Obj.kind_SEC_KEY_REVOKE v.isLt hp fun l =>
      (State.writeRule_SEC_KEY_REVOKE u c _ _ l).trans (State.keyRevoke_of_other hs hl ho))
  · intro c s hup ho u hoff hl hsup x ch
    obtain ⟨ty, hread⟩ := State.readObj_SEC_DEBUG_CHALLENGE (sess := c.sess) (st := false) hoff
    rw [hsup, State.debugChallenge_of_field hl] at hread
    refine congrArg Host.Outcome.next (State.inCmd_plain hup ho ?_)
    dsimp only
    rw [hread]
    rfl
  · intro c d ch s hp u hl hsup hscope hc hkey hsig w
    exact congrArg Host.Outcome.next (State.tableCmd_written hp Obj.kind_SEC_DEBUG_RESPONSE (by decide) fun l =>
      (State.writeRule_SEC_DEBUG_RESPONSE u c _ d l).trans
        ((congrArg (u.debugResponse d) hsup).trans (State.debugResponse_of_valid hl hscope hc hkey hsig)))
  · intro c v s hp u
    have hrun : ∀ {t : State}, u.debugClose = t → exec (.secDebugState c v) s = .next (t.written Obj.SEC_DEBUG_STATE (le 1 v.toNat)) :=
      fun ht => congrArg Host.Outcome.next (State.numCmd_byte Obj.kind_SEC_DEBUG_STATE v.isLt hp fun l =>
        (State.writeRule_SEC_DEBUG_STATE u c _ _ l).trans (congrArg (·, 0) ht))
    exact ⟨fun h => hrun (State.debugClose_of_open h), fun h => hrun (State.debugClose_of_closed h)⟩

end Sys2Proof
end

section
/-! PROOF. Cicada: wakes, spits, their failures and full wakes (chapter 23). -/

namespace Sys2Proof.Machine

/-- A wake that is due while no spit runs: a channel outside its window wakes the device, a wake that CIC_SPIT_EVERY
divides starts a spit. -/
theorem State.cicadaWake_of_due {s : State} {adc : List Nat} {pins : Nat} (hst : s.pwState = pwDormant)
    (hnext : s.cic.next ≤ s.time.dormant) (hlate : s.cic.late = false) :
    let u := (s.count Obj.CIC_WAKES 1).setCic (fun c => { c with wakes := c.wakes + 1, pins := pins })
    let period := u.objN Obj.CIC_PERIOD_S * 10000000
    let w := (u.cicReadings adc).setCic (fun c => { c with next := c.next + period })
    u.cic.spit = none →
    (∀ ch v, w.cicOutside adc = some (ch, v) → s.cicadaWake adc pins = w.fullWake 1 ch (v : Int)) ∧
    (w.cicOutside adc = none → s.cicadaWake adc pins =
      if 0 < w.objN Obj.CIC_SPIT_EVERY ∧ w.cic.wakes % w.objN Obj.CIC_SPIT_EVERY = 0 then w.startSpit else w) := by
  intro u period w hspit
  have hg : ¬(s.pwState ≠ pwDormant ∨ s.time.dormant < s.cic.next ∨ s.cic.late = true) := by
    rw [hst, hlate]
    exact not_or.mpr ⟨not_not.mpr rfl, not_or.mpr ⟨hnext.not_gt, Bool.false_ne_true⟩⟩
  simp only [u] at hspit
  refine ⟨fun ch v ho => ?_, fun ho => ?_⟩ <;> simp only [u, period, w] at ho <;>
    simp only [State.cicadaWake, if_neg hg, hspit, ho, u, period, w]

/-- A ready spit with every head locked sends its next line when it is due. -/
theorem State.spitLine_of_due {s : State} {p : Spit} (hp : s.cic.spit = some p) (hr : p.ready = true)
    (hnext : p.next ≤ s.time.dormant) (hlost : s.lostBars p = []) (hw : p.wake = none) (hb : p.bars ≠ []) :
    let x := s.drawNat
    let heads := (p.bars.map barHeads).flatten
    let u := heads.foldl (fun (s : State) h => s.spitHead p.line (x.1 % 2 ^ 63) (s.objN Obj.CIC_SPIT_DOT) h) x.2
    s.spitLine = if p.line + 1 < u.objN Obj.CIC_SPIT_LINES then u.setCic (fun c => { c with spit := some { p with
        line := p.line + 1, next := u.time.dormant + 10 * u.objN Obj.CIC_SPIT_PERIOD_US } })
      else (p.bars.foldl (fun (s : State) b => s.countElem Obj.CIC_SPIT_CNT b 4 32 1) u).endSpit := by
  have hne : p.bars.isEmpty = false := List.isEmpty_eq_false_iff.mpr hb
  simp only [State.spitLine, hp, hr, hlost, hw, hne, hnext.not_gt, List.isEmpty_nil, Bool.not_true, Bool.false_eq_true, and_false,
    if_false, if_true]

theorem State.spitTimeout_of_lost {s : State} {p : Spit} (hp : s.cic.spit = some p) (hr : p.ready = false)
    (ht : p.since + 1000000 ≤ s.time.dormant) (hl : s.lostBars p ≠ []) : s.spitTimeout = s.spitFails p (s.lostBars p) := by
  have hne : (s.lostBars p).isEmpty = false := List.isEmpty_eq_false_iff.mpr hl
  simp only [State.spitTimeout, hp, hr, ht.not_gt, hne, Bool.false_eq_true, or_self, if_false]

end Sys2Proof.Machine

namespace Sys2Proof
open Machine

/-- Settles O40: each command's guards are the hypotheses of its clause. -/
theorem cicadaWakes : Obligations.CicadaWakes := by
  unfold Obligations.CicadaWakes
  refine ⟨?_, ?_, ?_, ?_⟩
  · intro adc pins s hst hnext hlate u period w hspit
    obtain ⟨hout, hin⟩ := State.cicadaWake_of_due (adc := adc) (pins := pins.toNat) hst hnext hlate hspit
    exact ⟨fun ch v ho => congrArg Host.Outcome.next (hout ch v ho),
      fun ho he hm => congrArg Host.Outcome.next ((hin ho).trans (if_pos ⟨he, hm⟩)),
      fun ho he => congrArg Host.Outcome.next ((hin ho).trans (if_neg fun h => absurd he h.1.ne'))⟩
  · intro p s hp hr hnext hlost hw hb x heads u
    have hline := State.spitLine_of_due hp hr hnext hlost hw hb
    exact ⟨fun h => congrArg Host.Outcome.next (hline.trans (if_pos h)),
      fun h => congrArg Host.Outcome.next (hline.trans (if_neg h.not_gt))⟩
  · intro p s hp hr ht hl
    exact congrArg Host.Outcome.next (State.spitTimeout_of_lost hp hr ht hl)
  · intro s hpin hst
    refine congrArg Host.Outcome.next ((if_neg ?_).trans (State.fullWake_of_dormant hst))
    rw [hpin]
    exact Bool.false_ne_true

end Sys2Proof
end

section
/-! PROOF. Clocks, resets and boot, and the Ethernet ports (chapters 24 and 15). -/

namespace Sys2Proof.Machine

/-! ### Resets -/

/-- A source of Table 24.3 that reaches the device resets it in full; a host reset only when its millisecond is over. -/
theorem State.resetBy_of_source {s : State} {src : Nat} (h0 : src ≠ 0) (h7 : src ≤ 7) (hoff : s.pwr.off = true → src ≤ 2)
    (h5 : src = 5 → ∃ t, s.pwr.resetAt = some t ∧ t ≤ s.aclkNs) : s.resetBy src = s.fullReset src := by
  have hreach : ¬(src = 0 ∨ 7 < src ∨ (s.pwr.off = true ∧ 2 < src)) := by
    rintro (h | h | ⟨hp, h⟩)
    · exact h0 h
    · exact h7.not_gt h
    · exact (hoff hp).not_gt h
  have hdue : ¬(src = 5 ∧ (!s.pwr.resetAt.any (fun t => decide (t ≤ s.aclkNs))) = true) := by
    rintro ⟨h, hn⟩
    obtain ⟨t, ht, hle⟩ := h5 h
    rw [ht, Option.any_some, decide_eq_true hle] at hn
    exact Bool.false_ne_true hn
  exact (if_neg hreach).trans (if_neg hdue)

/-- A management pair resets with the source of the fault that its watchdog or its silence has latched. -/
theorem State.pairReset_of_fault {s : State} {pair : Nat}
    (h : (s.fault? 0x1407 pair).isSome = true ∨ (s.fault? 0x140B pair).isSome = true) :
    let source := if (s.fault? 0x1407 pair).isSome then 6 else 7
    s.pairReset pair = ((((s.toa.sessions.foldl (fun (s : State) x => s.closeSession x.id 2) s).setObj Obj.RST_SOURCE (source : Nat)).count
      Obj.RST_COUNT 1)).latch 0x140E safety source [] false false none := by
  intro source
  unfold State.pairReset
  by_cases hw : (s.fault? 0x1407 pair).isSome = true
  · simp only [source, if_pos hw]
    rfl
  · simp only [source, if_neg hw, if_pos (h.resolve_left hw)]
    rfl

/-- A reset is requested with nothing in flight and no journal record unsaved, or forced. -/
theorem State.rstRequestSet_of_allowed {s : State} {v : Nat} (hv : v = 1 ∨ v = 2) (hidle : v = 1 → s.hq.jobs = [] ∧ s.jnlFill = 0) :
    s.rstRequestSet v =
      ((s.secJournal 7 0 v 0).setPwr (fun p => { p with resetAt := some (s.aclkNs + 1000000) }), 0) := by
  have hval : ¬(v ≠ 1 ∧ v ≠ 2) := fun h => hv.elim h.1 h.2
  have hbusy : ¬(v = 1 ∧ ((!s.hq.jobs.isEmpty) = true ∨ s.jnlFill ≠ 0)) := by
    rintro ⟨h1, h⟩
    obtain ⟨hj, hf⟩ := hidle h1
    rw [hj] at h
    exact h.elim (fun hn => absurd hn (by decide)) (· hf)
  exact (if_neg hval).trans (if_neg hbusy)

/-! ### The root PLL -/

theorem State.pllLock_of_running {s : State} (hl : s.pwr.pllLost = false) (hoff : s.pwr.off = false) (hst : s.pwState ≠ pwDormant) :
    s.pllLock = (((s.setBit Obj.CLK_STATUS 0 true).setBit Obj.CLK_STATUS 1 true).condEnd 0x1408 0).condEnd 0x1408 1 := by
  simp only [State.pllLock, hl, hoff, hst, Bool.false_eq_true, or_self, if_false]

theorem State.pllRetry_of_new {s : State} {refclk : Bool} (hc : s.objBit Obj.CLK_STATUS 1 = false) (hb : s.jnl.booted = false)
    (hf : (s.setBit Obj.CLK_STATUS 0 refclk).fault? 0x1408 (b2n refclk) = none) :
    s.pllRetry refclk = (s.setBit Obj.CLK_STATUS 0 refclk).latch 0x1408 safety (b2n refclk) [] true false none := by
  simp only [State.pllRetry, hc, hb, hf, Option.any_none, Bool.false_eq_true, or_self, if_false]

theorem State.pllLoss_of_locked {s : State} (hc : s.objBit Obj.CLK_STATUS 1 = true) :
    s.pllLoss = (((s.count Obj.CLK_LOCK_LOSS_CNT 1).latch 0x1408 safety 1 [] true false none).setBit Obj.CLK_STATUS 1 false).setPwr
      (fun p => { p with pllLost := true }) := by
  simp only [State.pllLoss, hc, Bool.not_true, Bool.false_eq_true, if_false]

/-! ### The Ethernet ports -/

theorem State.ethFrame_of_bad {s : State} {p : Nat} {f : Bytes} (hup : s.enUp p = true) :
    s.ethFrame p f false = s.count (Obj.EN_RX_ERR p) 1 := by
  simp only [State.ethFrame, State.enCount, hup, Bool.not_true, Bool.false_eq_true, if_false]

/-- A good frame counts, and is answered where it asks for it. -/
theorem State.ethFrame_of_good {s : State} {p : Nat} {f : Bytes} (hup : s.enUp p = true) :
    s.ethFrame p f true = ((s.count (Obj.EN_RX_FRAMES p) 1).enAnswer p f).elim (s.count (Obj.EN_RX_FRAMES p) 1)
      (fun r => (s.count (Obj.EN_RX_FRAMES p) 1).emit (.eth p r)) := by
  simp only [State.ethFrame, State.enCount, hup, Bool.not_true, Bool.false_eq_true, if_false, if_true]
  cases (s.count (Obj.EN_RX_FRAMES p) 1).enAnswer p f <;> rfl

end Sys2Proof.Machine

namespace Sys2Proof
open Machine

/-- Settles O41: each command's guards are the hypotheses of its clause. -/
theorem resetAndBoot : Obligations.ResetAndBoot := by
  unfold Obligations.ResetAndBoot
  refine ⟨?_, ?_, ?_, ?_, ?_, ?_, ?_, ?_, ?_, ?_⟩
  · intro src s h0 h7 hoff h5
    exact congrArg Host.Outcome.next (State.resetBy_of_source h0 h7 hoff h5)
  · intro pair s source h
    exact congrArg Host.Outcome.next (State.pairReset_of_fault h)
  · intro s hl hoff hst
    exact congrArg Host.Outcome.next (State.pllLock_of_running hl hoff hst)
  · intro refclk s hc hb u hf
    exact congrArg Host.Outcome.next (State.pllRetry_of_new hc hb hf)
  · intro s hc
    exact congrArg (fun t => Host.Outcome.next (State.faultWakes s t)) (State.pllLoss_of_locked hc)
  · intro c s hp u hj hf
    exact congrArg Host.Outcome.next (State.numCmd_byte Obj.kind_RST_REQUEST (by decide) hp fun l =>
      (State.writeRule_RST_REQUEST u c _ _ l).trans (State.rstRequestSet_of_allowed (.inl rfl) fun _ => ⟨hj, hf⟩))
  · intro c s hp u
    exact congrArg Host.Outcome.next (State.numCmd_byte Obj.kind_RST_REQUEST (by decide) hp fun l =>
      (State.writeRule_RST_REQUEST u c _ _ l).trans (State.rstRequestSet_of_allowed (.inr rfl) fun h => absurd h (by decide)))
  · intro s hb hr hoff u u1 x u2 u3
    have hg : ¬(s.jnl.booted = true ∨ (!s.ready 1) = true ∨ s.pwr.off = true) := by
      rw [hb, hr, hoff]
      decide
    refine ⟨fun hlow => congrArg Host.Outcome.next ((if_neg hg).trans (if_neg ?_)),
      fun hlow he => congrArg Host.Outcome.next ((if_neg hg).trans (if_pos ?_))⟩
    · exact fun h => Bool.false_ne_true (hlow.symm.trans ((Bool.and_eq_true _ _).mp h).1)
    · exact (Bool.and_eq_true _ _).mpr ⟨hlow, beq_iff_eq.mpr he⟩
  · intro p up s hr
    refine congrArg Host.Outcome.next (if_neg ?_)
    rw [hr]
    decide
  · intro p f s hup
    have hgood := State.ethFrame_of_good (f := f) hup
    refine ⟨congrArg Host.Outcome.next (State.ethFrame_of_bad hup), fun hn => congrArg Host.Outcome.next ?_,
      fun r hn => congrArg Host.Outcome.next ?_⟩
    · rw [hgood, hn]
      rfl
    · rw [hgood, hn]
      rfl

end Sys2Proof
end

section
/-! PROOF. Access rights of objects (R303, R304, R451). -/

namespace Sys2Proof.Machine

theorem State.readObj_of_none {s : State} {sess k : Nat} {st : Bool} (hf : Obj.find k = none)
    (hk : k % 256 ≠ 0 ∨ Obj.countOf (k / 256) = none) : s.readObj sess k st = { st := s, status := 1 } := by
  by_cases h0 : k % 256 = 0
  · simp only [State.readObj, h0, if_true, hk.resolve_left (not_not.mpr h0)]
  · simp only [State.readObj, h0, if_false, hf]

theorem State.readObj_of_wo {s : State} {sess k n : Nat} {st : Bool} {r : Obj.ObjRow} (h0 : k % 256 ≠ 0)
    (hf : Obj.find k = some (r, n)) (hr : r.acc = .wo) : s.readObj sess k st = { st := s, status := 2, ty := r.ty } := by
  simp only [State.readObj, h0, if_false, hf, hr, if_true]

theorem State.writeAccess_of_none {s : State} {sess k : Nat} (hf : Obj.find k = none)
    (hk : k % 256 ≠ 0 ∨ Obj.countOf (k / 256) = none) : s.writeAccess sess k = 1 := by
  have hg : ¬(k % 256 = 0 ∧ (Obj.countOf (k / 256)).isSome = true) := fun ⟨h0, hc⟩ => by
    rw [hk.resolve_left (not_not.mpr h0)] at hc
    exact absurd hc (by decide)
  simp only [State.writeAccess, hf, if_neg hg]

theorem State.writeAccess_of_ro {s : State} {sess k n : Nat} {r : Obj.ObjRow} (hf : Obj.find k = some (r, n)) (hr : r.acc = .ro) :
    s.writeAccess sess k = 2 := by
  simp only [State.writeAccess, hf, hr, if_true]

theorem State.writeAccess_of_supervised {s : State} {sess k n : Nat} {r : Obj.ObjRow} (hf : Obj.find k = some (r, n))
    (hr : r.acc = .rws ∨ r.acc = .rwbs) (hk : k ≠ Obj.SEC_LIFECYCLE) (ha : s.hasAuthority = true) :
    s.writeAccess sess k = if s.isSuper sess then 0 else 7 := by
  have hro : r.acc ≠ .ro := by
    rintro h
    rw [h] at hr
    exact hr.elim Obj.Acc.noConfusion Obj.Acc.noConfusion
  simp only [State.writeAccess, hf, hro, if_false, ha, Bool.not_true, Bool.false_and, Bool.false_eq_true, hr, hk, ne_eq,
    not_false_iff, true_and, and_true]
  cases s.isSuper sess <;> rfl

/-- A key whose object has an access right names an object with that right. -/
theorem Obj.exists_of_any_acc {k : Nat} {p : Obj.Acc → Bool} (h : (Obj.find k).any (fun x => p x.1.acc) = true) :
    ∃ r n, Obj.find k = some (r, n) ∧ p r.acc = true := by
  obtain ⟨⟨r, n⟩, hf, hr⟩ := (Option.any_eq_true _ _).mp h
  exact ⟨r, n, hf, hr⟩

end Sys2Proof.Machine

namespace Sys2Proof
open Machine

/-- Settles O45, by the access right of the object the key names. -/
theorem accessRights : Obligations.AccessRights := by
  unfold Obligations.AccessRights
  refine ⟨fun sess k st s h0 h => ?_, fun sess k s h => ?_, fun sess k s h hk ha => ?_, fun sess k st s hf hk => ?_⟩
  · obtain ⟨r, n, hf, hr⟩ := Obj.exists_of_any_acc (p := (· == .wo)) h
    rw [State.readObj_of_wo h0 hf (beq_iff_eq.mp hr)]
    exact ⟨rfl, rfl⟩
  · obtain ⟨r, n, hf, hr⟩ := Obj.exists_of_any_acc (p := (· == .ro)) h
    exact State.writeAccess_of_ro hf (beq_iff_eq.mp hr)
  · obtain ⟨r, n, hf, hr⟩ := Obj.exists_of_any_acc (p := fun a => a == .rws || a == .rwbs) h
    exact State.writeAccess_of_supervised hf (by simpa using hr) hk ha
  · rw [State.readObj_of_none hf hk]
    exact ⟨rfl, State.writeAccess_of_none hf hk⟩

end Sys2Proof
end

section
/-! PROOF. DRAM as a store of bytes, and where accesses stop (chapter 18). -/

namespace Sys2Proof.Machine

theorem State.dramByte_dramSet (s : State) (a x : Nat) (v : Byte) :
    (s.dramSet a v).dramByte x = if x = a then v else s.dramByte x := Tab.get_set ..

/-- A run of bytes written reads as its bytes inside it and as before outside it. -/
theorem State.dramByte_dramPut (d : Bytes) (s : State) (a x : Nat) :
    (s.dramPut a d).dramByte x = if a ≤ x ∧ x < a + d.length then d.getD (x - a) 0 else s.dramByte x := by
  induction d generalizing s a with
  | nil => exact (if_neg (fun h => absurd (h.1.trans_lt h.2) (by simp))).symm
  | cons b d ih =>
    rw [State.dramPut, ih, State.dramByte_dramSet, List.length_cons]
    rcases lt_trichotomy x a with hx | rfl | hx
    · rw [if_neg (by omega), if_neg (by omega), if_neg (by omega)]
    · rw [if_neg (by omega), if_pos rfl, if_pos (by omega), Nat.sub_self, List.getD_cons_zero]
    · have hsub : x - a = x - (a + 1) + 1 := by omega
      rw [if_neg (show x ≠ a by omega), hsub, List.getD_cons_succ]
      exact if_congr (by omega) rfl rfl

theorem State.dramGet_dramPut (d : Bytes) (s : State) (a : Nat) : (s.dramPut a d).dramGet a d.length = d := by
  refine List.ext_getElem (by simp [State.dramGet]) fun i _ hi => ?_
  have hin : a ≤ a + i ∧ a + i < a + d.length := by omega
  simp only [State.dramGet, List.getElem_map, List.getElem_range, State.dramByte_dramPut, if_pos hin, Nat.add_sub_cancel_left]
  exact List.getD_eq_getElem _ _ hi

theorem exec_dramRead_of_beyond {port : Fin 8} {addr age : Nat} {e : List (Nat × Nat)} {s : State} (hr : s.dramReady = true)
    (h : s.usable ≤ addr) : exec (.dramRead port addr age e) s = .fault (.noSuchAddress addr) := by
  show execDramRead port addr age e s = _
  simp only [execDramRead, hr, h, Bool.not_true, Bool.false_eq_true, if_false, if_true]

theorem exec_dramWrite_of_beyond {port : Fin 8} {addr age : Nat} {d : Bytes} {e : List (Nat × Nat)} {s : State}
    (hr : s.dramReady = true) (h : s.usable < addr + d.length) :
    exec (.dramWrite port addr d age e) s = .fault (.noSuchAddress addr) := by
  show execDramWrite port addr d age e s = _
  simp only [execDramWrite, hr, h, Bool.not_true, Bool.false_eq_true, if_false, if_true]

end Sys2Proof.Machine

namespace Sys2Proof
open Machine

/-- Settles O46, by induction on the bytes of the run. -/
theorem dramHoldsBytes : Obligations.DramHoldsBytes := by
  unfold Obligations.DramHoldsBytes
  exact ⟨State.dramByte_dramSet, State.dramByte_dramPut, State.dramGet_dramPut⟩

/-- Settles O47: an access checks its end against the usable bytes before it does anything. -/
theorem dramStops : Obligations.DramStops := by
  unfold Obligations.DramStops
  exact ⟨fun _ _ _ _ _ => exec_dramRead_of_beyond, fun _ _ _ _ _ _ => exec_dramWrite_of_beyond⟩

end Sys2Proof
end

section
/-! PROOF. Frames of the shared operations: objects, table bytes, events and counters (chapters 1 and 2). -/

namespace Sys2Proof.Machine

/-! ### Objects and table bytes -/

theorem blobAddr_inj {k j o p : Nat} (ho : o < 2 ^ 24) (hp : p < 2 ^ 24) : blobAddr j p = blobAddr k o ↔ j = k ∧ p = o := by
  simp only [blobAddr]
  omega

theorem State.byte_setByte {k o j p : Nat} (s : State) (v : Byte) (ho : o < 2 ^ 24) (hp : p < 2 ^ 24) :
    (s.setByte k o v).byte j p = if j = k ∧ p = o then v else s.byte j p := by
  unfold State.byte State.setByte
  by_cases h : j = k ∧ p = o
  · obtain ⟨rfl, rfl⟩ := h
    rw [if_pos ⟨rfl, rfl⟩]
    exact Tab.get_set_same ..
  · rw [if_neg h]
    exact Tab.get_set_of_ne' _ _ _ _ _ _ fun hk => h ((blobAddr_inj ho hp).mp hk)

/-! ### Records -/

/-- Handing a record to its ring changes the host queues alone, and no job in them. -/
theorem State.pushRaw_frame (s : State) (q : Nat) (rec : Bytes) :
    (s.pushRaw q rec).1 = { s with hq := (s.pushRaw q rec).1.hq } ∧ (s.pushRaw q rec).1.hq.jobs = s.hq.jobs := by
  unfold State.pushRaw
  extract_lets r x y rec'
  split
  · exact ⟨rfl, rfl⟩
  · split <;> exact ⟨rfl, rfl⟩

theorem State.push_frame (s : State) (q : Nat) (rec : Bytes) :
    (s.push q rec) = { s with hq := (s.push q rec).hq } ∧ (s.push q rec).hq.jobs = s.hq.jobs := by
  unfold State.push
  obtain ⟨hs, hj⟩ := State.pushRaw_frame s q rec
  extract_lets x
  split
  · obtain ⟨hs', hj'⟩ := State.pushRaw_frame x.1 24 (x.1.eventBytes 0x0101 0 0 [(12, 2, 0), (14, 1, 2), (15, 1, q), (16, 4, 0x24)])
    refine ⟨hs'.trans ?_, hj'.trans hj⟩
    rw [hs]
    rfl
  · exact ⟨hs, hj⟩

/-! ### Counters -/

/-- The largest value of the counter of a key: its object's type, or 4 bytes where no object has the key. -/
def counterTop (k : Nat) : Nat := counterMax ((Obj.find k).elim 4 fun x => x.1.ty)

/-- A counter short of its maximum takes what it counts. -/
theorem State.count_of_short {s : State} {k n : Nat} (h : s.objN k + n < counterTop k) (hn : n ≠ 0) :
    s.count k n = s.setObj k ((s.objN k + n : Nat) : Int) := by
  have hlt : s.objN k < counterTop k := (Nat.le_add_right _ n).trans_lt h
  unfold counterTop at h hlt
  cases hf : Obj.find k <;> rw [hf] at h hlt <;> dsimp only [Option.elim] at h hlt <;>
    simp only [State.count, hf, hlt.not_ge, hn, min_eq_right h.le, h.ne, or_self, if_false]

/-- A counter that counts nothing is left as it is. -/
theorem State.count_zero (s : State) (k : Nat) : s.count k 0 = s := if_pos (.inr rfl)

end Sys2Proof.Machine

namespace Sys2Proof
open Machine

/-- Settles O48: a write by its key, an event by the ring it changes, a counter by what it counts. -/
theorem sharedOperationsFrame : Obligations.SharedOperationsFrame := by
  unfold Obligations.SharedOperationsFrame
  refine ⟨State.obj_setObj, fun s k o j p v ho hp => State.byte_setByte s v ho hp, fun s q code args => ?_, fun s k n j h => ?_⟩
  · obtain ⟨hs, hj⟩ := State.push_frame s q (s.eventBytes code 0 0 args)
    refine ⟨?_, ?_, ?_, ?_, ?_, ?_, ?_, hj⟩ <;> exact (congrArg _ hs).trans rfl
  · have htop : s.objN k + n < counterTop k := by
      unfold counterTop
      cases hf : Obj.find k <;> rw [hf] at h <;> exact h
    by_cases hn : n = 0
    · rw [hn, State.count_zero, if_neg (fun h => h.2 rfl)]
    · rw [State.count_of_short htop hn, State.obj_setObj]
      exact if_congr (and_iff_left hn).symm rfl rfl

end Sys2Proof
end

section
/-! PROOF. A fault that recurs while it is latched (R405). -/

namespace Sys2Proof.Machine

/-- What finds an element of a list finds its image in a map that changes only what is found, and leaves it to be found. -/
theorem find?_map_of_found {α : Type} {p : α → Bool} {g : α → α} {l : List α} {x : α} (hkeep : ∀ y, p y = true → p (g y) = true)
    (h : l.find? p = some x) : (l.map (fun y => if p y = true then g y else y)).find? p = some (g x) := by
  induction l with
  | nil => exact absurd h (by simp)
  | cons y l ih =>
    by_cases hy : p y = true
    · obtain rfl : y = x := Option.some.inj ((List.find?_cons_of_pos hy).symm.trans h)
      rw [List.map_cons, if_pos hy, List.find?_cons_of_pos (hkeep y hy)]
    · rw [List.find?_cons_of_neg hy] at h
      rw [List.map_cons, if_neg hy, List.find?_cons_of_neg hy, ih h]

end Sys2Proof.Machine

namespace Sys2Proof
open Machine

/-- Settles O49: a recurrence changes the list of faults alone, and in it the fault that recurs. -/
theorem faultsRecur : Obligations.FaultsRecur := by
  unfold Obligations.FaultsRecur
  intro s code cls inst d cond inj f hf t
  have ht : t = _ := State.latch_of_latched hf
  rw [ht]
  refine ⟨?_, rfl, rfl, rfl, rfl, rfl⟩
  have hsame : ∀ y : Flt, (y.code = code ∧ y.inst = inst) = ((y.code == code && y.inst == inst) = true) := fun y => by simp
  simp only [hsame]
  exact find?_map_of_found (g := fun y => y.recurs s.stamp cond) (fun y hy => hy) hf

end Sys2Proof
end

section
/-! PROOF. OPEN gives its session a new identifier (R313). -/

namespace Sys2Proof.Machine

theorem State.freeId_iff {s : State} {n : Nat} : s.freeId n = true ↔ n ≠ 0 ∧ s.session? n = none ∧ n ∉ s.toa.closed := by
  simp [State.freeId, and_assoc]

/-- An identifier that is not free is 0, of an open session or retired. -/
theorem State.mem_of_not_free {s : State} {n : Nat} (h : ¬s.freeId n = true) :
    n ∈ 0 :: (s.toa.sessions.map (·.id) ++ s.toa.closed) := by
  by_contra hn
  simp only [List.mem_cons, List.mem_append, List.mem_map, not_or, not_exists, not_and] at hn
  obtain ⟨h0, hs, hc⟩ := hn
  exact h (State.freeId_iff.mpr ⟨h0, List.find?_eq_none.mpr fun y hy hid => hs y hy (beq_iff_eq.mp hid), hc⟩)

/-- The 512 identifiers from a value on are different. -/
theorem nodup_candidates (n : Nat) : ((List.range 512).map (fun i => (n + i) % 2 ^ 32)).Nodup :=
  List.Nodup.map_on (fun i hi j hj h => by
    rw [List.mem_range] at hi hj
    omega) List.nodup_range

/-- With fewer than 511 identifiers taken one of the 512 candidates is free, and OPEN takes it. -/
theorem State.freeId_candidate {s : State} (n : Nat) (h : s.toa.closed.length + s.toa.sessions.length < 511) :
    s.freeId ((((List.range 512).map (fun i => (n + i) % 2 ^ 32)).find? s.freeId).getD 1) = true := by
  cases hf : ((List.range 512).map (fun i => (n + i) % 2 ^ 32)).find? s.freeId with
  | some id => exact List.find?_some hf
  | none =>
    have hsub := List.subperm_of_subset (nodup_candidates n) fun id hid => State.mem_of_not_free (List.find?_eq_none.mp hf id hid)
    have hlen := hsub.length_le
    simp only [List.length_map, List.length_range, List.length_cons, List.length_append] at hlen
    omega

/-- A state with the same sessions and retired identifiers has the same free ones. -/
theorem State.freeId_congr {s u : State} {n : Nat} (hs : u.toa.sessions = s.toa.sessions) (hc : u.toa.closed = s.toa.closed) :
    u.freeId n = s.freeId n := by
  simp only [State.freeId, State.session?, hs, hc]

/-- OPEN under a new nonce, with room for a session and an identifier to give it, appends a session of a free identifier. -/
theorem State.openCmd_gives_free_id {s : State} {t seq : Nat} {nonce : Bytes}
    (hn : s.toa.opens.find? (fun (e : Bytes × Nat × Nat) => e.1 == nonce && (s.session? e.2.1).isSome) = none)
    (hroom : s.toa.sessions.length < 16) (hfew : s.toa.closed.length + s.toa.sessions.length < 511) :
    ∃ (y : Session) (u : State), s.openCmd t seq nonce = { st := u, body := le 4 y.id } ∧ u.toa.sessions = s.toa.sessions ++ [y] ∧
      s.freeId y.id = true ∧ y.super = false ∧ y.seqHi = seq ∧ y.transport = t := by
  have ho := State.openCmd_of_new (t := t) (seq := seq)
    (List.find?_eq_none.mpr fun e he => List.find?_eq_none.mp hn e (List.mem_of_mem_filter he)) hroom
  extract_lets x id at ho
  have hfree : s.freeId id = true := (State.freeId_congr (u := s) (s := x.2) rfl rfl).trans (State.freeId_candidate x.1 hfew)
  clear_value id
  exact ⟨{ id := id, seqHi := seq, nonce := nonce, openNs := x.2.aclkNs, lastNs := x.2.aclkNs, transport := t }, _, ho, rfl, hfree,
    rfl, rfl, rfl⟩

end Sys2Proof.Machine

namespace Sys2Proof
open Machine

/-- Settles O50: fewer identifiers are taken than OPEN tries, so it finds a free one. -/
theorem sessionIdsAreNew : Obligations.SessionIdsAreNew := by
  unfold Obligations.SessionIdsAreNew
  intro t seq nonce s hn hroom hfew
  obtain ⟨y, u, ho, hu, hfree, hsup, hseq, ht⟩ := State.openCmd_gives_free_id (t := t) (seq := seq) hn hroom hfew
  obtain ⟨h0, hs, hc⟩ := State.freeId_iff.mp hfree
  rw [ho]
  exact ⟨y, hu, rfl, rfl, h0, hs, hc, hsup, hseq, ht⟩

end Sys2Proof
end

section
/-! PROOF. The step and the reset state (00_scope; chapters 20 and 24). -/

namespace Sys2Proof.Machine

/-- RESET_SAFE, latched at reset, is a fault of every safety function (R409, R412). -/
theorem State.reset_valveHeld : State.reset.valveHeld = true := by decide

theorem State.reset_hvHeld (b : Nat) : State.reset.hvHeld b = true := rfl

theorem State.reset_stoHeld (g : Nat) : State.reset.stoHeld g = true := rfl

/-- At reset Q24 holds the event of RESET_SAFE, and every ring is as it comes up: not enabled. -/
theorem State.reset_ring_en (q : Nat) : (State.reset.ring q).en = false := by
  unfold State.ring State.reset
  rw [Tab.get, Tab.get]
  split <;> rfl

end Sys2Proof.Machine

namespace Sys2Proof
open Machine

/-- Settles O1: the step takes the front of the queue. -/
theorem stepRunsFront : Obligations.StepRunsFront := by
  unfold Obligations.StepRunsFront
  exact fun _ _ _ => rfl

/-- Settles O4: the fields are read off the reset state, the outputs off the one fault latched in it. -/
theorem resetState : Obligations.ResetState := by
  unfold Obligations.ResetState
  exact ⟨⟨rfl, rfl, rfl, rfl, rfl, rfl, rfl, rfl, rfl⟩,
    ⟨rfl, by decide, by decide, fun b _ => ⟨State.reset_hvHeld b, State.reset_stoHeld b⟩, State.reset_valveHeld⟩, State.reset_ring_en⟩

/-- Settles O5: two objects are listed, in order and with values that are not their defaults, and no byte. -/
theorem resetCanonical : Obligations.ResetCanonical := by
  unfold Obligations.ResetCanonical State.Canonical
  exact ⟨by decide +kernel, List.Pairwise.nil, rfl⟩

end Sys2Proof
end
